-- ==== Sys2Proof/Word.lean ====
section
/-! DEFINITION. Words, and the two prefix words an instruction unit can carry (spec 02_encoding). -/
namespace Sys2Proof

/-- A g register or an address while it is computed: 64 bits (R86). -/
abbrev Word := BitVec 64
/-- One byte of storage (R70). -/
abbrev Byte := BitVec 8
/-- One word of an instruction unit (R21). -/
abbrev IWord := BitVec 32

/-- The fields of a MOD prefix, with the clamp literal of the unit (R36); `lit` is 0 when CLAMP is not 0b11. -/
structure Mod where
  sat : Bool
  neg : Bool
  abs : Bool
  clamp : BitVec 2
  scale : BitVec 5
  nega : Bool
  negb : Bool
  absa : Bool
  absb : Bool
  lit : BitVec 32
  deriving DecidableEq, Repr

/-- The prefixes of a unit: the mask register that a mask prefix names (R39) and the MOD prefix (R36). -/
structure Pre where
  mask : Option (BitVec 3)
  mod : Option Mod
  deriving DecidableEq, Repr

/-- No prefix. -/
def Pre.none : Pre := { mask := Option.none, mod := Option.none }

/-- The words of the unit that the prefixes account for, the clamp literal included (R21). -/
def Pre.words (p : Pre) : Nat :=
  (if p.mask.isSome then 1 else 0) +
  (match p.mod with
   | Option.none => 0
   | Option.some m => if m.clamp = 3#2 then 2 else 1)

/-- SignExtend(x, n) of R5 to 64 bits. -/
def sext64 {n : Nat} (x : BitVec n) : Word := x.signExtend 64
/-- Zero extension to 64 bits. -/
def zext64 {n : Nat} (x : BitVec n) : Word := x.setWidth 64

end Sys2Proof
end

