-- ==== Sys2Proof/Config.lean ====
section
/-! DEFINITION. What the spec leaves open: free values, opaque, so that a claim holds whatever they are. -/
namespace Sys2Proof.Config

/-- A fresh value that the spec leaves open; the counter `n` is a field of the state (log entry 7). -/
opaque freeBits (w n : Nat) : BitVec w

/-- A fresh choice among finitely many (taken modulo their number), for the counter `n` (log entry 7). -/
opaque freeChoice (n : Nat) : Nat

/-- Which of the results within the stated error bound a special function has: a fixed function of the function number, the format and
the input bits (R143; log entry 8). -/
opaque sfuChoice (fn fmt bits : Nat) : Nat

/-- The KX9's own exponential and rotation functions, fixed functions of their input bits (R255, R214; log entry 8). -/
opaque engineChoice (fn bits : Nat) : Nat

/-- Which of the values written to a byte of a pool crate an ordinary load returns (R309; log entry 9). -/
opaque poolChoice (n loc : Nat) : Nat

/-- Room for versions in a die's attic, the reserve left out: firmware sizes it (R287; log entry 6). -/
opaque atticRoom (die : Nat) : Nat

/-- The plaintext that a lost line's byte reads as where the spec states none (log entry 9). -/
opaque freeByte (key n : Nat) : Byte

/-- Where the engine of a die places the validity segment of a node (R288; log entry 9). -/
opaque vmapDpa (die i : Nat) : BitVec 52

/-- An access to a line, for the counter `n`, reaches the medium and is not served by a cache (R192; log entry 7). -/
opaque reaches (n line : Nat) : Bool

/-- The set of a core's L1 that holds a line (taken modulo 64), which R402 calls an implementation matter (log entry 7). -/
opaque l1Set (line : Nat) : Nat

/-- REV, IDPUB: what silicon and the identity key make them (R389, R390). -/
opaque silicon (die : Nat) : Word
opaque idPub (die word : Nat) : Word
/-- SHA-512 of a die's firmware image (0) and configuration block (1), and the signature by its identity key over a report (R391): what the
images and the key make them. -/
opaque digest (die part : Nat) : BitVec 512
opaque signature (die : Nat) (report : List Byte) : BitVec 512
/-- BOOTST of a die after its boot ROM has run (R388, R389), for the counter `n`: 0 when its checks pass. -/
opaque bootStatus (die n : Nat) : Nat
/-- How many commands' log slots a capture region of `len` crates holds beside `n` captured crates; none when these do not fit (R383; log
entry 5). -/
opaque captureSlots (len n : Nat) : Option Nat
/-- Bytes of the form in which a capture region of `len` crates holds `n` captured crates and the host inboxes (R383; log entry 5). -/
opaque captureSize (len n : Nat) : Nat
/-- DPA of a die's control space (R389); DESIGN CHOICE, log entry 5. -/
def csBase (d : Nat) : Nat := (0xFFFFFFC + d % 4) * 2 ^ 24
/-- DPA of a die's node pool (R282, R389); DESIGN CHOICE, log entry 5. -/
def nodeBase (d : Nat) : Nat := 0xC000000000 + d % 4 * 2 ^ 39
/-- DPA of the block table of a die's node and of the slot directory of a block (R284); DESIGN CHOICE, log entry 9. -/
def blockTable (d i : Nat) : Nat := 2 ^ 51 + d % 4 * 2 ^ 48 + i * 2 ^ 16
def slotDir (d bid : Nat) : Nat := 2 ^ 51 + 2 ^ 50 + d % 4 * 2 ^ 45 + bid * 2 ^ 13
/-- Crates of one HBM channel: a ninety-sixth of 768 GiB (R10, R191, R389); DESIGN CHOICE, log entry 5. -/
def channelCrates : Nat := 768 * 2 ^ 30 / 65536 / 96

end Sys2Proof.Config
end

