-- ==== Sys2Proof/Machine/Fp.lean ====
section
/-! DEFINITION. Number formats, exact values and the one rounding of every result (03_numbers, R51 to R68). -/
namespace Sys2Proof

/-- The floating-point formats (R51). -/
inductive Fmt where
  | f32
  | bf16
  | f16
  | e4m3
  | e5m2
  | e2m1
  deriving DecidableEq, Repr

namespace Fmt
/-- Width of the format (R51). -/
def width : Fmt → Nat
  | f32 => 32
  | bf16 => 16
  | f16 => 16
  | e4m3 => 8
  | e5m2 => 8
  | e2m1 => 4
/-- Width of the fraction field (R51). -/
def frac : Fmt → Nat
  | f32 => 23
  | bf16 => 7
  | f16 => 10
  | e4m3 => 3
  | e5m2 => 2
  | e2m1 => 1
/-- Exponent bias (R51). -/
def bias : Fmt → Nat
  | f32 => 127
  | bf16 => 127
  | f16 => 15
  | e4m3 => 7
  | e5m2 => 15
  | e2m1 => 1
/-- The pattern of the largest finite value (R51). -/
def maxFin : Fmt → Nat
  | f32 => 0x7F7FFFFF
  | bf16 => 0x7F7F
  | f16 => 0x7BFF
  | e4m3 => 0x7E
  | e5m2 => 0x7B
  | e2m1 => 0x7
/-- The canonical NaN; +0 where the format has none (R53, R54). -/
def canonNan : Fmt → Nat
  | f32 => 0x7FC00000
  | bf16 => 0x7FC0
  | f16 => 0x7E00
  | e4m3 => 0x7F
  | e5m2 => 0x7E
  | e2m1 => 0
/-- The format encodes infinities (R53). -/
def hasInf : Fmt → Bool
  | e4m3 => false
  | e2m1 => false
  | _ => true
/-- The exponent of the smallest normal value (R51). -/
def emin (f : Fmt) : Int := 1 - (f.bias : Int)
/-- A pattern with its sign bit. -/
def signed (f : Fmt) (neg : Bool) (b : Nat) : Nat := if neg then b + 2 ^ (f.width - 1) else b
/-- The float class of R28. -/
def ofEt (e : BitVec 3) : Option Fmt :=
  match e.toNat with
  | 0 => some f32
  | 1 => some bf16
  | 2 => some f16
  | 3 => some e4m3
  | 4 => some e5m2
  | 5 => some e2m1
  | _ => none
end Fmt

/-- An exact value before its rounding: a NaN (`nv`: it raises invalid), an infinity, or ±`num`/`den` × 2^`e`; a zero keeps its sign. -/
inductive Ex where
  | nan (nv : Bool)
  | inf (neg : Bool)
  | fin (neg : Bool) (num den : Nat) (e : Int)
  deriving DecidableEq, Repr

/-- Flag bits of FPFLAGS (R62): NX, UF, OF, DZ, NV from bit 4 down. -/
abbrev Flags := BitVec 5
def Flags.nx : Flags := 0b10000#5
def Flags.uf : Flags := 0b01000#5
def Flags.of : Flags := 0b00100#5
def Flags.dz : Flags := 0b00010#5
def Flags.nv : Flags := 0b00001#5

/-- A flag set when a condition holds. -/
def flagIf (c : Bool) (f : Flags) : Flags := if c then f else 0#5

/-- The value of an encoding (R52, R53); a signalling NaN is one that raises invalid (R54). -/
def Fmt.dec (f : Fmt) (bits : Nat) : Ex :=
  let b := bits % 2 ^ f.width
  let neg := b.testBit (f.width - 1)
  let mag := b % 2 ^ (f.width - 1)
  let m := f.frac
  let e := mag / 2 ^ m
  let fr := mag % 2 ^ m
  if f.maxFin < mag then
    if f.hasInf && fr == 0 then .inf neg else .nan (f.hasInf && !fr.testBit (m - 1))
  else if e = 0 then .fin neg fr 1 (1 - (f.bias : Int) - (m : Int))
  else .fin neg (2 ^ m + fr) 1 ((e : Int) - (f.bias : Int) - (m : Int))

namespace Ex
/-- −x; a NaN is unchanged (R54). -/
def neg : Ex → Ex
  | nan v => nan v
  | inf n => inf (!n)
  | fin n a d e => fin (!n) a d e
/-- |x| (R38). -/
def abs : Ex → Ex
  | nan v => nan v
  | inf _ => inf false
  | fin _ a d e => fin false a d e
/-- x × 2^k (R38). -/
def scale (k : Int) : Ex → Ex
  | fin n a d e => fin n a d (e + k)
  | x => x
/-- An integer. -/
def ofInt (i : Int) : Ex := fin (decide (i < 0)) i.natAbs 1 0
/-- The finite value is zero. -/
def isZero : Ex → Bool
  | fin _ a _ _ => a == 0
  | _ => false
def isNan : Ex → Bool
  | nan _ => true
  | _ => false
/-- ±m as an integer. -/
def sgn (neg : Bool) (m : Nat) : Int := if neg then -(m : Int) else (m : Int)
/-- x + y with the specials of R61. -/
def add : Ex → Ex → Ex
  | nan v, nan w => nan (v || w)
  | nan v, _ => nan v
  | _, nan w => nan w
  | inf n, inf m => if n = m then inf n else nan true
  | inf n, _ => inf n
  | _, inf m => inf m
  | fin n a d e, fin m b c k =>
    let lo := min e k
    let x := sgn n (a * c * 2 ^ (e - lo).toNat) + sgn m (b * d * 2 ^ (k - lo).toNat)
    if x = 0 then fin (n && m) 0 1 0 else fin (decide (x < 0)) x.natAbs (d * c) lo
/-- x × y with the specials of R61. -/
def mul : Ex → Ex → Ex
  | nan v, nan w => nan (v || w)
  | nan v, _ => nan v
  | _, nan w => nan w
  | inf n, inf m => inf (n != m)
  | inf n, fin m b _ _ => if b = 0 then nan true else inf (n != m)
  | fin n a _ _, inf m => if a = 0 then nan true else inf (n != m)
  | fin n a d e, fin m b c k => fin (n != m) (a * b) (d * c) (e + k)
/-- x × y is 0 × ∞. -/
def zeroInf : Ex → Ex → Bool
  | inf _, fin _ b _ _ => b == 0
  | fin _ a _ _, inf _ => a == 0
  | _, _ => false
/-- x × y + z in one; 0 × ∞ is invalid even when z is a quiet NaN (R138). -/
def fma (x y z : Ex) : Ex := if zeroInf x y then nan true else add (mul x y) z
/-- The exact sum of a list of terms, −0 only when every term is (R65). It is formed from the last term back; whether a quiet NaN beside infinities of
both signs raises NV follows that order (log entry 83). -/
def sum : List Ex → Ex
  | [] => fin false 0 1 0
  | [x] => x
  | x :: xs => add x (sum xs)
/-- The sign of x − y for two values that are not NaN: less, equal (the two zeros are), greater. -/
def cmp : Ex → Ex → Ordering
  | inf n, inf m => if n = m then .eq else if n then .lt else .gt
  | inf n, _ => if n then .lt else .gt
  | _, inf m => if m then .gt else .lt
  | fin n a d e, fin m b c k =>
    let lo := min e k
    compare (sgn n (a * c * 2 ^ (e - lo).toNat)) (sgn m (b * d * 2 ^ (k - lo).toNat))
  | _, _ => .eq
/-- The sign bit of a value. -/
def isNeg : Ex → Bool
  | nan _ => false
  | inf n => n
  | fin n _ _ _ => n
/-- x orders at or below y, with −0 below +0 (R137). -/
def le (x y : Ex) : Bool :=
  match cmp x y with
  | .lt => true
  | .gt => false
  | .eq => x.isNeg || !y.isNeg
/-- The lesser; NaN when either is (R137). -/
def min2 : Ex → Ex → Ex
  | nan v, nan w => nan (v || w)
  | nan v, _ => nan v
  | _, nan w => nan w
  | x, y => if le x y then x else y
/-- The greater; NaN when either is (R137). -/
def max2 : Ex → Ex → Ex
  | nan v, nan w => nan (v || w)
  | nan v, _ => nan v
  | _, nan w => nan w
  | x, y => if le x y then y else x
end Ex

/-- The rounding modes of R57. -/
inductive Rm where
  | rne
  | rz
  | ru
  | rd
  deriving DecidableEq, Repr

/-- N/D rounded to an integer for a value of the given sign, and whether it was exact (R57). -/
def roundDiv (r : Rm) (neg : Bool) (n d : Nat) : Nat × Bool :=
  let q := n / d
  let rem := n % d
  let up := match r with
    | .rne => decide (d < 2 * rem) || (2 * rem == d && q % 2 == 1)
    | .rz => false
    | .ru => !neg && rem != 0
    | .rd => neg && rem != 0
  (if up then q + 1 else q, rem == 0)

/-- Floor(log2(num/den)) + e for a positive value. -/
def ilog2 (num den : Nat) (e : Int) : Int :=
  let t : Int := (num.log2 : Int) - (den.log2 : Int)
  let below := if 0 ≤ t then decide (num < den * 2 ^ t.toNat) else decide (num * 2 ^ (-t).toNat < den)
  (if below then t - 1 else t) + e

/-- num/den × 2^e in units of 2^q, as a fraction. -/
def inUnits (num den : Nat) (e q : Int) : Nat × Nat :=
  if q ≤ e then (num * 2 ^ (e - q).toNat, den) else (num, den * 2 ^ (q - e).toNat)

/-- The result of an overflow, before its sign (R58): the sign bit is added by the caller; E4M3's NaN is without sign. -/
def overflowBits (f : Fmt) (r : Rm) (sat neg : Bool) : Nat :=
  let away := match r with
    | .rne => true
    | .rz => false
    | .ru => !neg
    | .rd => neg
  if sat || !away || f == .e2m1 then f.signed neg f.maxFin
  else if f.hasInf then f.signed neg (f.maxFin + 1)
  else f.canonNan

/-- The rounding of a positive magnitude with its sign (R57 to R59). -/
def roundMag (f : Fmt) (r : Rm) (sat neg : Bool) (num den : Nat) (e : Int) : Nat × Flags :=
  let m : Int := (f.frac : Int)
  let k := ilog2 num den e
  let q := max (k - m) (f.emin - m)
  let x := inUnits num den e q
  let y := roundDiv r neg x.1 x.2
  let bits := (q - (f.emin - m)).toNat * 2 ^ f.frac + y.1
  if f.maxFin < bits then (overflowBits f r sat neg, Flags.of ||| Flags.nx)
  else
    let x' := inUnits num den e (k - m)
    let tiny := decide (k < f.emin) && !(decide (k + 1 = f.emin) && (roundDiv r neg x'.1 x'.2).1 == 2 ^ (f.frac + 1))
    (f.signed neg bits, flagIf (!y.2) Flags.nx ||| flagIf (tiny && !y.2) Flags.uf)

/-- RoundToDest: the bits of an exact value in a format, and the flags of its rounding (R57 to R60). An infinite value in a format
without infinities raises invalid (R58). -/
def roundEx (f : Fmt) (r : Rm) (sat : Bool) : Ex → Nat × Flags
  | .nan v => (f.canonNan, flagIf (v || f == .e2m1) Flags.nv)
  | .inf n => if f.hasInf then (f.signed n (f.maxFin + 1), 0#5) else (overflowBits f .rne sat n, Flags.nv)
  | .fin n num den e => if num = 0 then (f.signed n 0, 0#5) else roundMag f r sat n num den e

/-- RoundNE32 (R64): the bits of the nearest FP32 value, no flags. -/
def roundNE32 (x : Ex) : BitVec 32 := BitVec.ofNat 32 (roundEx .f32 .rne false x).1

/-- An FP32 pattern's value. -/
def f32Val (b : BitVec 32) : Ex := Fmt.f32.dec b.toNat

/-- FP32 addition of two patterns, round to nearest even (R61). -/
def f32Add (a b : BitVec 32) : BitVec 32 := roundNE32 (Ex.add (f32Val a) (f32Val b))
/-- FP32 minimum and maximum, as VADDF's (R137). -/
def f32Min (a b : BitVec 32) : BitVec 32 := roundNE32 (Ex.min2 (f32Val a) (f32Val b))
def f32Max (a b : BitVec 32) : BitVec 32 := roundNE32 (Ex.max2 (f32Val a) (f32Val b))
def f32Mul (a b : BitVec 32) : BitVec 32 := roundNE32 (Ex.mul (f32Val a) (f32Val b))

/-! ## The MOD prefix (R38) -/

/-- The source steps of R38. -/
def modSrc (absS negS : Bool) (x : Ex) : Ex :=
  let x := if absS then x.abs else x
  if negS then x.neg else x

/-- The result steps of R38 before the rounding: ×2^e, then ABS, then NEG. -/
def modPost (m : Mod) (x : Ex) : Ex :=
  let x := x.scale m.scale.toInt
  let x := if m.abs then x.abs else x
  if m.neg then x.neg else x

/-- The lower and upper clamp bounds of a float result (R36): none where the bound is a NaN, which is not applied. -/
def clampBounds (m : Mod) : Ex × Ex :=
  match m.clamp.toNat with
  | 1 => (.fin false 0 1 0, .fin false 1 1 0)
  | 2 => (.fin true 1 1 0, .fin false 1 1 0)
  | _ => (Fmt.f16.dec (m.lit.toNat % 65536), Fmt.f16.dec (m.lit.toNat / 65536))

/-- Clamp the rounded bits of a float result (R38). A bound is taken in the destination format, rounded to nearest (log entry 10). -/
def clampFloat (f : Fmt) (m : Mod) (b : Nat) : Nat :=
  if m.clamp = 0#2 || (f.dec b).isNan then b
  else
    let bd := clampBounds m
    let lo := (roundEx f .rne false bd.1).1
    let hi := (roundEx f .rne false bd.2).1
    let b1 := if bd.1.isNan then b else if Ex.le (f.dec b) (f.dec lo) then lo else b
    if bd.2.isNan then b1 else if Ex.le (f.dec hi) (f.dec b1) then hi else b1

/-- The float path of R38 for an exact result. -/
def modFloat (f : Fmt) (m : Option Mod) (x : Ex) : Nat × Flags :=
  match m with
  | none => roundEx f .rne false x
  | some m =>
    let r := roundEx f .rne m.sat (modPost m x)
    (clampFloat f m r.1, r.2)

/-- Saturate(x, w) for a signed or an unsigned type (R5, R131). -/
def saturate (signed : Bool) (w : Nat) (x : Int) : Int :=
  let lo : Int := if signed then -(2 ^ (w - 1) : Nat) else 0
  let hi : Int := if signed then (2 ^ (w - 1) : Nat) - 1 else (2 ^ w : Nat) - 1
  max lo (min hi x)

/-- Read a pattern of width w as Signed or Unsigned (R103). -/
def readInt (signed : Bool) {w : Nat} (b : BitVec w) : Int := if signed then b.toInt else (b.toNat : Int)

/-- The integer source steps of R38. -/
def modSrcInt (absS negS : Bool) (x : Int) : Int :=
  let x := if absS then (x.natAbs : Int) else x
  if negS then -x else x

/-- x × 2^e with Floor for a negative e (R38). -/
def scaleInt (e : Int) (x : Int) : Int := if 0 ≤ e then x * (2 ^ e.toNat : Nat) else x / (2 ^ (-e).toNat : Nat)

/-- The integer path of R38 at width w: the result pattern of an exact value. A clamped value that the lane cannot hold wraps (log entry 82). -/
def modInt (signed : Bool) (w : Nat) (m : Option Mod) (x : Int) : BitVec w :=
  match m with
  | none => BitVec.ofInt w x
  | some m =>
    let x := if m.abs then (x.natAbs : Int) else x
    let x := if m.neg then -x else x
    -- ABS and NEG commute with the exact scaling that R38 puts before them
    let x := modAbsScale m x
    let y : BitVec w := BitVec.ofInt w (if m.sat then saturate signed w x else x)
    if m.clamp = 0#2 then y
    else
      let v := readInt signed y
      let bd : Int × Int := match m.clamp.toNat with
        | 1 => (0, 1)
        | 2 => (-1, 1)
        | _ => ((m.lit.extractLsb' 0 16).toInt, (m.lit.extractLsb' 16 16).toInt)
      BitVec.ofInt w (min (max v bd.1) bd.2)
where
  /-- The scaling step of R38. -/
  modAbsScale (m : Mod) (x : Int) : Int := scaleInt m.scale.toInt x

/-! ## Conversions (R60) -/

/-- Floating point to integer: the pattern and the flags (R60). -/
def toIntDest (r : Rm) (signed : Bool) (w : Nat) (x : Ex) : BitVec w × Flags :=
  let lo : Int := if signed then -(2 ^ (w - 1) : Nat) else 0
  let hi : Int := if signed then (2 ^ (w - 1) : Nat) - 1 else (2 ^ w : Nat) - 1
  match x with
  | .nan _ => (0#w, Flags.nv)
  | .inf n => (BitVec.ofInt w (if n then lo else hi), Flags.nv)
  | .fin n num den e =>
    let u := inUnits num den e 0
    let y := roundDiv r n u.1 u.2
    let v := Ex.sgn n y.1
    if v < lo then (BitVec.ofInt w lo, Flags.nv)
    else if hi < v then (BitVec.ofInt w hi, Flags.nv)
    else (BitVec.ofInt w v, flagIf (!y.2) Flags.nx)

/-- RoundInt with ties to even, of an exact value (R149). -/
def roundIntRne : Ex → Int × Bool
  | .fin n num den e => let u := inUnits num den e 0; let y := roundDiv .rne n u.1 u.2; (Ex.sgn n y.1, y.2)
  | _ => (0, true)

/-! ## Special functions (R143) -/

/-- The precision, in fraction bits, of the evaluations below: far beyond every format's. -/
def sfP : Nat := 360

/-- Sum of z^k/k! from the term `t` of index `k`, in fixed point. -/
def expSeries (z : Nat) : Nat → Nat → Nat → Nat
  | 0, _, _ => 0
  | n + 1, k, t => t + expSeries z n (k + 1) (t * z / 2 ^ sfP / (k + 1))

/-- Sum of z^(2k+1)/(2k+1), in fixed point (inverse hyperbolic tangent). -/
def atanhSeries (z2 : Nat) : Nat → Nat → Nat → Nat
  | 0, _, _ => 0
  | n + 1, k, t => t / (2 * k + 1) + atanhSeries z2 n (k + 1) (t * z2 / 2 ^ sfP)

/-- Alternating sum of z^(2k+1)/(2k+1) (arc tangent) or of z^(2k+j)/(2k+j)! (sine, cosine), in fixed point. -/
def atanSeries (z2 : Nat) : Nat → Nat → Nat → Int
  | 0, _, _ => 0
  | n + 1, k, t => (t / (2 * k + 1) : Nat) - atanSeries z2 n (k + 1) (t * z2 / 2 ^ sfP)
def sinSeries (z2 : Nat) : Nat → Nat → Nat → Int
  | 0, _, _ => 0
  | n + 1, k, t => (t : Int) - sinSeries z2 n (k + 2) (t * z2 / 2 ^ sfP / ((k + 1) * (k + 2)))

/-- ln 2 and π in fixed point. -/
def ln2Fix : Nat := 2 * atanhSeries (2 ^ sfP / 9) 120 0 (2 ^ sfP / 3)
def piFix : Nat := (16 * atanSeries (2 ^ sfP / 25) 90 0 (2 ^ sfP / 5) - 4 * atanSeries (2 ^ sfP / 57121) 40 0 (2 ^ sfP / 239)).toNat

/-- x in fixed point, rounded down, for a finite value; magnitudes of 2^12 or more are taken as 2^12. -/
def fixOf : Ex → Int
  | .fin n num den e =>
    if num = 0 then 0
    else if 12 ≤ ilog2 num den e then Ex.sgn n (2 ^ (12 + sfP))
    else let u := inUnits num den e (-(sfP : Int)); Ex.sgn n (u.1 / u.2)
  | _ => 0

/-- 2^t for t in fixed point, as mantissa and exponent. -/
def exp2Fix (t : Int) : Nat × Int :=
  let n := t / (2 ^ sfP : Nat)
  let fr := (t % (2 ^ sfP : Nat)).toNat
  (expSeries (fr * ln2Fix / 2 ^ sfP) 90 0 (2 ^ sfP), n - (sfP : Int))

/-- e^t for t in fixed point. -/
def expFix (t : Int) : Nat × Int := exp2Fix (t * (2 ^ sfP : Nat) / (ln2Fix : Int))

/-- ln x for a positive finite value, in fixed point. -/
def lnFix (num den : Nat) (e : Int) : Int :=
  let k := ilog2 num den e
  let u := inUnits num den e (k - (sfP : Int))
  let m := u.1 / u.2
  let z := (m - 2 ^ sfP) * 2 ^ sfP / (m + 2 ^ sfP)
  2 * (atanhSeries (z * z / 2 ^ sfP) 130 0 z : Nat) + k * (ln2Fix : Int)

/-- sin(π r) for r in fixed point from 0 up to 1/2. -/
def sinHalf (r : Nat) : Nat :=
  let z := r * piFix / 2 ^ sfP
  (sinSeries (z * z / 2 ^ sfP) 50 1 z).toNat

/-- sin(π x) for x in fixed point, any sign. -/
def sinPiFix (t : Int) : Int :=
  let one := 2 ^ sfP
  let r := (t % (2 * one : Nat)).toNat
  if r ≤ one / 2 then (sinHalf r : Int)
  else if r ≤ one then (sinHalf (one - r) : Int)
  else if r ≤ one + one / 2 then -(sinHalf (r - one) : Int)
  else -(sinHalf (2 * one - r) : Int)

/-- Floor(√n), by bits from `b` down. -/
def isqrtBits (n : Nat) : Nat → Nat → Nat
  | 0, r => r
  | b + 1, r => isqrtBits n b (if (r + 2 ^ b) * (r + 2 ^ b) ≤ n then r + 2 ^ b else r)
def isqrt (n : Nat) : Nat := isqrtBits n (n.log2 / 2 + 1) 0

/-- √(num/den × 2^e) for a positive value, exact or with a last bit that marks it inexact, far below every format's last place. -/
def sqrtEx (num den : Nat) (e : Int) : Ex :=
  let e' := if e % 2 = 0 then e else e - 1
  let n := if e % 2 = 0 then num else 2 * num
  let big := n * 2 ^ (2 * sfP)
  let s := isqrt (big / den)
  if s * s * den = big then .fin false s 1 (e' / 2 - (sfP : Int)) else .fin false (2 * s + 1) 1 (e' / 2 - (sfP : Int) - 1)

/-- The twelve functions of VSFU (R143), by their fn numbers. -/
inductive Sfu where
  | rcp
  | rsqrt
  | sqrt
  | exp2
  | log2
  | exp
  | ln
  | sinpi
  | cospi
  | tanh
  | sigm
  | silu
  deriving DecidableEq, Repr

def Sfu.num : Sfu → Nat
  | .rcp => 0
  | .rsqrt => 1
  | .sqrt => 2
  | .exp2 => 3
  | .log2 => 4
  | .exp => 5
  | .ln => 6
  | .sinpi => 7
  | .cospi => 8
  | .tanh => 9
  | .sigm => 10
  | .silu => 11

/-- The error bound in ulp; 0 means correctly rounded (R143). -/
def Sfu.bound (s : Sfu) (f : Fmt) : Nat :=
  match s, f with
  | .rcp, .f32 => 1
  | .rsqrt, .f32 => 1
  | .rcp, _ => 0
  | .rsqrt, _ => 0
  | .sqrt, _ => 0
  | .tanh, .f32 => 3
  | .sigm, .f32 => 3
  | .silu, .f32 => 4
  | _, .f32 => 2
  | _, _ => 1

/-- The exact value of a rational result, or an approximation of an irrational one (`exact` false). -/
structure SfVal where
  val : Ex
  exact : Bool
  flags : Flags := 0#5
  deriving DecidableEq, Repr

/-- x is a multiple of 2^q. -/
def isMultiple (num den : Nat) (e q : Int) : Bool := let u := inUnits num den e q; u.1 % u.2 == 0

/-- mantissa × 2^e with a sign, from fixed point. -/
def ofFix (t : Int) : Ex := .fin (decide (t < 0)) t.natAbs 1 (-(sfP : Int))

/-- e^x as a fraction a/b. -/
def expFrac (t : Int) : Nat × Nat :=
  let y := expFix t
  if 0 ≤ y.2 then (y.1 * 2 ^ y.2.toNat, 1) else (y.1, 2 ^ (-y.2).toNat)

/-- f(x): the table of R143 for its special inputs, the exact results, and approximations far below every format's last place. -/
def sfuVal (s : Sfu) (x : Ex) : SfVal :=
  match x with
  | .nan v => ⟨.nan v, true, 0#5⟩
  | .inf n =>
    match s, n with
    | .rcp, n => ⟨.fin n 0 1 0, true, 0#5⟩
    | .rsqrt, false => ⟨.fin false 0 1 0, true, 0#5⟩
    | .sqrt, false => ⟨.inf false, true, 0#5⟩
    | .log2, false => ⟨.inf false, true, 0#5⟩
    | .ln, false => ⟨.inf false, true, 0#5⟩
    | .exp2, false => ⟨.inf false, true, 0#5⟩
    | .exp, false => ⟨.inf false, true, 0#5⟩
    | .exp2, true => ⟨.fin false 0 1 0, true, 0#5⟩
    | .exp, true => ⟨.fin false 0 1 0, true, 0#5⟩
    | .tanh, n => ⟨.fin n 1 1 0, true, 0#5⟩
    | .sigm, false => ⟨.fin false 1 1 0, true, 0#5⟩
    | .sigm, true => ⟨.fin false 0 1 0, true, 0#5⟩
    | .silu, false => ⟨.inf false, true, 0#5⟩
    | .silu, true => ⟨.fin true 0 1 0, true, 0#5⟩
    | _, _ => ⟨.nan true, true, 0#5⟩
  | .fin n num den e =>
    if num = 0 then
      match s with
      | .rcp => ⟨.inf n, true, Flags.dz⟩
      | .rsqrt => ⟨.inf n, true, Flags.dz⟩
      | .log2 => ⟨.inf true, true, Flags.dz⟩
      | .ln => ⟨.inf true, true, Flags.dz⟩
      | .exp2 => ⟨.fin false 1 1 0, true, 0#5⟩
      | .exp => ⟨.fin false 1 1 0, true, 0#5⟩
      | .cospi => ⟨.fin false 1 1 0, true, 0#5⟩
      | .sigm => ⟨.fin false 1 1 (-1), true, 0#5⟩
      | _ => ⟨.fin n 0 1 0, true, 0#5⟩
    else
      let x := Ex.fin n num den e
      match s with
      | .rcp => ⟨.fin n den num (-e), true, 0#5⟩
      | .sqrt => if n then ⟨.nan true, true, 0#5⟩ else ⟨sqrtEx num den e, true, 0#5⟩
      | .rsqrt => if n then ⟨.nan true, true, 0#5⟩ else ⟨sqrtEx den num (-e), true, 0#5⟩
      | .exp2 =>
        if isMultiple num den e 0 then ⟨.fin false 1 1 (fixOf x / (2 ^ sfP : Nat)), true, 0#5⟩
        else let y := exp2Fix (fixOf x); ⟨.fin false y.1 1 y.2, false, 0#5⟩
      | .exp => let y := expFix (fixOf x); ⟨.fin false y.1 1 y.2, false, 0#5⟩
      | .log2 =>
        if n then ⟨.nan true, true, 0#5⟩
        else
          let k := ilog2 num den e
          let u := inUnits num den e k
          if u.1 = u.2 then ⟨Ex.ofInt k, true, 0#5⟩
          else
            let t := lnFix num den e
            ⟨.fin (decide (t < 0)) t.natAbs ln2Fix 0, false, 0#5⟩
      | .ln =>
        if n then ⟨.nan true, true, 0#5⟩
        else
          let u := inUnits num den e 0
          if u.1 = u.2 then ⟨.fin false 0 1 0, true, 0#5⟩ else ⟨ofFix (lnFix num den e), false, 0#5⟩
      | .sinpi =>
        let t := piArg num den e
        if isMultiple num den e 0 then ⟨.fin n 0 1 0, true, 0#5⟩
        else if isMultiple num den e (-1) then ⟨.fin (n != decide (t / (2 ^ sfP : Nat) % 2 = 1)) 1 1 0, true, 0#5⟩
        else ⟨if n then (ofFix (sinPiFix t)).neg else ofFix (sinPiFix t), false, 0#5⟩
      | .cospi =>
        let t := piArg num den e
        if isMultiple num den e 0 then ⟨.fin (decide (t / (2 ^ sfP : Nat) % 2 = 1)) 1 1 0, true, 0#5⟩
        else if isMultiple num den e (-1) then ⟨.fin false 0 1 0, true, 0#5⟩
        else ⟨ofFix (sinPiFix (t + (2 ^ (sfP - 1) : Nat))), false, 0#5⟩
      | .tanh =>
        let f := expFrac (2 * (fixOf x).natAbs)
        ⟨.fin n (f.1 - f.2) (f.1 + f.2) 0, false, 0#5⟩
      | .sigm => let f := expFrac (fixOf x); ⟨.fin false f.1 (f.1 + f.2) 0, false, 0#5⟩
      | .silu => let f := expFrac (fixOf x); ⟨.mul x (.fin false f.1 (f.1 + f.2) 0), false, 0#5⟩
where
  /-- |x| modulo 2, in fixed point. -/
  piArg (num den : Nat) (e : Int) : Int :=
    let u := inUnits num den e (-(sfP : Int))
    ((u.1 / u.2) % 2 ^ (sfP + 1) : Nat)

/-- The magnitude bits of the largest representable value not above, or the smallest not below, a positive value (exponent unbounded above). -/
def magBits (f : Fmt) (up : Bool) (num den : Nat) (e : Int) : Nat :=
  if num = 0 then 0
  else
    let m : Int := (f.frac : Int)
    let q := max (ilog2 num den e - m) (f.emin - m)
    let x := inUnits num den e q
    (q - (f.emin - m)).toNat * 2 ^ f.frac + (roundDiv (if up then .ru else .rd) false x.1 x.2).1

/-- A result within `k` ulp of the value, chosen by `c` among all that are (R143). -/
def roundWithin (f : Fmt) (k c : Nat) (sat neg : Bool) (num den : Nat) (e : Int) : Nat × Flags :=
  let m : Int := (f.frac : Int)
  let q := max (ilog2 num den e - m) (f.emin - m)
  let x := inUnits num den e q
  let lo := magBits f true (x.1 - k * x.2) x.2 q
  let hi := magBits f false (x.1 + k * x.2) x.2 q
  let b := lo + c % (hi + 1 - lo)
  if f.maxFin < b then (overflowBits f .rne sat neg, Flags.of ||| Flags.nx)
  else (f.signed neg b, Flags.nx ||| flagIf (decide (b < 2 ^ f.frac)) Flags.uf)

/-- Round a special-function result: exact results exactly, correctly rounded where the bound is 0, else any value within the bound. -/
def roundSf (f : Fmt) (k c : Nat) (sat : Bool) (v : SfVal) : Nat × Flags :=
  let r := roundEx f .rne sat v.val
  match v.val with
  | .fin n num den e =>
    if num = 0 || k = 0 || (v.exact && isMultiple num den e (max (ilog2 num den e - f.frac) (f.emin - f.frac))) then
      (r.1, r.2 ||| v.flags)
    else let w := roundWithin f k c sat n num den e; (w.1, w.2 ||| v.flags)
  | _ => (r.1, r.2 ||| v.flags)

/-- An input pattern with NEGA and ABSA applied: they act on the sign bit (R38). -/
def sfuInput (f : Fmt) (m : Option Mod) (bits : Nat) : Nat :=
  let mag := bits % 2 ^ (f.width - 1)
  let neg := decide (2 ^ (f.width - 1) ≤ bits % 2 ^ f.width)
  match m with
  | none => bits % 2 ^ f.width
  | some m => if (neg && !m.absa) != m.nega then 2 ^ (f.width - 1) + mag else mag
/-- VSFU on one lane with its MOD fields (R143): the choice within the bound is fixed by the function, the format and the function's input. -/
def sfuLane (s : Sfu) (f : Fmt) (m : Option Mod) (bits : Nat) : Nat × Flags :=
  let c := Config.sfuChoice s.num (64 * f.width + f.frac) (sfuInput f m bits)
  let x := f.dec bits
  match m with
  | none => roundSf f (s.bound f) c false (sfuVal s x)
  | some m =>
    let v := sfuVal s (modSrc m.absa m.nega x)
    let r := roundSf f (s.bound f) c m.sat { v with val := modPost m v.val }
    (clampFloat f m r.1, r.2)

end Sys2Proof
end

