-- ==== Sys2Proof/Machine/SMap.lean ====
section
/-! DEFINITION. Sparse maps keyed by numbers, in one canonical form: keys strictly rising and no entry equal to what an unlisted key reads as. -/
namespace Sys2Proof

/-- Data by key; a key that is not listed has the map's default value. -/
abbrev SMap (α : Type) := List (Nat × α)

namespace SMap

/-- The value at a key. -/
def get {α : Type} (d : α) : SMap α → Nat → α
  | [], _ => d
  | (j, a) :: m, k => if j = k then a else get d m k

/-- Put a listed value at a key, in order. -/
def insert {α : Type} (k : Nat) (a : α) : SMap α → SMap α
  | [] => [(k, a)]
  | (j, b) :: m => if k < j then (k, a) :: (j, b) :: m else if k = j then (k, a) :: m else (j, b) :: insert k a m

/-- Unlist a key. -/
def erase {α : Type} (k : Nat) : SMap α → SMap α
  | [] => []
  | (j, b) :: m => if j = k then erase k m else (j, b) :: erase k m

/-- The map with value `a` at key `k`. -/
def set {α : Type} [DecidableEq α] (d : α) (m : SMap α) (k : Nat) (a : α) : SMap α :=
  if a = d then erase k m else insert k a m

/-- Every key is at least `k`. -/
def above {α : Type} (k : Nat) : SMap α → Bool
  | [] => true
  | (j, _) :: m => decide (k ≤ j) && above k m

/-- The canonical form. -/
def wf {α : Type} [DecidableEq α] (d : α) : SMap α → Bool
  | [] => true
  | (j, a) :: m => above (j + 1) m && decide (a ≠ d) && wf d m

/-- Every listed value changed by `f`; a value that becomes the default is unlisted. -/
def mapVals {α : Type} [DecidableEq α] (d : α) (f : α → α) : SMap α → SMap α
  | [] => []
  | (j, a) :: m => if f a = d then mapVals d f m else (j, f a) :: mapVals d f m

/-- The listed keys and values. -/
def keys {α : Type} : SMap α → List Nat
  | [] => []
  | (j, _) :: m => j :: keys m
def vals {α : Type} : SMap α → List α
  | [] => []
  | (_, a) :: m => a :: vals m

/-- The entries that satisfy a test. -/
def keep {α : Type} (p : Nat → α → Bool) : SMap α → SMap α
  | [] => []
  | (j, a) :: m => if p j a then (j, a) :: keep p m else keep p m

end SMap
end Sys2Proof
end

