-- ==== Sys2Proof/Syntax.lean ====
section
/-! DEFINITION. The instructions: one constructor per row of spec/opcode_table.json. An encoded row carries its fields as the table names
them (`s` is the stall count STL) and, where prefixes are permitted, the unit's prefixes `p`; the rows without a word (steps of an engine
or of the host) carry what the step is about. -/
namespace Sys2Proof

/-- The steps of the device, row by row of the opcode table. -/
inductive Instr where
  | aluAdd (p : Pre) (s : BitVec 3) (d a b : BitVec 5)
  | aluSub (p : Pre) (s : BitVec 3) (d a b : BitVec 5)
  | aluAnd (s : BitVec 3) (d a b : BitVec 5)
  | aluOr (s : BitVec 3) (d a b : BitVec 5)
  | aluXor (s : BitVec 3) (d a b : BitVec 5)
  | aluAndn (s : BitVec 3) (d a b : BitVec 5)
  | aluOrn (s : BitVec 3) (d a b : BitVec 5)
  | aluXnor (s : BitVec 3) (d a b : BitVec 5)
  | aluShl (s : BitVec 3) (d a b : BitVec 5)
  | aluShr (s : BitVec 3) (d a b : BitVec 5)
  | aluSar (s : BitVec 3) (d a b : BitVec 5)
  | aluRol (s : BitVec 3) (d a b : BitVec 5)
  | aluRor (s : BitVec 3) (d a b : BitVec 5)
  | aluSlt (s : BitVec 3) (d a b : BitVec 5)
  | aluSltn (s : BitVec 3) (d a b : BitVec 5)
  | aluMin (s : BitVec 3) (d a b : BitVec 5)
  | aluMax (s : BitVec 3) (d a b : BitVec 5)
  | aluMinn (s : BitVec 3) (d a b : BitVec 5)
  | aluMaxn (s : BitVec 3) (d a b : BitVec 5)
  | aluAbsd (p : Pre) (s : BitVec 3) (d a b : BitVec 5)
  | aluwAdd (p : Pre) (s : BitVec 3) (d a b : BitVec 5)
  | aluwSub (p : Pre) (s : BitVec 3) (d a b : BitVec 5)
  | aluwAnd (s : BitVec 3) (d a b : BitVec 5)
  | aluwOr (s : BitVec 3) (d a b : BitVec 5)
  | aluwXor (s : BitVec 3) (d a b : BitVec 5)
  | aluwAndn (s : BitVec 3) (d a b : BitVec 5)
  | aluwOrn (s : BitVec 3) (d a b : BitVec 5)
  | aluwXnor (s : BitVec 3) (d a b : BitVec 5)
  | aluwShl (s : BitVec 3) (d a b : BitVec 5)
  | aluwShr (s : BitVec 3) (d a b : BitVec 5)
  | aluwSar (s : BitVec 3) (d a b : BitVec 5)
  | aluwRol (s : BitVec 3) (d a b : BitVec 5)
  | aluwRor (s : BitVec 3) (d a b : BitVec 5)
  | aluwSlt (s : BitVec 3) (d a b : BitVec 5)
  | aluwSltn (s : BitVec 3) (d a b : BitVec 5)
  | aluwMin (s : BitVec 3) (d a b : BitVec 5)
  | aluwMax (s : BitVec 3) (d a b : BitVec 5)
  | aluwMinn (s : BitVec 3) (d a b : BitVec 5)
  | aluwMaxn (s : BitVec 3) (d a b : BitVec 5)
  | aluwAbsd (p : Pre) (s : BitVec 3) (d a b : BitVec 5)
  | mulLo (p : Pre) (s : BitVec 3) (d a b : BitVec 5)
  | mulHi (s : BitVec 3) (d a b : BitVec 5)
  | mulHin (s : BitVec 3) (d a b : BitVec 5)
  | mulHisn (s : BitVec 3) (d a b : BitVec 5)
  | mulW (p : Pre) (s : BitVec 3) (d a b : BitVec 5)
  | mulWn (s : BitVec 3) (d a b : BitVec 5)
  | divQ (s : BitVec 3) (d a b : BitVec 5)
  | divQn (s : BitVec 3) (d a b : BitVec 5)
  | divRem (s : BitVec 3) (d a b : BitVec 5)
  | divRemn (s : BitVec 3) (d a b : BitVec 5)
  | divQw (s : BitVec 3) (d a b : BitVec 5)
  | divQnw (s : BitVec 3) (d a b : BitVec 5)
  | divRemw (s : BitVec 3) (d a b : BitVec 5)
  | divRemnw (s : BitVec 3) (d a b : BitVec 5)
  | bitClz (s : BitVec 3) (d a : BitVec 5)
  | bitCtz (s : BitVec 3) (d a : BitVec 5)
  | bitPopc (s : BitVec 3) (d a : BitVec 5)
  | bitBrev (s : BitVec 3) (d a : BitVec 5)
  | bitBswap (s : BitVec 3) (d a : BitVec 5)
  | bitSext8 (s : BitVec 3) (d a : BitVec 5)
  | bitSext16 (s : BitVec 3) (d a : BitVec 5)
  | bitSext32 (s : BitVec 3) (d a : BitVec 5)
  | bitZext8 (s : BitVec 3) (d a : BitVec 5)
  | bitZext16 (s : BitVec 3) (d a : BitVec 5)
  | bitZext32 (s : BitVec 3) (d a : BitVec 5)
  | bitExtr (s : BitVec 3) (d a b : BitVec 5)
  | bitExtrn (s : BitVec 3) (d a b : BitVec 5)
  | bitDep (s : BitVec 3) (d a b : BitVec 5)
  | cmovNz (p : Pre) (s : BitVec 3) (d a b : BitVec 5)
  | cmovZ (p : Pre) (s : BitVec 3) (d a b : BitVec 5)
  | cmovLt (p : Pre) (s : BitVec 3) (d a b : BitVec 5)
  | cmovGe (p : Pre) (s : BitVec 3) (d a b : BitVec 5)
  | addi (s : BitVec 3) (d a : BitVec 5) (i : BitVec 12)
  | andi (s : BitVec 3) (d a : BitVec 5) (i : BitVec 12)
  | ori (s : BitVec 3) (d a : BitVec 5) (i : BitVec 12)
  | xori (s : BitVec 3) (d a : BitVec 5) (i : BitVec 12)
  | slti (s : BitVec 3) (d a : BitVec 5) (i : BitVec 12)
  | sltin (s : BitVec 3) (d a : BitVec 5) (i : BitVec 12)
  | shiShl (s : BitVec 3) (d a : BitVec 5) (w : BitVec 1) (h : BitVec 6)
  | shiShr (s : BitVec 3) (d a : BitVec 5) (w : BitVec 1) (h : BitVec 6)
  | shiSar (s : BitVec 3) (d a : BitVec 5) (w : BitVec 1) (h : BitVec 6)
  | shiRor (s : BitVec 3) (d a : BitVec 5) (w : BitVec 1) (h : BitVec 6)
  | lil (s : BitVec 3) (d : BitVec 5) (lit : BitVec 32)
  | lih (s : BitVec 3) (d : BitVec 5) (lit : BitVec 32)
  | adpc (s : BitVec 3) (d : BitVec 5) (o : BitVec 17)
  | beq (s : BitVec 3) (a b : BitVec 5) (o : BitVec 12)
  | bne (s : BitVec 3) (a b : BitVec 5) (o : BitVec 12)
  | blt (s : BitVec 3) (a b : BitVec 5) (o : BitVec 12)
  | bge (s : BitVec 3) (a b : BitVec 5) (o : BitVec 12)
  | bltn (s : BitVec 3) (a b : BitVec 5) (o : BitVec 12)
  | bgen (s : BitVec 3) (a b : BitVec 5) (o : BitVec 12)
  | loop (s : BitVec 3) (a b : BitVec 5) (o : BitVec 12)
  | jal (s : BitVec 3) (d : BitVec 5) (o : BitVec 17)
  | jalr (s : BitVec 3) (d a : BitVec 5) (i : BitVec 12)
  | rpt (s : BitVec 3) (a : BitVec 5) (l d p b : BitVec 4) (w : BitVec 1)
  | nop (s : BitVec 3)
  | srd (s : BitVec 3) (d : BitVec 5) (n : BitVec 10)
  | swr (s : BitVec 3) (d : BitVec 5) (n : BitVec 10)
  | trap (s : BitVec 3) (c : BitVec 10)
  | brk (s : BitVec 3) (c : BitVec 10)
  | eret (s : BitVec 3)
  | yield (s : BitVec 3)
  | getid (s : BitVec 3) (d x : BitVec 5)
  | pubf (s : BitVec 3) (a b : BitVec 5) (c : BitVec 3)
  | done (s : BitVec 3)
  | doneDec (s : BitVec 3) (a : BitVec 5)
  | actqEntry (s : BitVec 3) (d : BitVec 5)
  | actqKind (s : BitVec 3) (d : BitVec 5)
  | actqSendt (s : BitVec 3) (d : BitVec 5)
  | actqArrt (s : BitVec 3) (d : BitVec 5)
  | actqStartt (s : BitVec 3) (d : BitVec 5)
  | actqPend (s : BitVec 3) (d a : BitVec 5)
  | actqDeq (s : BitVec 3) (d : BitVec 5)
  | ld (s : BitVec 3) (t a : BitVec 5) (z : BitVec 3) (m : BitVec 2) (o : BitVec 7)
  | st (s : BitVec 3) (t a : BitVec 5) (z : BitVec 3) (m : BitVec 2) (o : BitVec 7)
  | vaddiAdd (p : Pre) (s : BitVec 3) (d a b : BitVec 5) (e : BitVec 3)
  | vaddiSub (p : Pre) (s : BitVec 3) (d a b : BitVec 5) (e : BitVec 3)
  | vaddiMin (p : Pre) (s : BitVec 3) (d a b : BitVec 5) (e : BitVec 3)
  | vaddiMax (p : Pre) (s : BitVec 3) (d a b : BitVec 5) (e : BitVec 3)
  | vaddiAbsd (p : Pre) (s : BitVec 3) (d a b : BitVec 5) (e : BitVec 3)
  | vaddiAvg (p : Pre) (s : BitVec 3) (d a b : BitVec 5) (e : BitVec 3)
  | vaddiNeg (p : Pre) (s : BitVec 3) (d a : BitVec 5) (e : BitVec 3)
  | vaddiAbs (p : Pre) (s : BitVec 3) (d a : BitVec 5) (e : BitVec 3)
  | vlogiAnd (p : Pre) (s : BitVec 3) (d a b : BitVec 5) (e : BitVec 3)
  | vlogiOr (p : Pre) (s : BitVec 3) (d a b : BitVec 5) (e : BitVec 3)
  | vlogiXor (p : Pre) (s : BitVec 3) (d a b : BitVec 5) (e : BitVec 3)
  | vlogiAndn (p : Pre) (s : BitVec 3) (d a b : BitVec 5) (e : BitVec 3)
  | vlogiShl (p : Pre) (s : BitVec 3) (d a b : BitVec 5) (e : BitVec 3)
  | vlogiShr (p : Pre) (s : BitVec 3) (d a b : BitVec 5) (e : BitVec 3)
  | vlogiSar (p : Pre) (s : BitVec 3) (d a b : BitVec 5) (e : BitVec 3)
  | vlogiRol (p : Pre) (s : BitVec 3) (d a b : BitVec 5) (e : BitVec 3)
  | vlogiRor (p : Pre) (s : BitVec 3) (d a b : BitVec 5) (e : BitVec 3)
  | vlogiNot (p : Pre) (s : BitVec 3) (d a : BitVec 5) (e : BitVec 3)
  | vlogiPopc (p : Pre) (s : BitVec 3) (d a : BitVec 5) (e : BitVec 3)
  | vlogiClz (p : Pre) (s : BitVec 3) (d a : BitVec 5) (e : BitVec 3)
  | vmuliLo (p : Pre) (s : BitVec 3) (d a b : BitVec 5) (e : BitVec 3)
  | vmuliHi (p : Pre) (s : BitVec 3) (d a b : BitVec 5) (e : BitVec 3)
  | vmuliMac (p : Pre) (s : BitVec 3) (d a b : BitVec 5) (e : BitVec 3)
  | vmuliMsb (p : Pre) (s : BitVec 3) (d a b : BitVec 5) (e : BitVec 3)
  | vcmpiEq (p : Pre) (s : BitVec 3) (d a b : BitVec 5) (e : BitVec 3)
  | vcmpiNe (p : Pre) (s : BitVec 3) (d a b : BitVec 5) (e : BitVec 3)
  | vcmpiLt (p : Pre) (s : BitVec 3) (d a b : BitVec 5) (e : BitVec 3)
  | vcmpiLe (p : Pre) (s : BitVec 3) (d a b : BitVec 5) (e : BitVec 3)
  | vcmpiGt (p : Pre) (s : BitVec 3) (d a b : BitVec 5) (e : BitVec 3)
  | vcmpiGe (p : Pre) (s : BitVec 3) (d a b : BitVec 5) (e : BitVec 3)
  | vaddfAdd (p : Pre) (s : BitVec 3) (d a b : BitVec 5) (e : BitVec 3)
  | vaddfSub (p : Pre) (s : BitVec 3) (d a b : BitVec 5) (e : BitVec 3)
  | vaddfMin (p : Pre) (s : BitVec 3) (d a b : BitVec 5) (e : BitVec 3)
  | vaddfMax (p : Pre) (s : BitVec 3) (d a b : BitVec 5) (e : BitVec 3)
  | vmulfMul (p : Pre) (s : BitVec 3) (d a b : BitVec 5) (e : BitVec 3)
  | vmulfFma (p : Pre) (s : BitVec 3) (d a b : BitVec 5) (e : BitVec 3)
  | vmulfFms (p : Pre) (s : BitVec 3) (d a b : BitVec 5) (e : BitVec 3)
  | vcmpfEq (p : Pre) (s : BitVec 3) (d a b : BitVec 5) (e : BitVec 3)
  | vcmpfNe (p : Pre) (s : BitVec 3) (d a b : BitVec 5) (e : BitVec 3)
  | vcmpfLt (p : Pre) (s : BitVec 3) (d a b : BitVec 5) (e : BitVec 3)
  | vcmpfLe (p : Pre) (s : BitVec 3) (d a b : BitVec 5) (e : BitVec 3)
  | vcmpfGt (p : Pre) (s : BitVec 3) (d a b : BitVec 5) (e : BitVec 3)
  | vcmpfGe (p : Pre) (s : BitVec 3) (d a b : BitVec 5) (e : BitVec 3)
  | vcmpfUn (p : Pre) (s : BitVec 3) (d a b : BitVec 5) (e : BitVec 3)
  | vdot (p : Pre) (s : BitVec 3) (d a b : BitVec 5) (e : BitVec 3)
  | vdotAcc (p : Pre) (s : BitVec 3) (d a b : BitVec 5) (e : BitVec 3)
  | vdotI8 (p : Pre) (s : BitVec 3) (d a b : BitVec 5)
  | vdotAccI8 (p : Pre) (s : BitVec 3) (d a b : BitVec 5)
  | vdotI4 (p : Pre) (s : BitVec 3) (d a b : BitVec 5)
  | vdotAccI4 (p : Pre) (s : BitVec 3) (d a b : BitVec 5)
  | vcvt (p : Pre) (s : BitVec 3) (d a : BitVec 5) (x y : BitVec 1) (t e : BitVec 3) (i : BitVec 1) (m : BitVec 2)
  | vsfuRcp (p : Pre) (s : BitVec 3) (d a : BitVec 5) (e : BitVec 3)
  | vsfuRsqrt (p : Pre) (s : BitVec 3) (d a : BitVec 5) (e : BitVec 3)
  | vsfuSqrt (p : Pre) (s : BitVec 3) (d a : BitVec 5) (e : BitVec 3)
  | vsfuExp2 (p : Pre) (s : BitVec 3) (d a : BitVec 5) (e : BitVec 3)
  | vsfuLog2 (p : Pre) (s : BitVec 3) (d a : BitVec 5) (e : BitVec 3)
  | vsfuExp (p : Pre) (s : BitVec 3) (d a : BitVec 5) (e : BitVec 3)
  | vsfuLn (p : Pre) (s : BitVec 3) (d a : BitVec 5) (e : BitVec 3)
  | vsfuSinpi (p : Pre) (s : BitVec 3) (d a : BitVec 5) (e : BitVec 3)
  | vsfuCospi (p : Pre) (s : BitVec 3) (d a : BitVec 5) (e : BitVec 3)
  | vsfuTanh (p : Pre) (s : BitVec 3) (d a : BitVec 5) (e : BitVec 3)
  | vsfuSigm (p : Pre) (s : BitVec 3) (d a : BitVec 5) (e : BitVec 3)
  | vsfuSilu (p : Pre) (s : BitVec 3) (d a : BitVec 5) (e : BitVec 3)
  | vredSum (p : Pre) (s : BitVec 3) (d a : BitVec 5) (e : BitVec 3)
  | vredMax (p : Pre) (s : BitVec 3) (d a : BitVec 5) (e : BitVec 3)
  | vredMin (p : Pre) (s : BitVec 3) (d a : BitVec 5) (e : BitVec 3)
  | vredSumi (p : Pre) (s : BitVec 3) (d a : BitVec 5) (t : BitVec 3)
  | vredMaxi (p : Pre) (s : BitVec 3) (d a : BitVec 5) (t : BitVec 3)
  | vredMini (p : Pre) (s : BitVec 3) (d a : BitVec 5) (t : BitVec 3)
  | vredAndi (p : Pre) (s : BitVec 3) (d a : BitVec 5) (t : BitVec 3)
  | vredOri (p : Pre) (s : BitVec 3) (d a : BitVec 5) (t : BitVec 3)
  | vredXori (p : Pre) (s : BitVec 3) (d a : BitVec 5) (t : BitVec 3)
  | vpermTbl (p : Pre) (s : BitVec 3) (d a b : BitVec 5) (e : BitVec 3)
  | vpermTbl2 (p : Pre) (s : BitVec 3) (d a b : BitVec 5) (e : BitVec 3)
  | vpermBcast (p : Pre) (s : BitVec 3) (d a c : BitVec 5) (e : BitVec 3)
  | vpermSlup (p : Pre) (s : BitVec 3) (d a c : BitVec 5) (e : BitVec 3)
  | vpermSldn (p : Pre) (s : BitVec 3) (d a c : BitVec 5) (e : BitVec 3)
  | vpermZiplo (p : Pre) (s : BitVec 3) (d a b : BitVec 5) (e : BitVec 3)
  | vpermZiphi (p : Pre) (s : BitVec 3) (d a b : BitVec 5) (e : BitVec 3)
  | vpermUnze (p : Pre) (s : BitVec 3) (d a b : BitVec 5) (e : BitVec 3)
  | vpermUnzo (p : Pre) (s : BitVec 3) (d a b : BitVec 5) (e : BitVec 3)
  | vpermRev (p : Pre) (s : BitVec 3) (d a : BitVec 5) (e : BitVec 3)
  | vpermCmpr (p : Pre) (s : BitVec 3) (d a : BitVec 5) (e : BitVec 3)
  | vmov (p : Pre) (s : BitVec 3) (d a : BitVec 5) (e : BitVec 3)
  | vmovBcg (p : Pre) (s : BitVec 3) (d a : BitVec 5) (e : BitVec 3)
  | vmovInsg (p : Pre) (s : BitVec 3) (d a c : BitVec 5) (e : BitVec 3)
  | vmovExtg (p : Pre) (s : BitVec 3) (d a c : BitVec 5) (e : BitVec 3)
  | vmovGetv (p : Pre) (s : BitVec 3) (d a : BitVec 5) (e : BitVec 3)
  | vmovSetv (p : Pre) (s : BitVec 3) (d a : BitVec 5) (e : BitVec 3)
  | kmaskAnd (s : BitVec 3) (d a b : BitVec 5)
  | kmaskOr (s : BitVec 3) (d a b : BitVec 5)
  | kmaskXor (s : BitVec 3) (d a b : BitVec 5)
  | kmaskAndn (s : BitVec 3) (d a b : BitVec 5)
  | kmaskNot (s : BitVec 3) (d a : BitVec 5)
  | kmaskFromg (s : BitVec 3) (d a : BitVec 5) (p : BitVec 3)
  | kmaskTog (s : BitVec 3) (d a : BitVec 5) (p : BitVec 3)
  | kmaskPopc (s : BitVec 3) (d a : BitVec 5) (e : BitVec 3)
  | kmaskFirst (s : BitVec 3) (d a : BitVec 5) (e : BitVec 3)
  | kmaskFill (s : BitVec 3) (d a : BitVec 5) (e : BitVec 3)
  | kmaskMov (s : BitVec 3) (d a : BitVec 5)
  | vmodeShort (s : BitVec 3)
  | vmodeLong (s : BitVec 3)
  | vqnt (p : Pre) (s : BitVec 3) (d a : BitVec 5) (e : BitVec 3) (g : BitVec 2)
  | vld (p : Pre) (s : BitVec 3) (t a : BitVec 5) (z : BitVec 3) (m : BitVec 2) (o : BitVec 7)
  | vst (p : Pre) (s : BitVec 3) (t a : BitVec 5) (z : BitVec 3) (m : BitVec 2) (o : BitVec 7)
  | vldx (s : BitVec 3) (d a b : BitVec 5) (k : BitVec 3) (c : BitVec 2) (g w : BitVec 1)
  | vstx (s : BitVec 3) (d a b : BitVec 5) (k : BitVec 3) (c : BitVec 2) (g w : BitVec 1)
  | ldt (s : BitVec 3) (t a : BitVec 5) (z : BitVec 3) (o : BitVec 7)
  | acc (s : BitVec 3) (t a : BitVec 5) (z : BitVec 2) (o : BitVec 7)
  | accVec (s : BitVec 3) (t a : BitVec 5) (z : BitVec 2) (o : BitVec 7)
  | amoAdd (s : BitVec 3) (d a b : BitVec 5) (w : BitVec 1)
  | amoMin (s : BitVec 3) (d a b : BitVec 5) (w : BitVec 1)
  | amoMax (s : BitVec 3) (d a b : BitVec 5) (w : BitVec 1)
  | amoMinn (s : BitVec 3) (d a b : BitVec 5) (w : BitVec 1)
  | amoMaxn (s : BitVec 3) (d a b : BitVec 5) (w : BitVec 1)
  | amoAnd (s : BitVec 3) (d a b : BitVec 5) (w : BitVec 1)
  | amoOr (s : BitVec 3) (d a b : BitVec 5) (w : BitVec 1)
  | amoXor (s : BitVec 3) (d a b : BitVec 5) (w : BitVec 1)
  | amoSwap (s : BitVec 3) (d a b : BitVec 5) (w : BitVec 1)
  | amoCas (s : BitVec 3) (d a b : BitVec 5) (w : BitVec 1)
  | amoFadd (s : BitVec 3) (d a b : BitVec 5)
  | amoFmin (s : BitVec 3) (d a b : BitVec 5)
  | amsg (s : BitVec 3) (d a b : BitVec 5) (c : BitVec 3)
  | fence (s : BitVec 3)
  | fenceDrain (s c : BitVec 3)
  | fenceEng (s : BitVec 3)
  | hintL1 (s : BitVec 3) (a : BitVec 5) (o : BitVec 7)
  | hintClu (s : BitVec 3) (a : BitVec 5) (o : BitVec 7)
  | hintMsc (s : BitVec 3) (a : BitVec 5) (o : BitVec 7)
  | hintCrate (s : BitVec 3) (a : BitVec 5) (o : BitVec 7)
  | hintLast (s : BitVec 3) (a : BitVec 5) (o : BitVec 7)
  | hintCnt (s : BitVec 3) (t : BitVec 5)
  | rangeDecl (s : BitVec 3) (d a : BitVec 5)
  | rangeBound (s : BitVec 3) (a b : BitVec 5)
  | rangeDrain (s : BitVec 3) (a : BitVec 5)
  | rangeFree (s : BitVec 3) (a : BitVec 5)
  | xferCopy (s : BitVec 3) (d a b : BitVec 5)
  | xferGather (s : BitVec 3) (d a b : BitVec 5)
  | xferScatter (s : BitVec 3) (d a b : BitVec 5)
  | xferFill (s : BitVec 3) (d a b : BitVec 5)
  | xferQcopy (s : BitVec 3) (d a b : BitVec 5)
  | xferRgather (s : BitVec 3) (d a b : BitVec 5)
  | xwaitOne (s : BitVec 3) (a b : BitVec 5)
  | xwaitAll (s : BitVec 3) (b : BitVec 5)
  | xwaitTest (s : BitVec 3) (d a b : BitVec 5)
  | pageInvp (s : BitVec 3) (d a b : BitVec 5)
  | pageInvk (s : BitVec 3) (d b : BitVec 5)
  | pageInva (s : BitVec 3) (d : BitVec 5)
  | pageBias (s : BitVec 3) (d a b : BitVec 5)
  | pageResume (s : BitVec 3) (d a b : BitVec 5)
  | pageKret (s : BitVec 3) (d b : BitVec 5)
  | mlseAcq (s : BitVec 3)
  | mlseTry (s : BitVec 3) (d : BitVec 5)
  | mlseRel (s : BitVec 3)
  | mlseJoin (s : BitVec 3) (d a : BitVec 5)
  | tdefSet (s : BitVec 3) (d a b : BitVec 5)
  | tdefGet (s : BitVec 3) (a b : BitVec 5)
  | tdefClr (s : BitVec 3) (b : BitVec 5)
  | mmaNew (s : BitVec 3) (a : BitVec 5) (p : BitVec 1)
  | mmaAcc (s : BitVec 3) (a : BitVec 5) (p : BitVec 1)
  | mmaqNew (s : BitVec 3) (a : BitVec 5) (p : BitVec 1)
  | mmaqAcc (s : BitVec 3) (a : BitVec 5) (p : BitVec 1)
  | maccSt (s : BitVec 3) (a : BitVec 5) (x p : BitVec 1)
  | maccDrain (s : BitVec 3) (a : BitVec 5) (x p : BitVec 1)
  | mgangForm (s : BitVec 3) (d a : BitVec 5)
  | mgangDiss (s : BitVec 3) (d : BitVec 5)
  | mstat (s : BitVec 3) (d : BitVec 5)
  | mstatWait (s : BitVec 3) (d : BitVec 5)
  | xexp (s : BitVec 3) (a : BitVec 5) (n : BitVec 1) (f : BitVec 2) (p : BitVec 1)
  | mbar (s : BitVec 3)
  | mhndSet (s : BitVec 3) (a b : BitVec 5)
  | mhndClr (s : BitVec 3)
  | mcfgGet (s : BitVec 3) (d : BitVec 5)
  | mcfgRun (s : BitVec 3) (d a : BitVec 5)
  | ctxNew (s : BitVec 3) (d a : BitVec 5)
  | ctxFork (s : BitVec 3) (d a : BitVec 5)
  | ctxFree (s : BitVec 3) (a : BitVec 5)
  | ctxInfo (s : BitVec 3) (d a : BitVec 5)
  | editIns (s : BitVec 3) (d a b : BitVec 5)
  | editDel (s : BitVec 3) (d a : BitVec 5)
  | editRep (s : BitVec 3) (d a b : BitVec 5)
  | walk (s : BitVec 3) (d a : BitVec 5)
  | dmapGet (s : BitVec 3) (d a : BitVec 5)
  | dmapThr (s : BitVec 3) (a b : BitVec 5)
  | dmapCnt (s : BitVec 3) (d a : BitVec 5)
  | settle (s : BitVec 3) (a b : BitVec 5)
  | settleTry (s : BitVec 3) (d a b : BitVec 5)
  | vldwSnap (s : BitVec 3) (d a b : BitVec 5) (y : BitVec 1)
  | vldwCur (s : BitVec 3) (d a b : BitVec 5) (y : BitVec 1)
  | vldwSettled (s : BitVec 3) (d a b : BitVec 5) (y : BitVec 1)
  | vstw (s : BitVec 3) (d a : BitVec 5) (y : BitVec 1)
  | waveBind (s : BitVec 3) (d a b : BitVec 5)
  | waveNext (s : BitVec 3) (d a b : BitVec 5)
  | delta (s : BitVec 3) (d : BitVec 5)
  | kvapPool (s : BitVec 3) (d a b : BitVec 5)
  | kvapApp (s : BitVec 3) (d a b : BitVec 5)
  | send (s : BitVec 3) (d a b : BitVec 5) (c : BitVec 4)
  | sendB (s : BitVec 3) (d a b : BitVec 5) (c : BitVec 4)
  | hop (s : BitVec 3) (a b : BitVec 5)
  | fork (s : BitVec 3) (d a b : BitVec 5) (x : BitVec 3) (c : BitVec 4)
  | join (s : BitVec 3) (d a b : BitVec 5)
  | task (s : BitVec 3) (d a b : BitVec 5) (c : BitVec 4)
  | wait (s : BitVec 3) (d a : BitVec 5)
  | barInit (s : BitVec 3) (d a b : BitVec 5)
  | barArr (s : BitVec 3) (d a : BitVec 5)
  | barWait (s : BitVec 3) (d a b : BitVec 5)
  | barSync (s : BitVec 3) (d a : BitVec 5)
  | launch (s : BitVec 3) (d a b : BitVec 5) (c : BitVec 4)
  | launchAt (s : BitVec 3) (d a b : BitVec 5) (c : BitVec 4)
  | steal (s : BitVec 3) (d a : BitVec 5)
  | rsrvPin (s : BitVec 3) (d a b : BitVec 5)
  | rsrvUnpin (s : BitVec 3) (d a b : BitVec 5)
  | rsrvPut (s : BitVec 3) (d a b : BitVec 5) (c : BitVec 4)
  | ordqVt (s : BitVec 3) (d : BitVec 5)
  | ordqLen (s : BitVec 3) (d : BitVec 5)
  | ordqHead (s : BitVec 3) (d : BitVec 5)
  | ordqSpec (s : BitVec 3) (d : BitVec 5)
  | ordqRset (s : BitVec 3) (d : BitVec 5)
  | pri (s : BitVec 3) (d a : BitVec 5)
  | hostInboxWrite (die off : Nat) (data : List Byte)
  | inboxScanDelivery (die : Nat)
  | activationStart (core : Nat)
  | resultArrival (site : Nat)
  | longSlotGrant (quad : Nat)
  | preEmptionRequest (core : Nat)
  | preEmptionHalt (site : Nat)
  | imageComplete (site : Nat)
  | imageRestore (site : Nat)
  | monitorRecheck (site : Nat)
  | coarseRecheck (site : Nat)
  | waitTimeout (site : Nat)
  | gvtPublication
  | versionCommit (die bid layer part : Nat)
  | taskAbort (site : Nat)
  | wavetaskDispatch (die : Nat)
  | admissionTokenGrant (cluster : Nat)
  | timedLaunchDelivery
  | arrayStartGrant (die : Nat)
  | alarmRaise (die : Nat)
  | alarmClear (die : Nat)
  | reduceMessage (core : Nat)
  | amoExecute (core : Nat)
  | linkMessageArrival (words : List Word)
  | portDown (port : Nat) (lost : List Nat)
  | hostMemRequest (write poison : Bool) (dpa : Nat) (data : List Byte)
  | extentRelease (first count : Nat)
  | extentReleaseTimeout (first count : Nat) (lost : List Nat)
  | writeBack (line : Nat)
  | forwardedRequest (line core : Nat) (write : Bool)
  | leaseRenewal (line core : Nat)
  | reservationGrant (line : Nat)
  | rangeJoinMessage (line core : Nat)
  | drainArrival (line core : Nat)
  | budgetMessage (line core : Nat)
  | budgetAck (line core : Nat)
  | forcedDrainRequest (line core : Nat)
  | drainAck (line core : Nat)
  | pantrySwitchEnd (cluster shelf : Nat)
  | trackingPeriodEnd (die : Nat)
  | crateMoveComplete (crate : Nat)
  | transferCompletion (id : Nat)
  | faultWindowClose (die : Nat)
  | faultListReadyClear (die : Nat)
  | kgroupComplete (cluster : Nat)
  | matrixCommandComplete (cluster : Nat)
  | rowStage (cluster : Nat)
  | rowCommit (cluster : Nat)
  | leaseHandoff (cluster : Nat)
  | stopGo (die : Nat) (value : Word)
  | stopResume (die : Nat)
  | stopLanded (die : Nat)
  | stoplimExpiry (die : Nat)
  | checkpoint
  | endrec
  | replay
  | abort
  | kernelInstanceEnd (index : Nat)
  | publishGo (die : Nat)
  | publishComplete (die : Nat)
  | keyLoad (die : Nat) (value : Word)
  | attestation (die : Nat)
  | warmReset
  | coldReset
  | telemetryRecord (die : Nat)
  | registerWrite (die off : Nat) (value : Word)
  | illegalOpcode (cause : Byte) (value : Word)
  | stallCountSpent (site : Nat)
  deriving DecidableEq, Repr

end Sys2Proof
end

