-- ==== Sys2Proof/Machine/State.lean ====
section
/-! DEFINITION. The state of one package, as plain data, and its reset. The default of a field is its reset value; where the spec gives
none the value is a DESIGN CHOICE named in the log (entries 1 to 6). -/
namespace Sys2Proof.Machine
open Sys2Proof

/-! ## Messages (01_device, R14 to R18) -/

/-- The kinds of activation (R15). -/
inductive Kind where
  | host
  | send
  | hop
  | fork
  | task
  | xdone
  | rowdrain
  | wavetask
  | amo
  | amsg
  | launch
  | reduce
  deriving DecidableEq, Repr

/-- The KIND code (R15). -/
def Kind.num : Kind → Nat
  | .host => 0
  | .send => 1
  | .hop => 2
  | .fork => 3
  | .task => 4
  | .xdone => 5
  | .rowdrain => 6
  | .wavetask => 7
  | .amo => 8
  | .amsg => 9
  | .launch => 10
  | .reduce => 11

/-- What a service request is about and whom its reply goes to (R203, R204): the requester's site, the request's token (0 when no reply
is awaited), the location, the operation (0 to 11 as AMO's fn) and its width, and the operands. -/
structure Request where
  asker : Nat
  token : Nat
  key : Nat
  op : Nat := 0
  wide : Bool := true
  operand : Word := 0#64
  compare : Word := 0#64
  deriving DecidableEq, Repr

/-- An activation message (R14), with the tick at which it entered its inbox, deque or queue (R125). -/
structure Msg where
  dst : Nat
  src : Nat
  srcPkg : Nat := 0
  dstPkg : Nat := 0
  cls : Nat := 0
  kind : Kind := .send
  tag : BitVec 16 := 0#16
  entry : Word := 0#64
  sendTick : Nat := 0
  key : Nat := 0
  ord : Nat := 0
  payload : List Word := []
  arr : Nat := 0
  /-- AMO and AMSG only: the request the message carries. -/
  req : Option Request := none
  /-- ROWDRAIN only: the matrix command and its segment (R253). -/
  seg : Option (Nat × Nat) := none
  /-- The kernel instance it belongs to, and those that other sums in it belong to (R384). -/
  inst : Option Nat := none
  also : List Nat := []
  /-- A breakpoint has matched it and it is held unstarted (R377). -/
  hit : Bool := false
  /-- LAUNCH only: the tick at which it is delivered at its destination die (R351). -/
  at' : Option Nat := none
  deriving DecidableEq, Repr

/-! ## Contexts (05_core_model) -/

/-- Context states (R81). -/
inductive CtxSt where
  | dormant
  | ready
  | stalled
  | waiting
  | saving
  deriving DecidableEq, Repr

/-- Register files (R86), in the order of R33's file codes. -/
inductive File where
  | g
  | v
  | w
  | k
  deriving DecidableEq, Repr

/-- A result that is not readable before cycle `ready`, with the register's value before it (R32, R33). -/
structure Pend where
  file : File
  num : Nat
  old : BitVec 4096
  ready : Nat
  /-- The scoreboard tracks it: a consumer waits for it (R32). -/
  tracked : Bool := false
  deriving DecidableEq, Repr

/-- FRMCTL (R89). -/
structure Frame where
  act : Bool := false
  wrap : Bool := false
  sb : BitVec 4 := 0#4
  sa : BitVec 4 := 0#4
  sd : BitVec 4 := 0#4
  len : BitVec 4 := 0#4
  pidx : BitVec 5 := 0#5
  uidx : BitVec 4 := 0#4
  left : BitVec 32 := 0#32
  deriving DecidableEq, Repr

/-- A wait in progress (WAITST, R100): the issue cycle and tick, the request it awaits, how far it has come, and the time-out's tick. -/
structure Wait where
  cycle : Nat
  tick : Nat
  token : Nat := 0
  stage : Nat := 0
  deadline : Option Nat := none
  data : List Nat := []
  /-- The page the access is parked on: (key, page, die, access kind) (R393). -/
  parked : Option (Nat × Nat) := none
  /-- The die of the walker that has parked for the unit (R283); none when the access is the context's own. -/
  walker : Option Nat := none
  /-- The node that the walker has reached; what it resolves then stands in `data` (R283, R310). -/
  node : Option Nat := none
  /-- The address that parked it, and what PAGE.RESUME declared of it (R219): 1 INVALID, 2 DENY. -/
  pval : Word := 0#64
  verdict : Nat := 0
  /-- A halt leaves the progress of the wait in place (R157, R211, R99); other waits start again at resumption (R101). -/
  kept : Bool := false
  /-- The unit is STALLED, not WAITING: it waits inside the core for a source or for the core's drains (R32, R81, R224). -/
  short : Bool := false
  /-- The unit is a DONE: it completes whatever is requested meanwhile (R102). -/
  ending : Bool := false
  /-- The context handles that the unit waits on, and one of them that CTX.FREE has freed meanwhile (R317). -/
  watch : List Nat := []
  gone : Option Nat := none
  /-- The domain and the ordinal of a TASK that a speculative task holds (R328). -/
  holds : Option (Nat × Nat) := none
  /-- A wait on conditions (R331): those of its conditions that events re-check and its last check found true, as a mask; the check could not read every
  line yet; the tick of its next check in coarse mode. -/
  mask : Nat := 0
  again : Bool := false
  coarseAt : Nat := 0
  /-- The cycle in which the unit read its sources, and the counter of free values then: it reads them once (R33). -/
  reads : Option (Nat × Nat) := none
  deriving DecidableEq, Repr

/-- A reply that has arrived under the scoreboard (R32): the request's token, its status (0 good, else an engine code) and its value. -/
structure Reply where
  token : Nat
  status : Nat
  value : Word
  deriving DecidableEq, Repr

/-- The starting message's data that ACTQ, the records and the image keep (R100, R125, R372). -/
structure Act where
  entry : Word := 0#64
  kind : Kind := .host
  count : Nat := 0
  sendTick : Nat := 0
  arr : Nat := 0
  start : Nat := 0
  cls : Nat := 0
  key : Nat := 0
  /-- The activation's own number: the model's name for it. -/
  serial : Nat := 0
  msg : Option Msg := none
  deriving DecidableEq, Repr

/-- A row-handler binding (R272). -/
structure RowH where
  entry : Word
  shelf : Nat
  area : Nat
  deriving DecidableEq, Repr

/-- A slot of versioned state (R286). -/
structure Slot where
  die : Nat
  bid : Nat
  layer : Nat
  part : Nat
  deriving DecidableEq, Repr

/-- An error that a transfer or a matrix command keeps for its issuer (R216, R251). -/
structure Err where
  ticket : Nat
  code : Nat
  addr : Word
  deriving DecidableEq, Repr

/-- A held image (R100, R101): what of a halted activation is not in the save area of its shelf. -/
structure Img where
  act : Act
  ord : BitVec 48
  pri : BitVec 2
  wait : Option Wait := none
  replies : List Reply := []
  reads : List (Slot × Nat) := []
  delta : Option Ex := none
  xerrs : List Err := []
  merrs : List Err := []
  half : Bool := false
  units : Nat := 0
  aborting : Bool := false
  /-- The frame of FRMCTL is suspended (R94), and was when the trap was taken. -/
  susp : Bool := false
  trapFrm : Bool := false
  /-- TREEP and TREEN, which the layout of R100 has no place for (R87). -/
  treep : Word := 0#64
  treen : BitVec 10 := 1#10
  /-- The image is complete (R100). -/
  complete : Bool := false
  /-- Halted by a stop: not selected before RESUME, and IADDR does not match the first unit issued after it (R379). -/
  stopHeld : Bool := false
  skipBp : Bool := false
  /-- The address of the BRK at which it was halted (R379). -/
  brk : Option (BitVec 56) := none
  deriving DecidableEq, Repr

/-- One hardware context (R86, R87). -/
structure Ctx where
  st : CtxSt := .dormant
  pc : BitVec 56 := 0#56
  g : SMap Word := []
  v : SMap (BitVec 256) := []
  w : SMap (BitVec 4096) := []
  k : SMap (BitVec 512) := []
  tag : BitVec 16 := 0#16
  src : BitVec 22 := 0#22
  ord : BitVec 48 := 0#48
  trapvec : Word := 0#64
  inh : Bool := false
  cause : Byte := 0#8
  trappc : Word := 0#64
  trapval : Word := 0#64
  trapsave : Word := 0#64
  fpflags : Flags := 0#5
  chksb : Bool := false
  long : Bool := false
  slot : BitVec 2 := 0#2
  frm : Frame := {}
  frmbase : Word := 0#64
  /-- The sequencer buffer: the captured units; empty when none is captured (R94). -/
  buf : List Instr := []
  /-- A trap handler runs: the frame of FRMCTL is suspended until ERET, or until the handler's own RPT (R94). -/
  susp : Bool := false
  /-- A trap in a frame has suspended it, whatever frames the handler has run since (R94). -/
  trapFrm : Bool := false
  treep : Word := 0#64
  treen : BitVec 10 := 1#10
  mkid : BitVec 10 := 0#10
  ask : BitVec 10 := 0#10
  pri : BitVec 2 := 0#2
  act : Act := {}
  units : Nat := 0
  hintDrops : BitVec 32 := 0#32
  rowh : Option RowH := none
  /-- The image of a halted activation that the context holds (R101). -/
  img : Option Img := none
  /-- IADDR does not match the first unit issued after resumption (R379). -/
  skipBp : Bool := false
  /-- A pre-emption request names the context (R98). -/
  victim : Bool := false
  /-- A conflict has struck the task: it is halted and discarded at the next boundary (R330). -/
  aborting : Bool := false
  /-- Halted by a stop while its save area holds another image: it stays in the context until RESUME (log entry 1). -/
  inPlace : Bool := false
  /-- It was WAITING in a stopped domain when its condition came true: it does not issue before the resume (R378). -/
  frozen : Bool := false
  /-- The unit in progress while the context waits: it has been fetched and is not fetched again (R81, R153). -/
  cur : Option Instr := none
  /-- STALLED until this cycle (R31). -/
  readyAt : Nat := 0
  pend : List Pend := []
  wait : Option Wait := none
  replies : List Reply := []
  /-- Lines of the monitor-table entries (R331). -/
  mons : List Nat := []
  /-- The read set of a speculative task: the slot and the ordinal of the version read (R330). -/
  reads : List (Slot × Nat) := []
  /-- δ of the last DELTA (R294). -/
  delta : Option Ex := none
  /-- Transfers issued since reset (R216). -/
  xcount : BitVec 60 := 0#60
  xerrs : List Err := []
  merrs : List Err := []
  /-- MSTAT's HALF (R257). -/
  half : Bool := false
  deriving DecidableEq, Repr

/-- A context at reset. -/
def Ctx.reset : Ctx := {}

/-! ## Cores, clusters -/

/-- A deque entry (R326). -/
structure DequeEntry where
  msg : Msg
  home : Nat
  dom : Nat
  deriving DecidableEq, Repr

/-- The last take from a deque (R327): its cycle, the entry, the thief's core (none: the owner's pop), and whether that thief's attempt before had
failed by coincidence. -/
structure Take where
  cycle : Nat
  entry : DequeEntry
  thief : Option Nat := none
  lost : Bool := false
  deriving DecidableEq, Repr

/-- An ordered task that is queued, or has completed and may still abort (R328, R330). -/
structure OrdTask where
  msg : Msg
  done : Bool := false
  reads : List (Slot × Nat) := []
  serial : Nat := 0
  deriving DecidableEq, Repr

/-- A pinned reduction server (R335, R336). -/
structure Server where
  site : Nat
  treep : Word
  fmt : Nat
  n : Nat
  sum : List Word := []
  got : Nat := 0
  cls : Nat := 0
  key : Nat := 0
  mkid : Nat := 0
  /-- The kernel instances of the round's messages (R384). -/
  insts : List Nat := []
  deriving DecidableEq, Repr

/-- A partial line of a commutative range (R187): the elements, the tracker, the budget and the newest budget message's number. -/
structure Partial where
  elems : List Word
  track : Word
  budget : Word
  bseq : Nat := 0
  deriving DecidableEq, Repr

/-- One core. -/
structure Core where
  depth : BitVec 2 := 0#2
  service : Bool := true
  npbase : BitVec 40 := 0#40
  nplen : BitVec 8 := 0#8
  tracectl : Word := 0#64
  traced : Nat := 0
  /-- Context inboxes, by 4 × context + class (R82). -/
  inbox : SMap (List Msg) := []
  /-- Newest entry first (R326). -/
  deque : List DequeEntry := []
  /-- The last take from the deque, and the cores whose last attempt on it failed by coincidence (R327). -/
  taken : Option Take := none
  losers : List Nat := []
  /-- The cycles of the core's last two turns. -/
  turnAt : Nat := 0
  turnBefore : Nat := 0
  ordq : List OrdTask := []
  server : Option Server := none
  /-- Partial lines, by line (R187). -/
  parts : SMap (Option Partial) := []
  /-- Voluntary drains not yet acknowledged (R224). -/
  unacked : Nat := 0
  /-- The context last served and the units it issued in a row (R80). -/
  last : Nat := 3
  run : Nat := 0
  deriving DecidableEq, Repr

/-- A shelf's mode register (R172): MODE, the mode a switch in progress goes to. -/
inductive ShelfMode where
  | scratch
  | cache
  | fifo
  deriving DecidableEq, Repr
structure Shelf where
  mode : ShelfMode := .cache
  target : Option ShelfMode := none
  deriving DecidableEq, Repr

/-- A pair of contexts that compete for the array together (R239, R244). -/
structure Pair where
  primary : Nat
  partner : Option Nat := none
  phase : Nat := 0
  /-- Which groups have arrived at the current phase (R246). -/
  arrived0 : Bool := false
  arrived1 : Bool := false
  /-- Gang shape code and the member clusters, base first (R247); none without a gang. -/
  gang : Option (Nat × List Nat) := none
  /-- PROG of the oldest incomplete MMA, or where an error stopped the last one (R251). -/
  prog : Nat := 0
  deriving DecidableEq, Repr

/-- A tensor identifier's entry: the eight words of R261. -/
abbrev TensorEntry := List Word

/-- The operation of a matrix command (R268 to R273). -/
inductive MOp where
  | mma (fresh quant : Bool)
  | macc (sat staged : Bool)
  | xexp (fmt : Nat) (hasMax : Bool)
  deriving DecidableEq, Repr

/-- A staging slot in use (R253): its number, the row segment in it, and whether its handler runs (0), is done (1) or has failed (2). -/
structure RowSlot where
  slot : Nat
  seg : Nat
  st : Nat := 0
  deriving DecidableEq, Repr

/-- A member of a command that waits for an absent page (R251): its cluster, the page, and the address that parked it. -/
structure MPark where
  member : Nat
  key : Nat
  page : Nat
  val : Word
  deriving DecidableEq, Repr

/-- An accepted matrix command (R237, R250): the entries and operands it keeps, its destination lines, and its progress. -/
structure MCmd where
  id : Nat
  op : MOp
  plane : Nat
  site : Nat
  serial : Nat
  key : Nat
  mkid : Nat
  priv : Bool
  cls : Nat
  primary : Nat
  shape : Nat := 0
  members : List Nat
  tens : List TensorEntry
  args : List Nat
  lines : List Nat := []
  rowh : Option RowH := none
  started : Bool := false
  /-- Members whose arrays have had their start granted, and the cycle the start was asked for (R333). -/
  grants : List Nat := []
  asked : Option Nat := none
  /-- K-groups completed (R251). -/
  prog : Nat := 0
  /-- Segments staged, the staging slots in use, and the segments committed or failed (R253). -/
  staged : Nat := 0
  slots : List RowSlot := []
  donesegs : Nat := 0
  failed : Bool := false
  /-- Source bytes of lines that the command itself reserved, as they stood then. -/
  kept : List (Nat × Byte) := []
  /-- Members that have completed the K-group in progress while another has not, and members parked on absent pages (R251). -/
  ahead : List Nat := []
  parked : List MPark := []
  /-- How many rows of a store or an XEXP come before the one that found the absent page. -/
  stop : Nat := 0
  pval : Word := 0#64
  verdict : Nat := 0
  err : Option Err := none
  inst : Option Nat := none
  deriving DecidableEq, Repr

/-- One cluster. -/
structure Cluster where
  shelves : SMap Shelf := []
  /-- Long-vector slots, by 4 × quad + slot: the holder's site + 1 (R93). -/
  longSlots : SMap Nat := []
  /-- The class-0 admission token, and the tick at which the next one is due (R325). -/
  token : Bool := true
  tokenDue : Nat := 0
  tensors : SMap TensorEntry := []
  /-- Accumulator planes, by 65536 × plane + 256 × row + column: FP32 patterns (R238). -/
  planes : SMap (BitVec 32) := []
  tag0 : Option Nat := none
  tag1 : Option Nat := none
  cmds : List MCmd := []
  /-- Contexts with a claim, and the pairs they form (R239). -/
  pairs : List Pair := []
  /-- The primary of the pair that holds the lease. -/
  lease : Option Nat := none
  /-- No more commands are accepted from the pair: its run has ended (R240). -/
  runOver : Bool := false
  /-- The lease is released when the pair's commands have completed (R240, R242). -/
  releasing : Bool := false
  runCount : Nat := 0
  /-- LEASERUN as the current run found it (R267). -/
  runLimit : Nat := 16
  leaserun : BitVec 7 := 16#7
  /-- The site of the primary that held the lease last (R240): 0 before any has, which the spec does not give (DESIGN CHOICE, log entry 112). -/
  lastPrimary : Nat := 0
  /-- The array is running a command (R256). -/
  arrayBusy : Bool := false
  deriving DecidableEq, Repr

/-! ## Memory -/

/-- Where a crate is (R191); `initial` is the medium it has at reset. -/
inductive Medium where
  | initial
  | absent
  | hbm
  | cellar
  deriving DecidableEq, Repr

/-- A flip of a crate's bias that PAGE.BIAS has asked for (R195): its number, the asking site, the new bias. -/
structure Flip where
  num : Nat
  site : Nat
  host : Bool
  deriving DecidableEq, Repr

/-- A crate's entry of the indirection table, its tracking counter and a move in progress (R191 to R196). -/
structure Crate where
  medium : Medium := .initial
  /-- Its place in that medium, when firmware has given it one (R191). -/
  place : Nat := 0
  host : Bool := false
  moving : Option Medium := none
  released : Bool := false
  /-- Accesses in this tracking period, of which some reach the medium (R192), and those the cellar has served since a promotion was queued (R193). -/
  accesses : Nat := 0
  late : Nat := 0
  /-- Flips asked for, first first (R195). -/
  flips : List Flip := []
  deriving DecidableEq, Repr

/-- A publication that closes a line: its scope code and the sites it reaches: those of `site` by `scope`, or the clusters of a gang (R153). -/
structure Closure where
  scope : Nat
  site : Nat
  gang : List Nat := []
  deriving DecidableEq, Repr

/-- A line's queue of commands that reserve it (R183) and of AMSG handlers that hold it (R204), by their numbers, and whether the first has been
granted the line. -/
structure Resv where
  ids : List Nat := []
  granted : Bool := false
  deriving DecidableEq, Repr

/-- The coherence outline of a line (R181, R182). -/
structure Coh where
  holder : Option Nat := none
  wts : Nat := 0
  rts : Nat := 0
  deriving DecidableEq, Repr

/-- A leaf that some TLB may hold (R180): the key, the level of the leaf, the index of the page, and the entry. -/
structure Leaf where
  key : Nat
  level : Nat
  page : Nat
  entry : Word
  deriving DecidableEq, Repr

/-- The element formats of a commutative range (R209). -/
inductive RFmt where
  | f32
  | bf16
  | i32
  | i64
  deriving DecidableEq, Repr

/-- A declared range (R187, R209): its lines by global location, the format, the bound and the key. -/
structure Range where
  base : Word
  len : Nat
  fmt : RFmt
  bound : Word
  key : Nat
  mkid : Nat
  lines : List Nat
  /-- FREE's event has taken its place (R211). -/
  freeing : Bool := false
  deriving DecidableEq, Repr

/-- A drain on its way to a home (R188): the core, the elements, the tracker, whether it answers a forced request, and that request's number. -/
structure Drain where
  core : Nat
  elems : List Word
  track : Word
  forced : Bool
  empty : Bool
  ask : Nat := 0
  deriving DecidableEq, Repr

/-- Messages to a range line's home. -/
inductive UpMsg where
  | join (core : Nat)
  | drain (d : Drain)
  | ack (core seq : Nat)
  deriving DecidableEq, Repr

/-- Messages from a range line's home. -/
inductive DownMsg where
  | budget (core seq : Nat) (value : Word)
  | force (core ask : Nat)
  | drainAck (core : Nat)
  deriving DecidableEq, Repr

/-- A sharer of a range line: its core, the budget granted, the largest of the budgets that it may still hold, which counts, the newest message's number,
and the messages not acknowledged yet, oldest first, with their budgets (R189). -/
structure Sharer where
  core : Nat
  budget : Word
  counted : Word
  seq : Nat
  sent : List (Nat × Word) := []
  deriving DecidableEq, Repr

/-- A forcing sequence (R190): who asked for it (a site, or 4096 + a command's number), the sharers still to drain, of whom the first has
been asked, and the tolerance. It has ended when none is left; the load is then served. -/
structure Forcing where
  owner : Nat
  /-- The cycle in which the owner, a context, issued its access. -/
  since : Nat := 0
  todo : List Nat
  /-- The tolerance; none when every sharer is forced. -/
  eps : Option Ex
  /-- The number of the request that the first of `todo` has been sent. -/
  ask : Nat := 0
  deriving DecidableEq, Repr

/-- The home of one line of a range (R189). -/
structure RLine where
  sharers : List Sharer := []
  seq : Nat := 0
  /-- Budget decreases that have been sent and are not acknowledged, each by its core and number (R232); and the forced requests sent so far. -/
  decs : List (Nat × Nat) := []
  asks : Nat := 0
  forcing : Option Forcing := none
  /-- Loads that found O > ε and wait for the acknowledgement of every decrease (R232): the owner and the cycle of the issue. -/
  judging : List (Nat × Nat) := []
  /-- FP32 shadows of a BF16 line's elements (R189). -/
  shadow : List (BitVec 32) := []
  up : List UpMsg := []
  down : List DownMsg := []
  deriving DecidableEq, Repr

/-- A transfer command (R212, R216). -/
structure XCmd where
  id : Nat
  op : Nat
  site : Nat
  serial : Nat
  slot : Nat
  ticket : Nat
  key : Nat
  mkid : Nat
  priv : Bool
  cls : Nat
  td : TensorEntry
  ts : TensorEntry
  ti : TensorEntry
  tout : TensorEntry
  x : Nat
  y : Word
  p : BitVec 32
  n : Nat
  handler : Word
  /-- Indices that a SCATTER read before its issue (R216). -/
  idx : List Nat
  lines : List Nat
  /-- Source bytes of lines that the command itself reserved, as they stood then (R216). -/
  kept : List (Nat × Byte) := []
  parked : Option (Nat × Nat) := none
  /-- How many rows come before the one that found the absent page. -/
  stop : Nat := 0
  pval : Word := 0#64
  verdict : Nat := 0
  err : Option Err := none
  inst : Option Nat := none
  deriving DecidableEq, Repr

/-! ## Model contexts (17_context_engine) -/

/-- A context record (R281). -/
structure Rec where
  bsz : Nat
  layers : Nat
  key : Nat
  root : Option Nat := none
  leaf : Option Nat := none
  pfmt : Nat := 0
  length : Nat := 0
  retain : Nat := 0
  thrtab : Nat := 0
  /-- The key identifier under which THRTAB was named (R306, R319). -/
  thrmkid : Nat := 0
  row0 : Nat := 4
  row1 : Nat := 4
  deriving DecidableEq, Repr

/-- A block of a node (R284). -/
structure Blk where
  bid : Nat
  rowoff : Nat
  deriving DecidableEq, Repr

/-- A node of the radix tree (R282). -/
structure Node where
  parent : Option Nat
  child : Option Nat
  sibling : Option Nat
  share : Nat
  start : Nat
  first : Nat
  runlen : Nat
  tokens : Nat
  blocks : List Blk
  wstamp : Nat
  deriving DecidableEq, Repr

/-- States of a validity-map entry (R288). -/
inductive MapSt where
  | clean
  | dirty
  | inflight
  | skipped
  deriving DecidableEq, Repr

/-- A validity-map entry (R288), with the phase and serial of the task in flight. -/
structure MapEnt where
  st : MapSt := .clean
  need0 : Bool := false
  again : Bool := false
  again0 : Bool := false
  new : Nat := 0
  old : Nat := 0
  anew : Nat := 0
  aold : Nat := 0
  phase : Nat := 0
  /-- The discard of R295 that waits for the task's DONE. -/
  doomed : Bool := false
  deriving DecidableEq, Repr

/-- A version that the attic holds (R286, R287): its slot, ordinal and bytes, and the task that wrote it. -/
structure Ver where
  slot : Slot
  ord : Nat
  data : List Byte
  writer : Nat
  domain : Nat
  /-- RETAIN of its context (R287). -/
  retain : Nat := 0
  /-- Superseded by a version of this wave; none for a pending version. -/
  by' : Option Nat := none
  deriving DecidableEq, Repr

/-- A committed version's directory entry (R284): the location of its storage, 0 when there is none, its ordinal and its bytes; and the
least ordinal of a version of the slot that has been freed (R287). -/
structure Dir where
  store : Nat := 0
  vord : Nat := 0
  size : Nat := 0
  gone : Option Nat := none
  deriving DecidableEq, Repr

/-- A wave stream's binding (R312). -/
structure Bind where
  entry : Word
  span : Nat
  site : Nat
  deriving DecidableEq, Repr

/-! ## Dies and the package -/

/-- An agent that waits for an absent page (R393): what it is, who issued it, the page, and when it parked. -/
structure Park where
  key : Nat
  page : Nat
  access : Nat
  agent : Nat
  site : Nat
  tick : Nat
  deriving DecidableEq, Repr

/-- A key's state at a die (R398). -/
inductive KeySt where
  | none
  | loaded
  | retired
  deriving DecidableEq, Repr

/-- A half-line request of the host (R362). -/
structure HostReq where
  write : Bool
  poison : Bool
  dpa : Nat
  data : List Byte
  deriving DecidableEq, Repr

/-- One die. -/
structure Die where
  /-- How far the die's tick counter runs before the others, in forty-fifths of a tick, at most 44 (R19); a cold reset makes it free. -/
  phase : Nat := 0
  /-- Control-space registers that differ from their reset values, by offset (R387). -/
  regs : SMap (Option Word) := []
  /-- Fault gathering: the tick a window opened, parks, entries that wait for READY (R393, R394). -/
  winStart : Option Nat := none
  parks : List Park := []
  formed : List Park := []
  /-- The core an inbox last used, plus 1 (R323), and the scan position per class (R324): inbox and messages taken in its turn. -/
  lastCore : SMap Nat := []
  scan : SMap (Nat × Nat) := []
  /-- The first cycle at which the scan may deliver again (R324). -/
  scanAt : Nat := 0
  /-- Memory keys by MKID (R398). -/
  keys : SMap KeySt := []
  /-- The key pair an MKID was loaded with, 512 bits (R398). -/
  keyVals : SMap Nat := []
  /-- The load of memory keys in progress: the value written with GO, and the pair staged then (R398). -/
  loading : Option (Word × Nat) := none
  /-- The publication in progress (R162): first line, count, key identifier; and the host's writes accepted before it that still wait at their homes. -/
  publishing : Option (Nat × Nat × Nat) := none
  pubWrites : List HostReq := []
  /-- The cycle of the last array-start grant (R333). -/
  lastGrant : Option Nat := none
  /-- Timed launches held at the die: the tick and the message (R351). -/
  timed : List (Nat × Msg) := []
  /-- Context records, by handle within the die (R281). -/
  recs : SMap (Option Rec) := []
  nodes : SMap (Option Node) := []
  /-- Slot directories, by 512 × BID + 2 × layer + part (R284). -/
  dirs : SMap Dir := []
  /-- Validity map entries, by 256 × BID + layer (R288). -/
  vmap : SMap MapEnt := []
  /-- Pending and superseded versions (the attic, R287). -/
  attic : List Ver := []
  /-- Bindings of wave streams, by handle within the die; none for a held stream (R312). -/
  binds : SMap (Option Bind) := []
  /-- KV pools by key: the locations of their crates (R309). -/
  pools : SMap (List Nat) := []
  halfGroups : Nat := 0
  throttle : Nat := 0
  alarms : Nat := 0
  /-- The die's power as the power monitor measures it, in sixteenths of a watt: from which tick on, newest first (R334). -/
  power : List (Nat × Nat) := []
  /-- Trace records of the tick `tracedAt` in the ring, last ones of it, by site (R374). -/
  tracedAt : Nat := 0
  traced : List (Nat × List Word) := []
  /-- The tick at which ALARM was raised, and that up to which telemetry records are written or are none (R334, R400). -/
  alarmAt : Nat := 0
  lastTel : Nat := 0
  /-- Telemetry records that were due when EN was last written, and are not written yet (R400). -/
  telOwed : List Nat := []
  /-- The tick of the last tracking period's end (R192). -/
  evalAt : Nat := 0
  /-- Where an attestation report that has been asked for goes, and the nonce that it took (R391). -/
  attesting : Option (Nat × List Byte) := none
  deriving DecidableEq, Repr

/-- A stop (R378): the die whose control holds it, the domain's scope and site, the tick of the request. -/
structure Stop where
  die : Nat
  dom : Nat
  site : Nat
  tick : Nat
  reason : Nat
  bp : Nat := 0
  /-- The cycle of the request. -/
  cycle : Nat := 0
  landed : Bool := false
  resuming : Bool := false
  deriving DecidableEq, Repr

/-- A recorded command (R383): words 0 to 4 and the payload as delivered, and the delivery tick. -/
structure Recorded where
  msg : Msg
  tick : Nat
  deriving DecidableEq, Repr

/-- What happens beside the steps of the opcode table: firmware writes an entry of the crate indirection table, the crate, its medium and its place there
(R191, R196); a die's power monitor measures, in sixteenths of a watt (R334); ECC corrects a soft error of a die's memory; a line is found
uncorrectable (R397). -/
inductive Input where
  | crate (crate : Nat) (medium : Medium) (place : Nat)
  | power (die sixteenths : Nat)
  | corrected (die : Nat)
  | uncorrectable (line : Nat)
  deriving DecidableEq, Repr

/-- What is pending for the next steps: the schedule as plain data (log entry 1). `events`: steps of engines and of the host, first first;
`turns`: the sites that issue next; `delays`: extra cycles before the next units. -/
structure Plan where
  events : List Instr := []
  turns : List Nat := []
  delays : List Nat := []
  /-- Steps in which no engine step is taken of itself. -/
  quiet : Nat := 0
  /-- What happens next beside those steps. -/
  inputs : List Input := []
  deriving DecidableEq, Repr

/-- Replay control's state (R382 to R385). -/
structure Replay where
  recording : Bool := false
  armed : Bool := false
  replaying : Bool := false
  /-- Captured crates: the first byte's location and the 65,536 bytes listed (only those that differ from an unlisted byte). -/
  crates : List (Nat × List Host.Cell) := []
  /-- The host inbox registers and slots captured with them, per die. -/
  inboxes : List Host.Cell := []
  heads : List (Nat × Nat × Word) := []
  mkids : List (Nat × Nat) := []
  log : List Recorded := []
  /-- For each instance that has ended, its index and the CRC after each of its three ranges (R384). -/
  crcs : List (Nat × List Word) := []
  next : Nat := 0
  /-- Kernel instances that run: the command's index. -/
  insts : List Nat := []
  /-- The kernel-table entry that each of them was started by (R384). -/
  kernels : SMap Nat := []
  deriving DecidableEq, Repr

/-- A message that waits for room in its context inbox (R342): its sender, the token of the reply it owes on its append (0: none), the
message. -/
structure Waiter where
  site : Nat
  token : Nat
  msg : Msg
  deriving DecidableEq, Repr

/-- What a write to a control register starts (R4): the engine takes it as its next step. -/
inductive Todo where
  | warmReset
  | attestation
  | readyClear
  | publishGo
  | stopGo (value : Word)
  | stopResume
  | checkpoint
  | endrec
  | replay
  | abort
  deriving DecidableEq, Repr

/-- Package-wide state. -/
structure Pkg where
  num : Nat := 0
  crates : SMap Crate := []
  /-- Uncorrectable lines, by line (R397). -/
  bad : SMap Bool := []
  /-- Bytes of pool crates that the engine has overwritten: the values before (R309). -/
  hist : SMap (List Byte) := []
  /-- Written code lines: the closures since the last write; none for a line never written (R153). -/
  code : SMap (Option (List Closure)) := []
  resv : SMap Resv := []
  tlb : List Leaf := []
  coh : SMap Coh := []
  ranges : SMap (Option Range) := []
  rlines : SMap RLine := []
  xfers : List XCmd := []
  /-- Wave counters by domain (R290): the next wave number; and USER of each wave, by 2^24 × domain + wave. -/
  waves : SMap Nat := []
  users : SMap Nat := []
  /-- The kernel instance of each wave's EDIT (R384), by 2^24 × domain + wave. -/
  waveInst : SMap (Option Nat) := []
  /-- Published lower bounds (R328, R329) and the largest ordinals accepted. -/
  gvt : SMap Nat := []
  largest : SMap Nat := []
  /-- The tick of the last publication (R329). -/
  gvtAt : Nat := 0
  /-- Messages delivered to a core and waiting for room, oldest first (R342). -/
  senders : List Waiter := []
  stops : List Stop := []
  replay : Replay := {}
  /-- Inbox slots reserved for a LAUNCH (R351): its token (0 once its messages are held at their dies), the core and the inbox. -/
  rsvd : List (Nat × Nat × Nat) := []
  /-- Messages that left through a link port and are not acknowledged: the port, the token of the status their sender awaits (0: none), the
  message (R366, R367). -/
  sent : List (Nat × Nat × Msg) := []
  /-- Statuses that leave for the senders of messages that arrived here over a link: the sender's package and site, and the status (R366). -/
  statuses : List (Nat × Nat × Nat) := []
  /-- An extent whose release has been asked: the first crate, how many. -/
  releasing : List (Nat × Nat) := []
  /-- Host requests that wait at their homes, oldest first, and what the last one was answered: poison, and the bytes read (R362, R363). -/
  hostReqs : List HostReq := []
  hostReply : Bool × List Byte := (false, [])
  /-- Replies on their way to a requester (R32): its site and the reply. -/
  results : List (Nat × Reply) := []
  /-- Host writes to inbox slots that a landed package stop holds back until a snapshot or the resume: the die, the offset, the bytes (R383). -/
  heldWrites : List (Nat × Nat × List Byte) := []
  /-- Sites that are to re-check their waits, for a line that they monitor has been written since their last check (R331). -/
  hits : List Nat := []
  /-- The next activation, command or request number. -/
  nextId : Nat := 1
  /-- Steps that writes to control registers have started, with their dies, oldest first. -/
  todo : List (Nat × Todo) := []
  deriving DecidableEq, Repr

/-- The package. -/
structure State where
  /-- The site of the context that issues. -/
  site : Nat := 0
  /-- That context. -/
  ctx : Ctx := {}
  /-- Every other context, by site (R11). -/
  parked : SMap Ctx := []
  /-- Cores by site / 4, clusters by site / 64, dies. -/
  cores : SMap Core := []
  clus : SMap Cluster := []
  dies : SMap Die := []
  pkg : Pkg := {}
  /-- Bytes by location: (key identifier, DPA), shelf bytes, host inbox slots (R70). -/
  mem : List Host.Cell := []
  /-- Arithmetic-clock cycles since cold reset (R87), and ticks counted before it (R19, R392). -/
  cycle : Nat := 0
  /-- The MODEL's own: the counter of free values, and the schedule. -/
  free : Nat := 0
  plan : Plan := {}
  deriving DecidableEq, Repr

/-- The machine right after a cold reset. -/
def State.reset : State := {}

/-- What stops the machine. Each constructor says who raises it; all are safe: the model stops where the device's behaviour is not given. -/
inductive Fault where
  /-- A step of an engine or of the host was run although its precondition does not hold (for instance the completion of a transfer that
  does not exist): raised by the meanings of the rows without a word; the device takes no such step. Safe. -/
  | noSuchStep (name : String)
  deriving DecidableEq, Repr

/-- Why an instruction has no meaning here. -/
inductive Refusal where
  /-- Not modelled yet; raised by no meaning. Safe. -/
  | notModelled (mnemonic : String)
  deriving DecidableEq, Repr

end Sys2Proof.Machine
end

