-- ==== Sys2Proof/Machine/Base.lean ====
section
/-! DEFINITION. Sites, and the one way to read and write each part of the state. -/
namespace Sys2Proof.Machine
open Sys2Proof

/-! ## Sites (R11) -/

def dieOf (site : Nat) : Nat := site / 1024
def clusterOf (site : Nat) : Nat := site / 64
def coreOf (site : Nat) : Nat := site / 4
def quadOf (site : Nat) : Nat := site / 16
/-- The core's number within its cluster, and the cluster's within its die. -/
def coreIn (site : Nat) : Nat := site / 4 % 16
def clusterIn (site : Nat) : Nat := site / 64 % 16

/-! ## Access by site, core, cluster and die -/

namespace State

def coreAt (s : State) (c : Nat) : Core := SMap.get {} s.cores c
def cluAt (s : State) (c : Nat) : Cluster := SMap.get {} s.clus c
def dieAt (s : State) (d : Nat) : Die := SMap.get {} s.dies d
def setCore (s : State) (c : Nat) (x : Core) : State := { s with cores := SMap.set {} s.cores c x }
def setClu (s : State) (c : Nat) (x : Cluster) : State := { s with clus := SMap.set {} s.clus c x }
def setDie (s : State) (d : Nat) (x : Die) : State := { s with dies := SMap.set {} s.dies d x }
def modCore (s : State) (c : Nat) (f : Core → Core) : State := s.setCore c (f (s.coreAt c))
def modClu (s : State) (c : Nat) (f : Cluster → Cluster) : State := s.setClu c (f (s.cluAt c))
def modDie (s : State) (d : Nat) (f : Die → Die) : State := s.setDie d (f (s.dieAt d))
def setCtx (s : State) (c : Ctx) : State := { s with ctx := c }
def modPkg (s : State) (f : Pkg → Pkg) : State := { s with pkg := f s.pkg }

/-- The context of a site: the issuing one, or a parked one. -/
def ctxAt (s : State) (site : Nat) : Ctx := if site = s.site then s.ctx else SMap.get Ctx.reset s.parked site
def setCtxAt (s : State) (site : Nat) (c : Ctx) : State :=
  if site = s.site then s.setCtx c else { s with parked := SMap.set Ctx.reset s.parked site c }
def modCtxAt (s : State) (site : Nat) (f : Ctx → Ctx) : State := s.setCtxAt site (f (s.ctxAt site))

/-- Make a site the issuing one. -/
def focus (s : State) (site : Nat) : State :=
  if site = s.site then s
  else { s with site := site, ctx := SMap.get Ctx.reset s.parked site,
                parked := SMap.set Ctx.reset (SMap.set Ctx.reset s.parked s.site s.ctx) site Ctx.reset }

/-- The core, cluster and die of the issuing context. -/
def core (s : State) : Core := s.coreAt (coreOf s.site)
def clu (s : State) : Cluster := s.cluAt (clusterOf s.site)
def die (s : State) : Nat := dieOf s.site

/-- The reference tick of a die (R19): 100 MHz against 2.25 GHz, both counted since cold reset; the dies' counters differ by a tick at most. -/
def tick (s : State) (d : Nat) : Nat := (s.cycle * 2 + (s.dieAt d).phase % 45) / 45

/-- A number for a new activation, command or request. -/
def fresh (s : State) : Nat × State := (s.pkg.nextId, s.modPkg fun p => { p with nextId := p.nextId + 1 })

/-- A free value of the spec's: the `k`th one of the current unit (log entry 7). -/
def choose (s : State) (k n : Nat) : Nat := Config.freeChoice (s.free + k) % n
def freeBits (s : State) (w k : Nat) : BitVec w := Config.freeBits w (s.free + k)

end State

/-! ## Bit fields of 64-bit words -/

/-- Bits `hi` to `lo` of a word, as a number. -/
def bits (w : Word) (hi lo : Nat) : Nat := w.toNat / 2 ^ lo % 2 ^ (hi + 1 - lo)
/-- A word with a field replaced. -/
def putBits (w : Word) (hi lo v : Nat) : Word :=
  BitVec.ofNat 64 (w.toNat - bits w hi lo * 2 ^ lo + v % 2 ^ (hi + 1 - lo) * 2 ^ lo)
/-- The mask of bits `hi` to `lo`. -/
def fmask (hi lo : Nat) : Word := BitVec.ofNat 64 ((2 ^ (hi + 1 - lo) - 1) * 2 ^ lo)

/-- The words of a list of bytes, little-endian (R3), and back. -/
def bytesToNat : List Byte → Nat
  | [] => 0
  | b :: bs => b.toNat + 256 * bytesToNat bs
def natToBytes : Nat → Nat → List Byte
  | 0, _ => []
  | n + 1, v => BitVec.ofNat 8 v :: natToBytes n (v / 256)

/-- The numbers from `lo` up, `n` of them. -/
def upto (lo : Nat) : Nat → List Nat
  | 0 => []
  | n + 1 => lo :: upto (lo + 1) n

end Sys2Proof.Machine
end

