-- ==== Sys2Proof/Machine/Ctl.lean ====
section
/-! DEFINITION. The registers of a die's control space that behave as storage: their reset values and writable bits, from the layout tables
(R387 and the rules it names). Registers with behaviour of their own are in the files of their engines. -/
namespace Sys2Proof.Machine
open Sys2Proof

/-- Reset value of the register at offset `o` (a multiple of 8) of die `d`. -/
def ctlReset (d o : Nat) : Word :=
  if o = 0x000 then putBits (putBits (BitVec.ofNat 64 d) 47 40 (bits (Config.silicon d) 7 0)) 63 48 0x0768
  else if o = 0x008 then 0xFFFF#64
  else if 0x010 ≤ o ∧ o < 0x090 then 0xFFFF#64
  else if o = 0x090 then 0xFFFFFFFFFFFFFFFF#64
  else if o = 0x098 then 0xFFFFFFFF#64
  else if o = 0x0A0 then (if d = 0 then 0xFFFF000F#64 else 0xF#64)
  else if o = 0x0B8 then BitVec.ofNat 64 (Config.csBase d)
  else if o = 0x0C0 then BitVec.ofNat 64 (Config.nodeBase d)
  else if 0x100 ≤ o ∧ o < 0x120 then Config.idPub d ((o - 0x100) / 8)
  else if o = 0x1000 then 256#64
  else if o = 0x2000 then BitVec.ofNat 64 (64 * 2 ^ 48 + 100000 * 2 ^ 12 + 1)
  else if o = 0x3000 then BitVec.ofNat 64 (400 * 2 ^ 48 + 256)
  else if o = 0x3008 then BitVec.ofNat 64 (700 * 2 ^ 32 + 640 * 2 ^ 16)
  else if o = 0x4000 then BitVec.ofNat 64 (2 ^ 63 + 6)
  else if o = 0x5100 then 10#64
  else if 0x20000 ≤ o ∧ o < 0x40000 ∧ o % 32 = 0 then BitVec.ofNat 64 (2 ^ 57)
  else if o = 0x400000 then BitVec.ofNat 64 (1000 * 2 ^ 16)
  else if o = 0x400100 then 10#64
  else 0#64

/-- The bits of the register at offset `o` of die `d` that a write sets (R4): RW fields only. -/
def ctlMask (d o : Nat) : Word :=
  if o = 0x0B0 then 0xFFFFFFFFFFFFFFFF#64
  else if o = 0x120 then fmask 51 8
  else if o = 0x1000 then fmask 12 0
  else if o = 0x1008 then fmask 51 12
  else if o = 0x2000 then fmask 63 12 ||| 1#64
  else if 0x2008 ≤ o ∧ o ≤ 0x2020 then 0xFFFFFFFFFFFFFFFF#64
  else if o = 0x3000 then fmask 63 48 ||| fmask 31 16 ||| fmask 11 0
  else if o = 0x3008 then fmask 47 32
  else if o = 0x3010 then 0xFFFFFFFFFFFFFFFF#64
  else if o = 0x4000 ∨ o = 0x5100 ∨ o = 0x400100 then fmask 63 63 ||| fmask 51 12 ||| fmask 4 0
  else if o = 0x5108 ∨ o = 0x5110 ∨ o = 0x400108 ∨ o = 0x400110 then 0xFFFFFFFFFFFFFFFF#64
  else if o = 0x7000 then fmask 51 7
  else if o = 0x7008 then fmask 41 32 ||| fmask 24 0
  else if (0x6000 ≤ o ∧ o < 0x8000 ∧ o ≠ 0x7010 ∨ 0x9000 ≤ o ∧ o < 0x9018) ∧ d = 0 then fmask 63 62 ||| fmask 51 48 ||| fmask 31 0
  else if 0x8000 ≤ o ∧ o < 0x8040 then 0xFFFFFFFFFFFFFFFF#64
  else if 0x10000 ≤ o ∧ o < 0x14000 then
    (if o % 16 = 0 then fmask 63 63 ||| fmask 51 16 ||| fmask 9 0 else fmask 55 44)
  else if 0x20000 ≤ o ∧ o < 0x40000 then
    (if o % 32 = 0 then fmask 63 57 ||| fmask 55 32 else if o % 32 = 8 then fmask 31 0
     else if o % 32 = 16 then 0xFFFFFFFFFFFFFFFF#64 else 0#64)
  else if o = 0x400000 then fmask 31 16
  else if 0x400200 ≤ o ∧ o < 0x400400 then
    (if o % 32 = 0 then 0xFFFFFFFFFFFFFFFF#64 else if o % 32 = 8 then fmask 55 0
     else if o % 32 = 16 then fmask 63 32 else fmask 31 0)
  else if d = 0 ∧ o = 0x400408 then fmask 51 16
  else if d = 0 ∧ o = 0x400418 then fmask 51 3
  else if d = 0 ∧ (o = 0x400410 ∨ o = 0x400420 ∨ o = 0x400428) then 0xFFFFFFFFFFFFFFFF#64
  else if d = 0 ∧ 0x401000 ≤ o ∧ o < 0x402000 then
    (if o % 64 = 0 then fmask 63 63 ||| fmask 55 0 else if o % 64 = 56 then 0#64 else 0xFFFFFFFFFFFFFFFF#64)
  else if 0x500000 ≤ o ∧ o < 0x700000 then 0xFFFFFFFFFFFFFFFF#64
  else 0#64

namespace State

/-- The value a register of the control space holds. -/
def reg (s : State) (d o : Nat) : Word := ((SMap.get none (s.dieAt d).regs o).getD (ctlReset d o))
/-- Set a register's value, whole. -/
def setReg (s : State) (d o : Nat) (v : Word) : State :=
  s.modDie d fun x => { x with regs := SMap.set none x.regs o (if v = ctlReset d o then none else some v) }
/-- A write of software's: RW fields take it, the others keep their values (R4). -/
def writeReg (s : State) (d o : Nat) (v : Word) : State :=
  s.setReg d o ((s.reg d o &&& ~~~(ctlMask d o)) ||| (v &&& ctlMask d o))
def bumpReg (s : State) (d o : Nat) : State := s.setReg d o (s.reg d o + 1#64)
/-- A memory error is counted in bits lo + 31 to lo of a die's 0x0B0, UNCOR (32) or CORR (0), saturating (R389, R397). -/
def countErr (s : State) (d lo : Nat) : State :=
  let r := s.reg d 0x0B0
  s.setReg d 0x0B0 (putBits r (lo + 31) lo (min (bits r (lo + 31) lo + 1) (2 ^ 32 - 1)))

/-- The dies have booted (R389). -/
def booted (s : State) : Bool := (s.reg 0 0x0A8).getLsbD 63

/-- The boot ROMs have not run since the package was powered: no die has reported success or failure (R388, R389). -/
def unbooted (s : State) : Bool := !s.booted && (upto 0 4).all fun d => bits (s.reg d 0x0A8) 7 0 == 0

/-- Enabled cores of a cluster (package-wide number) and enabled clusters of a die (R389). -/
def coreEn (s : State) (c : Nat) : Nat := bits (s.reg (c / 16) (0x010 + 8 * (c % 16))) 15 0
def cluEn (s : State) (d : Nat) : Nat := bits (s.reg d 0x008) 15 0
def coreEnabled (s : State) (core : Nat) : Bool :=
  decide (core < 1024) && (s.coreEn (core / 16)).testBit (core % 16) && (s.cluEn (core / 256)).testBit (core / 16 % 16)
def siteEnabled (s : State) (site : Nat) : Bool := s.coreEnabled (site / 4)
/-- A Ralmer port is enabled (R389, R401). -/
def portEnabled (s : State) (port : Nat) : Bool := (s.reg 0 0x0A0).getLsbD (16 + port % 16)
/-- How many of the 96 HBM channels are enabled (R389). -/
def channels (s : State) : Nat :=
  let lo := s.reg 0 0x090
  let hi := bits (s.reg 0 0x098) 31 0
  if lo = 0xFFFFFFFFFFFFFFFF#64 ∧ hi = 2 ^ 32 - 1 then 96
  else ((upto 0 64).filter lo.getLsbD).length + ((upto 0 32).filter hi.testBit).length
/-- Enabled cores of a cluster, ascending, by their numbers within it. -/
def enabledIn (s : State) (c : Nat) : List Nat := (upto 0 16).filter fun k => s.coreEnabled (16 * c + k)
/-- Enabled cores of the package, ascending. -/
def enabledCores (s : State) : List Nat := (upto 0 1024).filter s.coreEnabled

end State

end Sys2Proof.Machine
end

