-- ==== Sys2Proof/Machine/Phys.lean ====
section
/-! DEFINITION. Locations and their bytes, writes and what they do to code lines and uncorrectable lines, and the rings of records. -/
namespace Sys2Proof.Machine
open Sys2Proof

/-! ## Locations (R70): one number per byte of storage -/

/-- A byte of global memory: its key identifier and DPA. -/
def gloc (mkid dpa : Nat) : Nat := mkid % 1024 * 2 ^ 52 + dpa % 2 ^ 52
/-- A byte of a shelf: the cluster's package-wide number, the shelf, the offset. -/
def ploc (clu shelf off : Nat) : Nat := 2 ^ 62 + (clu * 32 + shelf) * 2 ^ 18 + off % 2 ^ 18
/-- A byte of a die's host inbox window (R322). -/
def hloc (die off : Nat) : Nat := 2 ^ 63 + die * 2 ^ 27 + off % 2 ^ 27
def isGlobal (loc : Nat) : Bool := decide (loc < 2 ^ 62)
def isPantry (loc : Nat) : Bool := decide (2 ^ 62 ≤ loc) && decide (loc < 2 ^ 63)
/-- The line of a location. -/
def lineOf (loc : Nat) : Nat := loc / 128
def dpaOf (loc : Nat) : Nat := loc % 2 ^ 52
def mkidOf (loc : Nat) : Nat := loc / 2 ^ 52
def crateOf (loc : Nat) : Nat := dpaOf loc / 65536
/-- The shelf of a pantry location, as 32 × cluster + shelf. -/
def shelfOf (loc : Nat) : Nat := (loc - 2 ^ 62) / 2 ^ 18
def shelfOff (loc : Nat) : Nat := loc % 2 ^ 18

/-- The die whose memory a line is, and its DPA, 0 for a pantry line. -/
def lineDie (line : Nat) : Nat := if isPantry (line * 128) then shelfOf (line * 128) / 512 % 4 else dpaOf (line * 128) / 65536 % 4
def lineDpa (line : Nat) : Nat := if isPantry (line * 128) then 0 else dpaOf (line * 128)

/-! ## Reservations (R183) -/

namespace State
/-- The commands and AMSG handlers that hold or await a line, first first. -/
def lineIds (s : State) (line : Nat) : List Nat := (SMap.get {} s.pkg.resv line).ids
def setResv (s : State) (line : Nat) (r : Resv) : State := s.modPkg fun p => { p with resv := SMap.set {} p.resv line r }
/-- Others come before `id` at the line. -/
def lineAhead (s : State) (id line : Nat) : Bool := !((s.lineIds line).takeWhile (· != id)).isEmpty
/-- Register `id` behind those that a line already has. -/
def enqueueAt (s : State) (id line : Nat) : State :=
  let r := SMap.get {} s.pkg.resv line
  s.setResv line { r with ids := r.ids ++ [id] }
/-- The reservations of `id` end; the next ones take the lines. -/
def unreserve (s : State) (id : Nat) : List Nat → State
  | [] => s
  | l :: ls =>
    let r := SMap.get {} s.pkg.resv l
    unreserve (s.setResv l { ids := r.ids.filter (· != id), granted := r.granted && r.ids.head? != some id }) id ls
/-- The command holds a line. -/
def granted (s : State) (id l : Nat) : Bool :=
  let r := SMap.get {} s.pkg.resv l
  r.granted && r.ids.head? == some id
end State

/-! ## Memory: an unlisted byte reads 0 (DESIGN CHOICE, log entry 3) -/

/-- The canonical form of a memory: addresses strictly rising, and no entry that an unlisted address reads as. -/
def Memory.wf (m : List Host.Cell) : Bool := SMap.wf 0#8 m
/-- One byte. -/
def Memory.read (m : List Host.Cell) (a : Nat) : Byte := SMap.get 0#8 m a
/-- One byte replaced. -/
def Memory.write (m : List Host.Cell) (a : Nat) (b : Byte) : List Host.Cell := SMap.set 0#8 m a b
/-- Consecutive bytes. -/
def Memory.readN (m : List Host.Cell) (a : Nat) : Nat → List Byte
  | 0 => []
  | n + 1 => Memory.read m a :: Memory.readN m (a + 1) n
def Memory.writeN (m : List Host.Cell) (a : Nat) : List Byte → List Host.Cell
  | [] => m
  | b :: bs => Memory.writeN (Memory.write m a b) (a + 1) bs

namespace State

def byte (s : State) (loc : Nat) : Byte := Memory.read s.mem loc
/-- `n` bytes from a location up, as a number (R3). -/
def load (s : State) (loc n : Nat) : Nat := bytesToNat (Memory.readN s.mem loc n)
/-- Bytes put into storage, and nothing else: what hardware writes where the spec says that no code line opens. -/
def poke (s : State) (loc : Nat) (bs : List Byte) : State := { s with mem := Memory.writeN s.mem loc bs }
def pokeNat (s : State) (loc n v : Nat) : State := s.poke loc (natToBytes n v)

/-- A line's words of a ring record, 8 bytes each. -/
def pokeWords (s : State) (loc : Nat) : List Word → State
  | [] => s
  | w :: ws => pokeWords (s.pokeNat loc 8 w.toNat) (loc + 8) ws

/-- Append a 64-byte record to a ring with the fields of R374 at register offset `o` of die `d`: under MKID 0, opening no code line. -/
def ring (s : State) (d o : Nat) (ws : List Word) : State :=
  let c := s.reg d o
  let n := 2 ^ (max 10 (min 24 (bits c 4 0)))
  let h := (s.reg d (o + 8)).toNat
  if !c.getLsbD 63 && decide (n ≤ h) then s.bumpReg d (o + 16)
  else (s.pokeWords (gloc 0 (bits c 51 12 * 4096 + 64 * (h % n))) ws).bumpReg d (o + 8)

/-- Write a fault record to a die's fault log (R395, R396). -/
def faultRecord (s : State) (d source cause site : Nat) (pc val : Word) (ord : Nat) : State :=
  s.ring d 0x5100
    [BitVec.ofNat 64 (source % 16 * 2 ^ 60 + cause % 256 * 2 ^ 24 + site % 2 ^ 22), pc, val, BitVec.ofNat 64 (s.tick d), BitVec.ofNat 64 ord, 0#64, 0#64, 0#64]

/-- A write opens a code line, whatever it stores (R153). -/
def openLine (s : State) (line : Nat) : State :=
  s.modPkg fun p => { p with code := SMap.set none p.code line (some []) }
/-- A publication closes a written line for its scope (R153); a line never written stays closed. -/
def closeLine (s : State) (line : Nat) (c : Closure) : State :=
  match SMap.get none s.pkg.code line with
  | none => s
  | some cs => s.modPkg fun p => { p with code := SMap.set none p.code line (some (c :: cs)) }

/-- An uncorrectable line becomes correctable when it is written whole; one that is written in part does too, its other bytes zero, with a SOURCE 5
record (R397). -/
def mendLine (s : State) (line : Nat) (whole : Bool) : State :=
  if SMap.get false s.pkg.bad line then
    let s := s.modPkg fun p => { p with bad := SMap.set false p.bad line false }
    if whole then s
    else (s.poke (line * 128) (List.replicate 128 0#8)).faultRecord (lineDie line) 5 0 0 0#64 (BitVec.ofNat 64 (lineDpa line)) 0
  else s

/-- The sites whose monitor entries watch a line (R331). -/
def watchers (s : State) (line : Nat) : List Nat :=
  (if s.ctx.mons.contains line then [s.site] else []) ++ (s.parked.filter fun e => e.2.mons.contains line).map (·.1)
/-- A write to a line makes those that monitor it check again (R331). -/
def noteWrite (s : State) (line : Nat) : State :=
  match s.watchers line with
  | [] => s
  | xs => s.modPkg fun p => { p with hits := p.hits ++ xs.filter fun x => !p.hits.contains x }
/-- A site has checked its conditions. -/
def checkedAt (s : State) (site : Nat) : State := s.modPkg fun p => { p with hits := p.hits.filter (· != site) }

/-- One ordinary write of bytes that lie in one line: the line is mended and, in global memory, opened for fetch. -/
def storeLine (s : State) (loc : Nat) (bs : List Byte) : State :=
  let s := s.mendLine (lineOf loc) (bs.length == 128)
  let s := (s.poke loc bs).noteWrite (lineOf loc)
  if isGlobal loc then s.openLine (lineOf loc) else s

/-- One ordinary write of bytes that may lie in several lines, line part by line part in ascending order; `n` bounds the parts. -/
def storeParts (s : State) (loc : Nat) (bs : List Byte) : Nat → State
  | 0 => s
  | n + 1 =>
    let k := 128 - loc % 128
    if bs.length ≤ k then s.storeLine loc bs else storeParts (s.storeLine loc (bs.take k)) (loc + k) (bs.drop k) n
/-- An ordinary write. -/
def store (s : State) (loc : Nat) (bs : List Byte) : State := s.storeParts loc bs (bs.length / 128 + 2)

end State

/-- The scope of a publication contains a site (R13, R153). -/
def inScope (scope from' : Nat) (gang : List Nat) (site : Nat) : Bool :=
  match scope with
  | 0 => from' / 4 == site / 4
  | 1 => from' / 16 == site / 16
  | 2 => from' / 64 == site / 64
  | 3 => gang.contains (site / 64)
  | 4 => from' / 1024 == site / 1024
  | _ => true

/-- A line is open for a fetcher (R153). -/
def State.openFor (s : State) (line site : Nat) : Bool :=
  match SMap.get none s.pkg.code line with
  | none => false
  | some cs => !cs.any fun c => inScope c.scope c.site c.gang site

/-- The medium of a crate (R191); at reset, the crates that the enabled channels hold are in HBM (R401). -/
def State.medium (s : State) (crate : Nat) : Medium :=
  match (SMap.get {} s.pkg.crates crate).medium with
  | .initial =>
    if crate < Config.channelCrates * s.channels ∨ (Config.nodeBase 0 / 65536 ≤ crate ∧ crate < Config.nodeBase 0 / 65536 + 2 ^ 25) ∨
        (Config.blockTable 0 0 / 65536 ≤ crate ∧ crate < Config.slotDir 0 0 / 65536 + 2 ^ 31) then .hbm else .absent
  | m => m
/-- Firmware writes a crate's entry of the indirection table (R191): a crate whose extent was released can be used again (R196). -/
def State.placeCrate (s : State) (crate : Nat) (m : Medium) (place : Nat) : State :=
  let c : Crate := SMap.get {} s.pkg.crates crate
  s.modPkg fun p => { p with crates := SMap.set {} p.crates crate { c with medium := m, place := place, moving := none, released := false, late := 0 } }
def State.modCrate (s : State) (crate : Nat) (f : Crate → Crate) : State :=
  s.modPkg fun p => { p with crates := SMap.set {} p.crates crate (f (SMap.get {} p.crates crate)) }

namespace State
/-- The hot-crate tracker sees an access to a line of a crate (R192). Whether it reaches the medium, caches decide: the count of a period is judged at
its end; an access that the cellar serves while a promotion is queued or copying is counted in LATEACC at once (R193; log entry 7). The reads of page tables
by walks are not counted (DESIGN CHOICE, log entry 49). -/
def touchCrate (s : State) (line : Nat) : State :=
  let k := crateOf (line * 128)
  let d := k % 4
  if !isGlobal (line * 128) || !(s.reg d 0x2000).getLsbD 0 && (SMap.get {} s.pkg.crates k).moving.isNone then s
  else
    let late := s.medium k == .cellar && (SMap.get {} s.pkg.crates k).moving == some .hbm && Config.reaches s.free line
    let s := s.modCrate k fun c => { c with accesses := c.accesses + (if (s.reg d 0x2000).getLsbD 0 then 1 else 0), late := c.late + (if late then 1 else 0) }
    if late then s.bumpReg d 0x2018 else s
/-- The lines of an access, each once. -/
def touch (s : State) : List Nat → State
  | [] => s
  | l :: ls => touch (s.touchCrate l) ls
end State

end Sys2Proof.Machine
end

