-- ==== Sys2Proof/Machine/Store.lean ====
section
/-! DEFINITION. The context engine's own state: the tree of nodes, blocks, the validity map, versions, and what marks, skips and
discards do (17_context_engine, R281 to R301, and the aborts of R330). -/
namespace Sys2Proof.Machine
open Sys2Proof

/-! ## Ordinals of waves (R290) -/

def waveOf (ord : Nat) : Nat := ord / 2 ^ 24 % 2 ^ 24
def layerOf (ord : Nat) : Nat := ord / 2 ^ 12 % 2 ^ 12
def phaseOf (ord : Nat) : Nat := ord / 2 ^ 11 % 2
def waveOrd (wave layer phase user : Nat) : Nat := wave * 2 ^ 24 + layer * 2 ^ 12 + phase * 2 ^ 11 + user % 2 ^ 11

/-! ## Nodes and blocks -/

def Node.empty : Node :=
  { parent := none, child := none, sibling := none, share := 1, start := 0, first := 1, runlen := 0, tokens := 0, blocks := [], wstamp := 0 }

/-- Tokens per block (R281): BSZ codes 0 to 3. -/
def bszOf (code : Nat) : Nat := match code with | 0 => 1 | 1 => 4 | 2 => 16 | _ => 64

/-- A mark (a, z, k) on an entry, by the rows of R289; `both` is need BOTH. -/
def MapEnt.mark (e : MapEnt) (a z : Nat) (both : Bool) : MapEnt :=
  match e.st with
  | .dirty => { e with old := min e.old a, new := max e.new z, need0 := e.need0 || both }
  | .inflight => { e with aold := if e.again then min e.aold a else a, anew := max e.anew z, again0 := e.again0 || both, again := true }
  | _ => { e with st := .dirty, old := a, new := max e.new z, need0 := both }
namespace State
/-- A context's record, by handle (R281). -/
def crec (s : State) (h : Nat) : Option Rec := SMap.get none (s.dieAt (h / 16384 % 4)).recs (h % 16384)
def setRec (s : State) (h : Nat) (r : Option Rec) : State :=
  s.modDie (h / 16384 % 4) fun x => { x with recs := SMap.set none x.recs (h % 16384) r }
def node (s : State) (d i : Nat) : Node := (SMap.get none (s.dieAt d).nodes i).getD Node.empty
def setNode (s : State) (d i : Nat) (n : Option Node) : State := s.modDie d fun x => { x with nodes := SMap.set none x.nodes i n }
def ent (s : State) (d bid l : Nat) : MapEnt := SMap.get {} (s.dieAt d).vmap (256 * bid + l)
def setEnt (s : State) (d bid l : Nat) (e : MapEnt) : State :=
  s.modDie d fun x => { x with vmap := SMap.set {} x.vmap (256 * bid + l) e }
def dirOf (s : State) (d bid l q : Nat) : Dir := SMap.get {} (s.dieAt d).dirs (512 * bid + 2 * l + q)
def setDir (s : State) (d bid l q : Nat) (e : Dir) : State :=
  s.modDie d fun x => { x with dirs := SMap.set {} x.dirs (512 * bid + 2 * l + q) e }

/-- The chain of parent links from a node up, first node first; `n` bounds its length (R283). -/
def climb (s : State) (d : Nat) : Nat → Option Nat → List Nat → List Nat
  | 0, _, acc => acc
  | _, none, acc => acc
  | n + 1, some i, acc => climb s d n (s.node d i).parent (i :: acc)
/-- A context's path from ROOT to LEAF (R283). -/
def path (s : State) (d : Nat) (r : Rec) : List Nat := s.climb d ((s.dieAt d).nodes.length + 1) r.leaf []
end State

/-- The number of blocks of a node (R284). -/
def Node.nb (n : Node) (bsz : Nat) : Nat := if n.runlen ≤ n.first then 1 else 1 + (n.runlen - n.first + bsz - 1) / bsz
/-- The offset of block j's first token in its node, and its number of tokens. -/
def Node.blockOff (n : Node) (bsz j : Nat) : Nat := if j = 0 then 0 else n.first + (j - 1) * bsz
def Node.blockLen (n : Node) (bsz j : Nat) : Nat :=
  if j = 0 then min n.first n.runlen else min bsz (n.runlen - n.blockOff bsz j)
/-- The block and the row within its storage of offset `o` of a node (R283). -/
def Node.locate (n : Node) (bsz o : Nat) : Nat × Nat :=
  let j := if o < n.first then 0 else 1 + (o - n.first) / bsz
  let ro := (n.blocks.getD j { bid := 0, rowoff := 0 }).rowoff
  (j, if j = 0 then ro + o else ro + (o - n.first) % bsz)

/-- One block on a path: its node, index, identifier, first position and number of tokens. -/
structure BlockAt where
  node : Nat
  idx : Nat
  bid : Nat
  pos : Nat
  len : Nat
  deriving DecidableEq, Repr

namespace State
def nodeBlocks (s : State) (d bsz i : Nat) : List BlockAt :=
  let n := s.node d i
  (upto 0 (n.nb bsz)).map fun j =>
    { node := i, idx := j, bid := (n.blocks.getD j { bid := 0, rowoff := 0 }).bid, pos := n.start + n.blockOff bsz j, len := n.blockLen bsz j }
/-- The blocks of a context in order. -/
def blocksOf (s : State) (h : Nat) : List BlockAt :=
  match s.crec h with
  | none => []
  | some r => ((s.path (h / 16384 % 4) r).map (s.nodeBlocks (h / 16384 % 4) (bszOf r.bsz))).flatten

/-! ## Ordered tasks struck by a conflict (R330) -/

/-- Every context that runs, by site: the issuing one and the parked ones. -/
def allSites (s : State) : List Nat := s.site :: SMap.keys s.parked
end State

/-- A mark finds a task of a wave greater than `a` INFLIGHT on the entry, writing a part that it discards (R295). -/
def MapEnt.dooms (e : MapEnt) (a : Nat) (both : Bool) : Bool := e.st == .inflight && decide (a < e.old) && (both || e.phase == 1)
/-- A mark (a, ·, BOTH or P1) on entry `e` of (l, bid) discards a pending version (R295): not at once those of a task that it dooms, one of `own`. -/
def MapEnt.kills (e : MapEnt) (d bid l a : Nat) (both : Bool) (own : List Nat) (v : Ver) : Bool :=
  v.slot.die == d && v.slot.bid == bid && v.slot.layer == l && decide (a < waveOf v.ord) && (both || v.slot.part == 1) &&
    !(e.dooms a both && own.contains v.writer)

/-- The handle, die, block, wave, layer and phase of a wave task, from its message (R293). -/
def Msg.wHandle (m : Msg) : Nat := (m.payload.getD 0 0#64).toNat % 65536
def Msg.wBid (m : Msg) : Nat := (m.payload.getD 1 0#64).toNat % 2 ^ 32
def Msg.wNew (m : Msg) : Nat := (m.payload.getD 3 0#64).toNat % 2 ^ 24

namespace State

/-- The numbers of the wave tasks on entry (l, bid) that run or are halted. -/
def entTasks (s : State) (d bid l : Nat) : List Nat :=
  let on := fun (a : Act) (ord : Nat) => if a.kind == .wavetask && layerOf ord == l && a.msg.any (fun m => m.wHandle / 16384 == d && m.wBid == bid) then [a.serial] else []
  s.allSites.flatMap fun x =>
    let c := s.ctxAt x
    (if c.st = .dormant then [] else on c.act c.ord.toNat) ++ (match c.img with | some i => on i.act i.ord.toNat | none => [])

/-- Completed wave tasks that abort: each one's entry takes a mark of its own wave and phase (R289, last row but one); that of a deleted
block is gone. -/
def remark (s : State) : List OrdTask → State
  | [] => s
  | t :: ts =>
    let d := t.msg.wHandle / 16384
    let e := s.ent d t.msg.wBid (layerOf t.msg.ord)
    let both := phaseOf t.msg.ord == 0
    remark (if (s.blocksOf t.msg.wHandle).any fun b => b.bid == t.msg.wBid then s.setEnt d t.msg.wBid (layerOf t.msg.ord)
      { e.mark (waveOf t.msg.ord) t.msg.wNew both with doomed := e.doomed || e.dooms (waveOf t.msg.ord) both } else s) ts

/-- Ordered tasks that `hit` names by their ordinal, domain and read set abort: a running or halted one at its next boundary; a completed
one at once, a TASK into its queue again and a WAVETASK by its entry's mark. The completed ones, and the state. -/
def strike (s : State) (hit : Nat → Nat → List (Slot × Nat) → Bool) : List OrdTask × State :=
  let image := fun (i : Img) => if hit i.ord.toNat i.act.key i.reads then { i with aborting := true } else i
  let struck := fun (c : Ctx) =>
    { c with aborting := c.aborting || hit c.ord.toNat c.act.key c.reads, img := c.img.map image }
  let s := { s with ctx := struck s.ctx, parked := SMap.mapVals {} struck s.parked }
  let old := fun (t : OrdTask) => t.done && hit t.msg.ord t.msg.key t.reads
  let back := ((SMap.vals s.cores).map fun (c : Core) => c.ordq.filter old).flatten
  let reenter := fun (t : OrdTask) =>
    if old t then (if t.msg.kind = .wavetask then none else some { t with done := false, reads := [] }) else some t
  let s := { s with cores := SMap.mapVals {} (fun (c : Core) => { c with ordq := c.ordq.filterMap reenter }) s.cores }
  (back, s.remark (back.filter fun t => t.msg.kind == .wavetask))

/-- A pending version falls with completed tasks that abort: it is one of theirs, or their marks discard it. -/
def fallsWith (s : State) (back : List OrdTask) (v : Ver) : Bool :=
  back.any fun t =>
    let d := t.msg.wHandle / 16384
    let l := layerOf t.msg.ord
    t.serial == v.writer || (t.msg.kind == .wavetask &&
      (s.ent d t.msg.wBid l).kills d t.msg.wBid l (waveOf t.msg.ord) (phaseOf t.msg.ord == 0) (s.entTasks d t.msg.wBid l) v)

/-- Discard pending versions by a test, and abort the tasks that read one, with their versions in turn. `n` bounds the chain. -/
def discard (s : State) : Nat → (Ver → Bool) → State
  | 0, _ => s
  | n + 1, p =>
    let gone := ((SMap.vals s.dies).map fun (x : Die) => x.attic.filter fun v => v.by'.isNone && p v).flatten
    if gone.isEmpty then s
    else
      let s := { s with dies := SMap.mapVals {} (fun (x : Die) => { x with attic := x.attic.filter fun v => !(v.by'.isNone && p v) }) s.dies }
      let (back, t) := s.strike fun _ _ rs => rs.any fun r => gone.any fun v => v.slot == r.1 && v.ord == r.2
      discard t n (s.fallsWith back)

/-- How many versions the attics hold. -/
def versions (s : State) : Nat := ((SMap.vals s.dies).map fun (x : Die) => x.attic.length).foldl (· + ·) 0
/-- Discard pending versions of a die by a test. -/
def discardAll (s : State) (d : Nat) (p : Ver → Bool) : State := s.discard (s.versions + 1) fun v => v.slot.die == d && p v

/-- A VSTW of a task of ordinal `ord` to a slot aborts the tasks of larger ordinal that have read an older version of it (R330). -/
def conflict (s : State) (dom ord : Nat) (σ : Slot) : State :=
  let (back, t) := s.strike fun o k rs => decide (ord < o) && k == dom && rs.any fun r => r.1 == σ && decide (r.2 < ord)
  t.discard (t.versions + 1) (s.fallsWith back)
end State

/-! ## Marks and skips (R289, R295) -/

/-- A skip of wave z. -/
def MapEnt.skip (e : MapEnt) (z : Nat) : MapEnt :=
  match e.st with
  | .dirty => e
  | .inflight => e
  | _ => { e with st := .skipped, new := max e.new z }
/-- The entry of a task that has ended (R289): phase, whether it aborted, whether the task's own DONE found AGAIN. -/
def MapEnt.done (e : MapEnt) (phase : Nat) (aborted : Bool) : MapEnt :=
  let clean := { e with again := false, again0 := false, aold := 0, anew := 0, doomed := false }
  if e.again || aborted then
    let old := if !aborted && phase == 1 then e.aold else if e.again then min e.old e.aold else e.old
    { clean with st := .dirty, old := old, new := max e.new e.anew, need0 := e.again0 || (aborted && phase == 0) }
  else if phase = 0 then { clean with st := .dirty, need0 := false }
  else { clean with st := .clean, old := 0 }
/-- The entry of a task that an unhandled trap ended (R289). -/
def MapEnt.dead (e : MapEnt) : MapEnt := { e with st := .skipped, old := 0, again := false, again0 := false, aold := 0, anew := 0, doomed := false }

namespace State
/-- A mark on (layer, block), with the discards of R295: pending versions of later waves on both parts, or on part 1, at once, or at its
DONE those of the task in flight whose part the mark discards. -/
def mark (s : State) (d bid l a z : Nat) (both : Bool) : State :=
  let e := s.ent d bid l
  let s := s.setEnt d bid l { e.mark a z both with doomed := e.doomed || e.dooms a both }
  s.discardAll d (e.kills d bid l a both (s.entTasks d bid l))
def skip (s : State) (d bid l z : Nat) : State := s.setEnt d bid l ((s.ent d bid l).skip z)

def markAll (s : State) (d l a z : Nat) (both : Bool) : List Nat → State
  | [] => s
  | b :: bs => markAll (s.mark d b l a z both) d l a z both bs
def skipAll (s : State) (d l z : Nat) : List Nat → State
  | [] => s
  | b :: bs => skipAll (s.skip d b l z) d l z bs

/-- Where the FP16 threshold of a layer lies in THRTAB (R294), under the key identifier under which CTX.NEW named it (log entry 93). -/
def thetaAt (r : Rec) (l : Nat) : Nat := gloc r.thrmkid (r.thrtab + 2 * l)
/-- θ of a layer. The read of an uncorrectable line returns no data (R397): θ is then free (log entry 106). -/
def theta (s : State) (r : Rec) (l : Nat) : Ex :=
  Fmt.f16.dec (if SMap.get false s.pkg.bad (lineOf (thetaAt r l)) then (s.freeBits 16 48010).toNat else s.load (thetaAt r l) 2)
/-- An uncorrectable line met there is counted, and recorded as an engine error that no unit reports (R395, R397; log entry 106). -/
def thetaErr (s : State) (r : Rec) (l ord : Nat) : State :=
  if SMap.get false s.pkg.bad (lineOf (thetaAt r l)) then
    (s.faultRecord s.die 1 0x14 (s.pkg.num * 4096 + s.site) 0#64 (BitVec.ofNat 64 (0x14 * 2 ^ 56)) ord).countErr s.die 32
  else s

/-- The task propagates (R294): no δ is greater than a threshold that is no number. -/
def propagates (δ : Option Ex) (θ : Ex) : Bool :=
  match δ with
  | none => true
  | some x => θ.isZero || x.isNan || (!θ.isNan && Ex.cmp x θ == .gt)

/-- The end of a wave task by DONE: its marks or skips, then its own entry (R289, R294, R295). `handle`, `bid` and `z` are the task's. -/
def waveDone (s : State) (handle bid z ord serial : Nat) (δ : Option Ex) : State :=
  let d := handle / 16384 % 4
  match s.crec handle with
  | none => s
  | some r =>
    let l := layerOf ord
    let ph := phaseOf ord
    let a := waveOf ord
    let bs := s.blocksOf handle
    if !bs.any (fun b => b.bid == bid) then s
    else
      let e := s.ent d bid l
      if e.doomed then
        let s := s.discardAll d fun v => v.writer == serial
        s.setEnt d bid l ((s.ent d bid l).done ph false)
      else
        let after := ((bs.dropWhile fun b => b.bid != bid).drop 1).map (·.bid)
        let go := propagates δ (s.theta r l)
        let s := s.thetaErr r l ord
        let s := if ph = 0 then (if go then s.markAll d l a z false after else s.skipAll d l z after) else s
        let s := if l + 1 < r.layers then (if go then s.mark d bid (l + 1) a z true else s.skip d bid (l + 1) z) else s
        s.setEnt d bid l ((s.ent d bid l).done ph false)

/-- The end of a wave task by an unhandled trap (R289). -/
def waveDead (s : State) (handle bid ord serial : Nat) : State :=
  let d := handle / 16384 % 4
  let s := s.discardAll d fun v => v.writer == serial
  if (s.blocksOf handle).any (fun b => b.bid == bid) then s.setEnt d bid (layerOf ord) (s.ent d bid (layerOf ord)).dead else s

/-- The abort of a running wave task: its versions and its entry (R289, R330). -/
def waveAbort (s : State) (handle bid ord serial : Nat) : State :=
  let d := handle / 16384 % 4
  let s := s.discardAll d fun v => v.writer == serial
  if (s.blocksOf handle).any (fun b => b.bid == bid) then s.setEnt d bid (layerOf ord) ((s.ent d bid (layerOf ord)).done (phaseOf ord) true) else s

/-! ## Bounds of ordinal domains (R328, R329) -/

/-- The published lower bound of a domain. -/
def gvtOf (s : State) (dom : Nat) : Nat := SMap.get 1 s.pkg.gvt dom
/-- A task with this ordinal is speculative (R328). -/
def specAt (s : State) (dom ord : Nat) : Bool := decide (s.gvtOf dom < ord)
/-- The issuing context runs a speculative ordered task (R328). -/
def speculative (s : State) : Bool :=
  (s.ctx.act.kind == .task || s.ctx.act.kind == .wavetask) && s.specAt s.ctx.act.key s.ctx.ord.toNat

end State
end Sys2Proof.Machine
end

