-- ==== Sys2Proof/Machine/Lease.lean ====
section
/-! DEFINITION. Claims, pairs and the lease of an array (14_matrix_engine, R239 to R248): what ends them. -/
namespace Sys2Proof.Machine
open Sys2Proof
namespace State

/-- A context of a pair is named by its site, while it is saved by its site + 4096: its claim is that of the saved activation, not of one that
the context runs meanwhile (R242). The pair a context belongs to, at its cluster. -/
def pairOf (s : State) (site : Nat) : Option Pair :=
  (s.cluAt (clusterOf (site % 4096))).pairs.find? fun p => p.primary == site || p.partner == some site
/-- The clusters of a pair: the gang's members, or the primary's cluster alone. -/
def membersOf (p : Pair) : List Nat := match p.gang with | some g => g.2 | none => [clusterOf (p.primary % 4096)]
/-- The commands accepted on a cluster and not completed, in acceptance order (R237): a gang's commands are held at its issuer's cluster. -/
def cmdsOn (s : State) (c : Nat) : List MCmd :=
  (((upto (c / 16 * 16) 16).map fun k => (s.cluAt k).cmds).flatten.filter fun m => m.members.contains c).mergeSort fun a b => decide (a.id ≤ b.id)
/-- The pair of `primary` holds the lease of every one of its members. -/
def holds (s : State) (p : Pair) : Bool := (membersOf p).all fun c => (s.cluAt c).lease == some p.primary

/-- A cluster whose lease is to be released gives it up once no accepted command of the pair is left (R240). -/
def settleLease (s : State) (c : Nat) : State :=
  let x := s.cluAt c
  match x.lease with
  | some p =>
    if x.releasing && !(s.cmdsOn c).any (fun m => m.primary == p) then
      s.setClu c { x with lease := none, releasing := false, runOver := false, runCount := 0, lastPrimary := p % 4096 }
    else s
  | none => s
def settleLeases (s : State) : List Nat → State
  | [] => s
  | c :: cs => settleLeases (s.settleLease c) cs

/-- Release the leases that a pair holds at some clusters, once its commands have completed. -/
def releaseAt (s : State) (primary : Nat) : List Nat → State
  | [] => s
  | c :: cs =>
    let s := if (s.cluAt c).lease == some primary then s.modClu c fun x => { x with releasing := true, runOver := true } else s
    releaseAt (s.settleLease c) primary cs
/-- Remove a pair from the clusters' lists. -/
def dropPair (s : State) (primary : Nat) : List Nat → State
  | [] => s
  | c :: cs => dropPair (s.modClu c fun x => { x with pairs := x.pairs.filter fun p => p.primary != primary }) primary cs
def setPair (s : State) (q : Pair) : List Nat → State
  | [] => s
  | c :: cs => setPair (s.modClu c fun x => { x with pairs := x.pairs.map fun p => if p.primary = q.primary then q else p }) q cs

/-- A context's claim ends (R239, R244): with the primary's the whole pair's, and its leases are released. -/
def endClaim (s : State) (site : Nat) : State :=
  match s.pairOf site with
  | none => s
  | some p =>
    if p.primary = site then (s.releaseAt site (membersOf p)).dropPair site (membersOf p)
    else s.setPair { p with partner := none } (membersOf p)

/-- A context of the holding pair is halted: the run ends, the claims stay (R242). -/
def endRun (s : State) (site : Nat) : State :=
  match s.pairOf site with
  | none => s
  | some p => s.releaseAt p.primary (membersOf p)

/-- A member of a pair gets another name, in the clusters of its die: when it is saved, and when it is restored. -/
def renameIn (s : State) (a b : Nat) : List Nat → State
  | [] => s
  | c :: cs =>
    let r := fun (x : Nat) => if x = a then b else x
    renameIn (s.modClu c fun x => { x with
      pairs := x.pairs.map fun (p : Pair) => { p with primary := r p.primary, partner := p.partner.map r }
      lease := x.lease.map r
      cmds := x.cmds.map fun (m : MCmd) => { m with primary := r m.primary } }) a b cs
def renameClaim (s : State) (site a b : Nat) : State := s.renameIn a b (upto (site / 1024 * 16) 16)

end State
end Sys2Proof.Machine
end

