-- ==== Sys2Proof/Machine/Debug.lean ====
section
/-! DEFINITION. Records of activations, the delay split, breakpoints and stops (24_debug_trace_replay, R372 to R381). -/
namespace Sys2Proof.Machine
open Sys2Proof

/-- How an activation ended (R372). -/
inductive EndBy where
  | done
  | trap
  | abort
  | hop
  deriving DecidableEq, Repr
def EndBy.num : EndBy → Nat
  | .done => 0
  | .trap => 1
  | .abort => 2
  | .hop => 3

/-- x + y, saturating at 2^64 − 1 (R376). -/
def satAdd (x : Word) (y : Nat) : Word := BitVec.ofNat 64 (min (x.toNat + y) (2 ^ 64 - 1))

namespace State

/-! ## Stops -/

/-- A stop covers a site (R377, R378): DOM codes 3 and 6 act as 2 and 5. -/
def Stop.covers (t : Stop) (site : Nat) : Bool :=
  let dom := if t.dom = 3 then 2 else if t.dom = 6 then 5 else t.dom
  dom != 7 && inScope dom t.site [] site
def stopped (s : State) (site : Nat) : Bool := s.pkg.stops.any fun t => Stop.covers t site

/-- The dies that a domain stop covers. -/
def stopDies (dom site : Nat) : List Nat := if dom = 5 ∨ dom = 6 then [0, 1, 2, 3] else [site / 1024 % 4]

/-- A breakpoint of a lower index has requested a stop of the die in the same cycle: the stop records that one (R381). -/
def beaten (s : State) (reason bp d : Nat) : Bool :=
  let ofBp := fun (r : Nat) => r == 1 || r == 3
  ofBp reason && s.pkg.stops.any fun t => t.cycle == s.cycle && ofBp t.reason && decide (t.bp < bp) && (stopDies t.dom t.site).contains d
/-- Set the stop-control fields of the dies a request covers (R380). -/
def noteStop (s : State) (reason bp site : Nat) : List Nat → State
  | [] => s
  | d :: ds =>
    let r := putBits (s.reg d 0x400000) 62 62 1
    noteStop (if s.beaten reason bp d then s.setReg d 0x400000 r
      else (s.setReg d 0x400000 (putBits (putBits r 55 52 reason) 51 48 bp)).setReg d 0x400010 (BitVec.ofNat 64 (site % 2 ^ 22))) reason bp site ds

/-- Request a domain stop (R378). -/
def requestStop (s : State) (d dom site reason bp : Nat) : State :=
  if dom = 7 then s
  else
    let t : Stop := { die := d, dom := dom, site := site % 4096, tick := s.tick d, reason := reason, bp := bp, cycle := s.cycle }
    (s.modPkg fun p => { p with stops := p.stops ++ [t] }).noteStop reason bp site (stopDies dom (site % 4096))

/-! ## Breakpoints (R377) -/

/-- Entry `i` of die `d` is armed with KIND `k` and matches `x`, unless its DOM is 7; IADDR also compares the tag. -/
def bpMatch (s : State) (d i k x : Nat) (tag : Nat) : Bool :=
  let o := 0x400200 + 32 * i
  let w := s.reg d o
  let m := bits (s.reg d (o + 8)) 55 0
  let t := s.reg d (o + 24)
  w.getLsbD 63 && bits w 62 60 == k && bits w 59 57 != 7 && (x &&& m) == (bits w 55 0 &&& m) &&
    (k != 4 || (tag &&& bits t 31 16) == (bits t 15 0 &&& bits t 31 16))

/-- Count the hits of some entries, disarm the ONCE ones, and request the stop of the lowest one. -/
def bpHit (s : State) (d site : Nat) : List Nat → State
  | [] => s
  | i :: is =>
    let o := 0x400200 + 32 * i
    let w := s.reg d o
    let h := s.reg d (o + 16)
    let s := s.setReg d (o + 16) (putBits h 63 32 (bits h 63 32 + 1))
    let s := if w.getLsbD 56 then s.setReg d o (putBits w 63 63 0) else s
    bpHit s d site is

/-- Test all entries of the site's die; none matching leaves the state alone. -/
def bpTest (s : State) (site tag : Nat) (xs : List (Nat × Nat)) (reason : Nat) : Option State :=
  let d := site / 1024 % 4
  match (upto 0 16).filter fun i => xs.any fun kx => s.bpMatch d i kx.1 kx.2 tag with
  | [] => none
  | i :: is => some ((s.bpHit d site (i :: is)).requestStop d (bits (s.reg d (0x400200 + 32 * i)) 59 57) (s.pkg.num * 4096 + site) reason i)

/-- Service activations never match (R377). -/
def isService (c : Ctx) : Bool := c.act.kind == .amo || c.act.kind == .amsg || c.act.kind == .reduce

/-! ## The activation record and the delay split -/

/-- The 64-byte record of the issuing context's activation (R372). -/
def actRecord (s : State) (how : EndBy) : List Word :=
  let c := s.ctx
  let a := c.act
  let units := if a.kind = .amo ∨ a.kind = .reduce then 0 else min c.units (2 ^ 32 - 1)
  [BitVec.ofNat 64 (a.kind.num * 2 ^ 60 + a.cls * 2 ^ 58 + how.num * 2 ^ 56 + c.tag.toNat * 2 ^ 40 + s.pkg.num * 2 ^ 12 + s.site),
   a.entry, BitVec.ofNat 64 a.sendTick, BitVec.ofNat 64 a.arr, BitVec.ofNat 64 a.start, BitVec.ofNat 64 (s.tick s.die),
   BitVec.ofNat 64 (a.key * 2 ^ 54 + c.ord.toNat), BitVec.ofNat 64 (c.src.toNat * 2 ^ 42 + units)]

/-- A record among those of its tick, in ascending SITE, after others of its site (R374). -/
def insertRec (r : Nat × List Word) : List (Nat × List Word) → List (Nat × List Word)
  | [] => [r]
  | x :: xs => if r.1 < x.1 then r :: x :: xs else x :: insertRec r xs
/-- Records in consecutive places of a trace ring, from the `i`th on. -/
def tracePut (s : State) (base n : Nat) : Nat → List (Nat × List Word) → State
  | _, [] => s
  | i, r :: rs => tracePut (s.pokeWords (gloc 0 (base + 64 * (i % n))) r.2) base n (i + 1) rs
/-- Append a record to a die's trace ring: records of one tick stand in ascending SITE (R374). -/
def traceRing (s : State) (d : Nat) (ws : List Word) : State :=
  let c := s.reg d 0x400100
  let n := 2 ^ (max 10 (min 24 (bits c 4 0)))
  let h := (s.reg d 0x400108).toNat
  let x := s.dieAt d
  let old := if x.tracedAt = s.tick d then x.traced else []
  let all := insertRec (bits (ws.getD 0 0#64) 21 0, ws) old
  let full := !c.getLsbD 63 && decide (n ≤ h)
  let now := if full then all.take old.length else all
  let s := (s.tracePut (bits c 51 12 * 4096) n (h - old.length) now).modDie d fun x => { x with tracedAt := s.tick d, traced := now }
  if full then s.bumpReg d 0x400110 else s.bumpReg d 0x400108

/-- Write an activation's record when its core traces this kind and its sampling count comes round (R373, R374). -/
def traceRec (s : State) (core : Nat) (kind : Kind) (ws : List Word) : State :=
  let t := (s.coreAt core).tracectl
  if t.getLsbD 0 && t.getLsbD (4 + kind.num) then
    let n := (s.coreAt core).traced + 1
    let s' := s.modCore core fun c => { c with traced := n }
    if n % 2 ^ (min (bits t 23 16) 16) = 0 then s'.traceRing (core / 256) ws else s'
  else s
/-- The record of the issuing context's activation. -/
def traceEnd (s : State) (how : EndBy) : State := s.traceRec (coreOf s.site) s.ctx.act.kind (s.actRecord how)

/-- Add the delays of an ending activation to its bucket (R375, R376). -/
def profileRec (s : State) (core : Nat) (kind : Kind) (src tag sent arr start : Nat) : State :=
  let t := (s.coreAt core).tracectl
  if t.getLsbD 29 then
    let b := match bits t 31 30 with
      | 0 => src % 4096 / 4 % 256
      | 1 => src % 4096 / 16 % 256
      | 2 => tag % 256
      | _ => kind.num
    let d := core / 256
    let o := 0x500000 + 0x2000 * (core % 256) + 32 * b
    let s := s.setReg d o (satAdd (s.reg d o) 1)
    let s := s.setReg d (o + 8) (satAdd (s.reg d (o + 8)) (arr - sent))
    let s := s.setReg d (o + 16) (satAdd (s.reg d (o + 16)) (start - arr))
    s.setReg d (o + 24) (satAdd (s.reg d (o + 24)) (s.tick d - start))
  else s
def profileEnd (s : State) (how : EndBy) : State :=
  if how = .abort then s
  else s.profileRec (coreOf s.site) s.ctx.act.kind s.ctx.src.toNat s.ctx.tag.toNat s.ctx.act.sendTick s.ctx.act.arr s.ctx.act.start

/-- The record and the delays of a service activation that runs no instructions (kinds AMO and REDUCE): it starts and ends now, in context `x`. -/
def serviceEnd (s : State) (x : Nat) (m : Msg) : State :=
  let core := coreOf x
  let ws := [BitVec.ofNat 64 (m.kind.num * 2 ^ 60 + m.cls * 2 ^ 58 + m.tag.toNat * 2 ^ 40 + s.pkg.num * 2 ^ 12 + x), m.entry, BitVec.ofNat 64 m.sendTick,
    BitVec.ofNat 64 m.arr, BitVec.ofNat 64 (s.tick (core / 256)), BitVec.ofNat 64 (s.tick (core / 256)), BitVec.ofNat 64 (m.key * 2 ^ 54 + m.ord),
    BitVec.ofNat 64 ((m.srcPkg * 4096 + m.src) * 2 ^ 42)]
  (s.traceRec core m.kind ws).profileRec core m.kind m.src m.tag.toNat m.sendTick m.arr (s.tick (core / 256))

end State
end Sys2Proof.Machine
end

