-- ==== Sys2Proof/Machine/Ops.lean ====
section
/-! DEFINITION. The shared operations of a unit: registers, the end of an activation, taking a trap and returning from one, and what
issuing, retiring and waiting do (02_encoding, 05_core_model). -/
namespace Sys2Proof.Machine
open Sys2Proof

/-- TRAPVAL of ENGINE (R199): a code and an address. -/
def engineVal (code : Nat) (a : Word) : Word := BitVec.ofNat 64 (code * 2 ^ 56) ||| (a &&& fmask 55 0)

/-- ENTRY of a message that hardware forms from a register no rule checks: its reserved bits and bits 1–0 are zero (R14; log entry 80). -/
def entryOf (x : Word) : Word := x &&& fmask 55 2

namespace State

/-! ## Registers (R86) -/

/-- The value of a g register; g0 reads 0. -/
def g (s : State) (r : BitVec 5) : Word := if r = 0#5 then 0#64 else SMap.get 0#64 s.ctx.g r.toNat
def v (s : State) (r : BitVec 5) : BitVec 256 := SMap.get 0#256 s.ctx.v r.toNat
def w (s : State) (r : BitVec 5) : BitVec 4096 := SMap.get 0#4096 s.ctx.w (r.toNat % 16)
/-- The value of a k register; k0 reads all ones. -/
def k (s : State) (r : Nat) : BitVec 512 := if r = 0 then BitVec.allOnes 512 else SMap.get 0#512 s.ctx.k (r % 8)

/-- When the unit read its sources, with the counter of free values then: now, but for a unit that waits, which has read them when it issued. -/
def readAt (s : State) : Nat × Nat := (s.ctx.wait.bind (·.reads)).getD (s.cycle, s.free)
/-- Results of a register that were not readable when the unit read its sources: the values before them, newest first (R32). -/
def olds (s : State) (f : File) (n : Nat) : List (BitVec 4096) :=
  (s.ctx.pend.filter fun p => p.file == f && p.num == n && decide (s.readAt.1 < p.ready)).map (·.old)

/-- A source operand read too early delivers the new or an old value, the choice separate for each operand `j` and made once for the unit (R33). -/
def early {n : Nat} (s : State) (j : Nat) (f : File) (r : Nat) (cur : BitVec n) : BitVec n :=
  match s.olds f r with
  | [] => cur
  | o :: os => (((o :: os).map (·.setWidth n)) ++ [cur]).getD ({ s with free := s.readAt.2 }.choose j (os.length + 2)) cur

/-- Source operands as units read them: `j` numbers the operand within its unit. -/
def rg (s : State) (j : Nat) (r : BitVec 5) : Word := if r = 0#5 then 0#64 else s.early j .g r.toNat (s.g r)
def rk (s : State) (j : Nat) (r : Nat) : BitVec 512 := if r = 0 then s.k 0 else s.early j .k r (s.k r)
/-- A vector source: a v register in short mode, a w register in long mode (R30), as 4,096 bits. -/
def rv (s : State) (j : Nat) (r : BitVec 5) : BitVec 4096 :=
  if s.ctx.long then s.early j .w r.toNat (s.w r) else (s.early j .v r.toNat (s.v r)).setWidth 4096

/-- What is still pending when a register's later result of latency `lat` is written: its own earlier results are readable no later than that
result (R34). -/
def overtaken (s : State) (f : File) (n lat : Nat) : List Pend :=
  (s.ctx.pend.filter fun p => !(p.file == f && p.num == n && (p.tracked || decide (lat < 2)))).map fun p =>
    if p.file = f ∧ p.num = n then { p with ready := min p.ready (s.cycle + lat) } else p
/-- A destination of latency `lat`: a later read before `lat` cycles have passed is an early one (R32, R91). -/
def remember (s : State) (f : File) (n : Nat) (old : BitVec 4096) (lat : Nat) : State :=
  let ps := s.overtaken f n lat
  if lat < 2 then s.setCtx { s.ctx with pend := ps }
  else s.setCtx { s.ctx with pend := { file := f, num := n, old := old, ready := s.cycle + lat } :: ps.filter fun p => decide (s.cycle < p.ready) }

/-- Write a g register; g0 discards the result (R30). -/
def putG (s : State) (r : BitVec 5) (x : Word) (lat : Nat := 0) : State :=
  if r = 0#5 then s
  else
    let s' := s.remember .g r.toNat ((s.g r).setWidth 4096) lat
    s'.setCtx { s'.ctx with g := SMap.set 0#64 s'.ctx.g r.toNat x }
/-- Write a g register whose result the scoreboard tracks until cycle `t` (R32). -/
def putTracked (s : State) (r : BitVec 5) (x : Word) (t : Nat) : State :=
  let s' := s.putG r x
  if r = 0#5 then s'
  else s'.setCtx { s'.ctx with pend := { file := .g, num := r.toNat, old := 0#4096, ready := t, tracked := true } :: s'.ctx.pend }
/-- The cycle in which every fixed-latency result of the context is complete. -/
def allReady (s : State) : Nat := s.ctx.pend.foldl (fun n p => max n p.ready) s.cycle
/-- Write a k register; k0 discards the result. -/
def putK (s : State) (r : Nat) (x : BitVec 512) (lat : Nat := 0) : State :=
  if r = 0 then s
  else
    let s' := s.remember .k r ((s.k r).setWidth 4096) lat
    s'.setCtx { s'.ctx with k := SMap.set 0#512 s'.ctx.k r x }
/-- Write a v register. -/
def putVShort (s : State) (r : BitVec 5) (x : BitVec 256) (lat : Nat := 0) : State :=
  let s' := s.remember .v r.toNat ((s.v r).setWidth 4096) lat
  s'.setCtx { s'.ctx with v := SMap.set 0#256 s'.ctx.v r.toNat x }
/-- Write a w register. -/
def putVLong (s : State) (r : BitVec 5) (x : BitVec 4096) (lat : Nat := 0) : State :=
  let s' := s.remember .w r.toNat (s.w r) lat
  s'.setCtx { s'.ctx with w := SMap.set 0#4096 s'.ctx.w (r.toNat % 16) x }
/-- Write a vector register of the current mode. -/
def putV (s : State) (r : BitVec 5) (x : BitVec 4096) (lat : Nat := 0) : State :=
  if s.ctx.long then s.putVLong r x lat else s.putVShort r (x.setWidth 256) lat
/-- OR events into FPFLAGS (R63), in the step in which the unit issues: an SWR of FPFLAGS after it clears them, however soon (DESIGN CHOICE, log
entry 98). -/
def raise (s : State) (f : Flags) : State := s.setCtx { s.ctx with fpflags := s.ctx.fpflags ||| f }
/-- Every fixed-latency result is complete (R34). -/
def complete (s : State) : State := s.setCtx { s.ctx with pend := [] }
/-- The context is privileged (R90). -/
def privileged (s : State) : Bool := s.ctx.ask == 0#10
/-- The width of a vector register in bits, and in bytes. -/
def vbits (s : State) : Nat := if s.ctx.long then 4096 else 256
def vbytes (s : State) : Nat := if s.ctx.long then 512 else 32

/-! ## Messages -/

/-- A context inbox of a core, by 4 × context + class, and that of a message (R82). -/
def inbox (s : State) (c i : Nat) : List Msg := SMap.get [] (s.coreAt c).inbox i
def inboxOf (m : Msg) : Nat := 4 * (m.dst % 4) + m.cls
/-- Messages and reservations that wait for room in an inbox, oldest first (R342). -/
def waitersFor (s : State) (c i : Nat) : List Waiter := s.pkg.senders.filter fun w => coreOf w.msg.dst == c && inboxOf w.msg == i && w.msg.kind != .task
/-- An inbox has a free slot of its 64, some of which may be reserved (R342, R351). -/
def slotFree (s : State) (c i : Nat) : Bool :=
  decide ((s.inbox c i).length + (s.pkg.rsvd.filter fun r => r.2.1 == c && r.2.2 == i).length < 64)
/-- A new request takes a slot: none waits before it. -/
def inboxRoom (s : State) (c i : Nat) : Bool := s.slotFree c i && (s.waitersFor c i).isEmpty
/-- Append a message at the tail of its inbox. -/
def append (s : State) (m : Msg) : State :=
  s.modCore (coreOf m.dst) fun x => { x with inbox := SMap.set [] x.inbox (inboxOf m) (SMap.get [] x.inbox (inboxOf m) ++ [m]) }
/-- Put a message into its inbox; a full inbox (64 messages) keeps it waiting at its sender (R82, R342). -/
def post (s : State) (m : Msg) : State :=
  let m := { m with arr := s.tick (dieOf m.dst) }
  if s.inboxRoom (coreOf m.dst) (inboxOf m) then s.append m
  else s.modPkg fun p => { p with senders := p.senders ++ [{ site := m.src, token := 0, msg := m }] }

/-- A message of the issuing context's activation, within the package; TAG 0 where its rule names none (log entry 81). -/
def mkMsg (s : State) (kind : Kind) (dst cls : Nat) (entry : Word) (payload : List Word) : Msg :=
  { dst := dst, src := s.site, srcPkg := s.pkg.num, dstPkg := s.pkg.num, cls := cls, kind := kind, entry := entry, sendTick := s.tick s.die,
    key := s.ctx.ask.toNat, payload := payload, inst := (s.ctx.act.msg.bind (·.inst)) }

/-- A status leaves for the sender of a message that came over a link (R366). -/
def tellPeer (s : State) (m : Msg) (st : Nat) : State := s.modPkg fun p => { p with statuses := p.statuses ++ [(m.srcPkg, m.src, st)] }
/-- A reply sets out to its requester (R32). -/
def reply (s : State) (site token status : Nat) (value : Word) : State :=
  s.modPkg fun p => { p with results := p.results ++ [(site, { token := token, status := status, value := value })] }

/-! ## The end of an activation (R85, R124) -/

/-- Errors still kept go to the fault log when their activation ends (R216, R251). -/
def logErrs (s : State) : List Err → State
  | [] => s
  | e :: es => logErrs (s.faultRecord s.die 1 e.code (s.pkg.num * 4096 + s.site) 0#64 (engineVal e.code e.addr) s.ctx.ord.toNat) es

/-- A row handler has ended: its segment may be committed, or has failed (R253). -/
def segEnd (s : State) (cmd seg : Nat) (ok : Bool) : State :=
  s.modClu (clusterOf s.site) fun x => { x with cmds := x.cmds.map fun m =>
    if m.id = cmd then { m with slots := m.slots.map fun t => if t.seg = seg then { t with st := if ok then 1 else 2 } else t } else m }

/-- What the end of the activation means for whoever started it: the reply of an AMSG handler, a row's commit, a wave task's entry, a
completed ordered task. -/
def kindEnd (s : State) (ok : Bool) : State :=
  let a := s.ctx.act
  match a.kind with
  | .amsg =>
    match a.msg.bind (·.req) with
    | some r =>
      let s := s.unreserve a.serial [lineOf r.key]
      if ok then s.reply r.asker r.token 0 (s.g 1#5) else s.reply r.asker r.token 0x17 0#64
    | none => s
  | .rowdrain => match a.msg.bind (·.seg) with | some t => s.segEnd t.1 t.2 ok | none => s
  | .wavetask =>
    let pl := (a.msg.map (·.payload)).getD []
    let h := (pl.getD 0 0#64).toNat % 65536
    let bid := (pl.getD 1 0#64).toNat % 2 ^ 32
    let s := if ok then s.waveDone h bid ((pl.getD 3 0#64).toNat % 2 ^ 24) s.ctx.ord.toNat a.serial s.ctx.delta
      else s.waveDead h bid s.ctx.ord.toNat a.serial
    keepTask s ok
  | .task => keepTask s true
  | _ => s
where
  /-- A completed ordered task may still abort until it is committed (R330). -/
  keepTask (s : State) (ok : Bool) : State :=
    match s.ctx.act.msg with
    | some m =>
      if ok then s.modCore (coreOf s.site) fun c =>
        { c with ordq := c.ordq ++ [{ msg := m, done := true, reads := s.ctx.reads, serial := s.ctx.act.serial }] }
      else s
    | none => s

/-- Release the long slot a context holds (R93). -/
def freeSlot (s : State) : State :=
  if s.ctx.long then
    let s' := s.modClu (clusterOf s.site) fun x =>
      { x with longSlots := SMap.set 0 x.longSlots (4 * (coreIn s.site / 4) + s.ctx.slot.toNat) 0 }
    s'.setCtx { s'.ctx with long := false, slot := 0#2, w := [] }
  else s

/-- The activation ends (R85): its record, its errors, its claims, its slot, its monitor entries; the context becomes DORMANT. -/
def endActivation (s : State) (how : EndBy) : State :=
  let s := (s.traceEnd how).profileEnd how
  let s := s.logErrs (s.ctx.xerrs ++ s.ctx.merrs)
  let s := if how = .done then s.kindEnd true else if how = .trap then s.kindEnd false else s
  let s := (s.endClaim s.site).freeSlot
  s.setCtx { s.ctx with st := .dormant, pend := [], buf := [], susp := false, wait := none, cur := none, replies := [], mons := [], reads := [],
                        delta := none, xerrs := [], merrs := [], rowh := none, aborting := false, victim := false, inPlace := false, frozen := false, trapFrm := false }

/-! ## Traps (R95, R96) -/

/-- An unhandled trap: the fault record, a FAULT breakpoint's stop, and the end of the activation (R96). -/
def unhandled (s : State) (cause : Byte) : State :=
  let site := s.pkg.num * 4096 + s.site
  let s := s.faultRecord s.die 0 cause.toNat site s.ctx.trappc s.ctx.trapval s.ctx.ord.toNat
  let s := if isService s.ctx then s else (s.bpTest s.site s.ctx.tag.toNat [(6, cause.toNat)] 3).getD s
  s.endActivation .trap

/-- Trap entry (R95). The unit that raised the trap has had no effect (R22): `s` is the state before it. EXTENT_GONE also writes its
fault record of SOURCE 6 (R196), and MEMERR counts in UNCOR of the context's die (R397; log entry 92). -/
def takeTrap (s : State) (cause : Byte) (val : Word) : State :=
  let c := s.ctx
  let s := if cause = 0x13#8 then s.faultRecord s.die 6 cause.toNat (s.pkg.num * 4096 + s.site) (c.pc.setWidth 64) val c.ord.toNat else s
  let s := if cause = 0x0F#8 then s.countErr s.die 32 else s
  let held := c.trapFrm || (c.frm.act && !c.susp)
  let s1 := s.setCtx { c with trappc := c.pc.setWidth 64, trapval := val, inh := true, cause := cause, pend := [], buf := [], susp := held,
                              trapFrm := held, wait := none, cur := none, skipBp := false, st := .ready }
  if c.trapvec = 0#64 ∨ c.inh = true then s1.unhandled cause
  else s1.setCtx { s1.ctx with pc := c.trapvec.setWidth 56 }

/-- Return from a trap (R122): INH ← 0 and PC ← TRAPPC, with every fixed-latency result complete (R34). A frame in progress is captured
again at the next unit boundary (R94). -/
def returnFromTrap (s : State) : State :=
  s.setCtx { s.ctx with inh := false, pc := s.ctx.trappc.setWidth 56, pend := [], buf := [], susp := false, trapFrm := false }

end State

/-! ## Units -/

/-- What the body of a unit answers: it is done; it jumped; its activation has ended; it raises a trap (R22: with no effect); it waits
(R81) with the effects that waiting has; or it is a step the device does not take. -/
inductive Res where
  | ok (s : State)
  | jump (s : State) (pc : BitVec 56)
  | ended (s : State)
  | trap (cause : Byte) (val : Word)
  /-- A trap that also has the effect of reporting an error once (R217, R251). -/
  | report (s : State) (cause : Byte) (val : Word)
  | wait (s : State)
  /-- The unit is STALLED until a cycle, and then issues (R81). -/
  | stall (s : State) (until' : Nat)
  | none (name : String)

namespace State

/-- A unit takes a cycle and the delay the schedule gives it (log entry 1); the free values it may have used are spent (log entry 7). -/
def spend (s : State) : State :=
  { s with cycle := s.cycle + 1 + s.plan.delays.headD 0, free := s.free + 65536, plan := { s.plan with delays := s.plan.delays.tail } }

/-- The next unit of a repeat frame after the current one (R94), with the program counter that names it. -/
def nextInFrame (c : Ctx) (next : BitVec 56) : Ctx :=
  let f := c.frm
  if f.uidx = f.len then
    if f.left = 1#32 then { c with frm := { f with act := false, uidx := 0#4, left := 0#32, pidx := f.pidx + 1#5 }, buf := [], susp := c.trapFrm, pc := next }
    else { c with frm := { f with uidx := 0#4, left := f.left - 1#32, pidx := f.pidx + 1#5 }, pc := c.frmbase.setWidth 56 }
  else { c with frm := { f with uidx := f.uidx + 1#4 }, pc := next }

/-- A replayed unit of a frame is in progress. -/
def replaying (c : Ctx) : Bool := c.frm.act && !c.susp && !c.buf.isEmpty

/-- A unit completes: it counts once (R83), its stall count applies (R31), and the program counter moves on; `rep` says that a frame
replays it. -/
def retire (s : State) (rep : Bool) (stl : BitVec 3) (pc : BitVec 56) : State :=
  let c := s.ctx
  let c := if rep then nextInFrame c pc else { c with pc := pc }
  (s.setCtx { c with units := c.units + 1, wait := none, cur := none, skipBp := false, st := if stl = 0#3 then .ready else .stalled,
                     readyAt := s.cycle + 1 + stl.toNat }).spend

/-- The context waits (R81); the unit issues again when the context is served next. -/
def await (s : State) : State := (s.setCtx { s.ctx with st := .waiting }).spend

/-- The wait in progress, or a new one from now. -/
def waitNow (s : State) : Wait := s.ctx.wait.getD { cycle := s.cycle, tick := s.tick s.die }
def setWait (s : State) (w : Wait) : State :=
  s.setCtx { s.ctx with wait := some { w with short := false, reads := some (w.reads.getD (s.cycle, s.free)) } }
/-- The context is STALLED until a cycle (R81). -/
def stallFor (s : State) (t : Nat) : State := (s.setCtx { s.ctx with st := .stalled, readyAt := t, wait := some { s.waitNow with short := true } }).spend

/-- The address after a unit of `n` words. -/
def after (s : State) (n : Nat) : BitVec 56 := s.ctx.pc + BitVec.ofNat 56 (4 * n)

/-- The outcome of a unit of `n` words with stall count `stl` (R22, R31, R81, R95). -/
def finish (s : State) (n : Nat) (stl : BitVec 3) : Res → Host.Outcome State Fault Refusal
  | .ok t => .next (t.retire (replaying s.ctx) stl (s.after n))
  | .jump t pc => .next (t.retire (replaying s.ctx) stl pc)
  | .ended t => .next t.spend
  | .trap c v => .next (s.takeTrap c v).spend
  | .report t c v => .next (t.takeTrap c v).spend
  | .wait t => .next t.await
  | .stall t u => .next (t.stallFor u)
  | .none name => .fault (.noSuchStep name)

/-- The first source of a list that is not readable yet (R33): where a unit reads several too early, R33 does not say which one STALL_SHORT names,
and the model takes the first of the unit's list (DESIGN CHOICE, log entry 97). -/
def tooEarly (s : State) : List (File × Nat) → Option (File × Nat)
  | [] => none
  | (f, r) :: rs => if (f == .g || f == .k) && r == 0 then tooEarly s rs else if (s.olds f r).isEmpty then tooEarly s rs else some (f, r)

/-- When the first source of a list that the scoreboard tracks is ready (R32). -/
def awaited (s : State) : List (File × Nat) → Option Nat
  | [] => none
  | (f, r) :: rs =>
    if (f == .g || f == .k) && r == 0 then awaited s rs
    else match s.ctx.pend.find? fun p => p.file == f && p.num == r && decide (s.cycle < p.ready) && p.tracked with
      | some p => some p.ready
      | none => awaited s rs

/-- TRAPVAL of STALL_SHORT (R33). -/
def stallVal (f : File) (r : Nat) : Word :=
  BitVec.ofNat 64 ((match f with | .g => 0 | .v => 1 | .w => 2 | .k => 3) * 32 + r % 32)

/-- Issue a unit: it waits for the sources that the scoreboard tracks (R32); with checking on, another source read too early raises STALL_SHORT
before the unit's own faults (R33, R44). -/
def unit (s : State) (n : Nat) (stl : BitVec 3) (srcs : List (File × Nat)) (body : State → Res) : Host.Outcome State Fault Refusal :=
  match s.awaited srcs with
  | some t => s.finish n stl (.stall s t)
  | none => match (if s.ctx.chksb then s.tooEarly srcs else none) with
    | some (f, r) => s.finish n stl (.trap 0x04#8 (stallVal f r))
    | none => s.finish n stl (body s)

/-- The same for a privileged form: PRIVILEGE comes first (R44, R90). -/
def unitP (s : State) (n : Nat) (stl : BitVec 3) (srcs : List (File × Nat)) (body : State → Res) : Host.Outcome State Fault Refusal :=
  if s.privileged then s.unit n stl srcs body else s.finish n stl (.trap 0x0E#8 0#64)

/-- The same for a unit whose operands may ask for a CLASS that its issuer may not use: PRIVILEGE comes first (R44, R341, R354). -/
def unitC (s : State) (n : Nat) (stl : BitVec 3) (srcs : List (File × Nat)) (bad : State → Bool) (body : State → Res) : Host.Outcome State Fault Refusal :=
  match s.awaited srcs with
  | some t => s.finish n stl (.stall s t)
  | none => if bad s then s.finish n stl (.trap 0x0E#8 0#64) else s.unit n stl srcs body

/-- A vector source's file in the current mode. -/
def vf (s : State) : File := if s.ctx.long then .w else .v
/-- Latency of a vector result by mode, and one more with a MOD prefix (R91). -/
def vlat (s : State) (p : Pre) (short long : Nat) : Nat := (if s.ctx.long then long else short) + (if p.mod.isSome then 1 else 0)

/-- A step of an engine or of the host: no unit, no time of its own. -/
def event (s : State) : Res → Host.Outcome State Fault Refusal
  | .ok t => .next { t with free := t.free + 65536 }
  | .jump t _ => .next t
  | .ended t => .next { t with free := t.free + 65536 }
  | .trap _ _ => .next s
  | .report t _ _ => .next t
  | .wait t => .next t
  | .stall t _ => .next t
  | .none name => .fault (.noSuchStep name)

end State
end Sys2Proof.Machine
end

