-- ==== Sys2Proof/Machine/Operands.lean ====
section
/-! DEFINITION. Operand forms: integer functions on registers, lanes of vector registers, masks, element types. -/
namespace Sys2Proof.Machine
open Sys2Proof

/-! ## Scalar integer functions (R105 to R109) -/

/-- The functions of ALU and ALUW, in the order of their fn codes (R105). -/
inductive AluFn where
  | add
  | sub
  | and
  | or
  | xor
  | andn
  | orn
  | xnor
  | shl
  | shr
  | sar
  | rol
  | ror
  | slt
  | sltn
  | min
  | max
  | minn
  | maxn
  | absd
  deriving DecidableEq, Repr

/-- The table's x modulo 2^w on patterns of width w, with shift and rotate counts modulo w (R105). -/
def aluVal {w : Nat} (f : AluFn) (a b : BitVec w) : BitVec w :=
  let c := b.toNat % w
  match f with
  | .add => a + b
  | .sub => a - b
  | .and => a &&& b
  | .or => a ||| b
  | .xor => a ^^^ b
  | .andn => a &&& ~~~b
  | .orn => a ||| ~~~b
  | .xnor => ~~~(a ^^^ b)
  | .shl => a <<< c
  | .shr => a >>> c
  | .sar => a.sshiftRight c
  | .rol => a.rotateLeft c
  | .ror => a.rotateRight c
  | .slt => if a.slt b then 1#w else 0#w
  | .sltn => if a.ult b then 1#w else 0#w
  | .min => if a.slt b then a else b
  | .max => if a.slt b then b else a
  | .minn => if a.ult b then a else b
  | .maxn => if a.ult b then b else a
  | .absd => if a.slt b then b - a else a - b

/-- The exact function under a MOD prefix (R104, R105): only ADD, SUB and ABSD honour one. -/
def aluInt (f : AluFn) (x y : Int) : Int :=
  match f with
  | .sub => x - y
  | .absd => ((x - y).natAbs : Int)
  | _ => x + y

/-- The result of ALU at width w, with or without a MOD prefix (R105). -/
def aluRes {w : Nat} (f : AluFn) (m : Option Mod) (a b : BitVec w) : BitVec w :=
  match m with
  | none => aluVal f a b
  | some m => modInt true w (some m) (aluInt f (modSrcInt m.absa m.nega a.toInt) (modSrcInt m.absb m.negb b.toInt))

/-- The low word of a register (R105). -/
def low32 (x : Word) : BitVec 32 := x.setWidth 32

/-- The functions of MUL (R106). -/
inductive MulFn where
  | lo
  | hi
  | hin
  | hisn
  | w
  | wn
  deriving DecidableEq, Repr

def mulRes (f : MulFn) (m : Option Mod) (a b : Word) : Word :=
  match f with
  | .lo => match m with
    | none => a * b
    | some md => modInt true 64 m (modSrcInt md.absa md.nega a.toInt * modSrcInt md.absb md.negb b.toInt)
  | .hi => BitVec.ofInt 64 (a.toInt * b.toInt / (2 ^ 64 : Nat))
  | .hin => BitVec.ofNat 64 (a.toNat * b.toNat / 2 ^ 64)
  | .hisn => BitVec.ofInt 64 (a.toInt * (b.toNat : Int) / (2 ^ 64 : Nat))
  | .w => match m with
    | none => sext64 (low32 a * low32 b)
    | some md => sext64 (modInt true 32 m (modSrcInt md.absa md.nega (low32 a).toInt * modSrcInt md.absb md.negb (low32 b).toInt))
  | .wn => BitVec.ofNat 64 ((low32 a).toNat * (low32 b).toNat)

/-- Division at width w (R107): the quotient and the remainder; nothing traps. -/
def divRes {w : Nat} (signed : Bool) (n d : BitVec w) : BitVec w × BitVec w :=
  if d = 0#w then (BitVec.allOnes w, n)
  else if signed then (n.sdiv d, n.srem d)
  else (n / d, n % d)

/-- Leading zeros of a pattern, from bit i − 1 down. -/
def clzFrom {w : Nat} (x : BitVec w) : Nat → Nat
  | 0 => 0
  | i + 1 => if x.getLsbD i then 0 else 1 + clzFrom x i
def clz {w : Nat} (x : BitVec w) : Nat := clzFrom x w
/-- Trailing zeros among `n` bits from bit i up. -/
def ctzFrom {w : Nat} (x : BitVec w) (i : Nat) : Nat → Nat
  | 0 => 0
  | n + 1 => if x.getLsbD i then 0 else 1 + ctzFrom x (i + 1) n
def ctz {w : Nat} (x : BitVec w) : Nat := ctzFrom x 0 w
/-- One bits among the low `n`. -/
def popcTo {w : Nat} (x : BitVec w) : Nat → Nat
  | 0 => 0
  | n + 1 => (if x.getLsbD n then 1 else 0) + popcTo x n
def popc {w : Nat} (x : BitVec w) : Nat := popcTo x w
/-- Bytes of a doubleword in reverse order. -/
def bswap (x : Word) : Word := BitVec.ofNat 64 (bytesToNat (natToBytes 8 x.toNat).reverse)

/-- Field position and length of EXTR, EXTRN and DEP (R108). -/
def fieldPos (b : Word) : Nat := bits b 5 0
def fieldLen (b : Word) : Nat := bits b 13 8 + 1
def extrRes (signed : Bool) (a b : Word) : Word :=
  let p := fieldPos b
  let n := fieldLen b
  if signed then ((a.sshiftRight p).setWidth n).signExtend 64 else ((a >>> p).setWidth n).setWidth 64
def depRes (d a b : Word) : Word :=
  let m : Word := BitVec.ofNat 64 ((2 ^ fieldLen b - 1) * 2 ^ fieldPos b)
  (d &&& ~~~m) ||| ((a <<< fieldPos b) &&& m)

/-! ## Element types (R28, R129) -/

/-- Width of an integer-class element. -/
def intBits (e : BitVec 3) : Nat := match e.toNat % 4 with | 0 => 8 | 1 => 16 | 2 => 32 | _ => 64
def intSigned (e : BitVec 3) : Bool := decide (e.toNat < 4)
/-- Width of a float-class element; q8 and q4 by their code widths. -/
def floatBits (e : BitVec 3) : Nat := match e.toNat with | 0 => 32 | 1 => 16 | 2 => 16 | 3 => 8 | 4 => 8 | 5 => 4 | 6 => 8 | _ => 4

/-! ## Lanes (R129, R130) -/

/-- Lane i of width b. -/
def lane (b : Nat) (x : BitVec 4096) (i : Nat) : BitVec b := x.extractLsb' (b * i) b

/-- Lanes packed from lane 0 up, as a number. -/
def packLanes (b : Nat) : List (BitVec b) → Nat
  | [] => 0
  | x :: xs => x.toNat + 2 ^ b * packLanes b xs
def ofLanes (b : Nat) (xs : List (BitVec b)) : BitVec 4096 := BitVec.ofNat 4096 (packLanes b xs)

namespace State

/-- The mask register that a mask prefix names (R39); k0 or no prefix leaves every lane active. -/
def maskOf (s : State) (p : Pre) : BitVec 512 := match p.mask with | some m => s.rk 7 m.toNat | none => BitVec.allOnes 512
/-- The mask as a source for the ready test (R33). -/
def maskSrc (p : Pre) : List (File × Nat) := match p.mask with | some m => [(.k, m.toNat)] | none => []

/-- The number of lanes of width b in the current mode (R129). -/
def lanes (s : State) (b : Nat) : Nat := s.vbits / b

end State

/-- Mask bit of lane i of width b: 4-bit lanes are governed by bytes (R130). -/
def activeLane (m : BitVec 512) (b i : Nat) : Bool := if b = 4 then m.getLsbD (i / 2) else m.getLsbD i

/-- Lanes 0 to n − 1 of a result: `f` on active lanes with its flags, the old lane elsewhere (R130, R63). -/
def laneOp (m : BitVec 512) (b n : Nat) (old : BitVec 4096) (f : Nat → BitVec b × Flags) : BitVec 4096 × Flags :=
  let rs := (upto 0 n).map fun i => if activeLane m b i then f i else (lane b old i, 0#5)
  (ofLanes b (rs.map (·.1)), rs.foldl (fun a r => a ||| r.2) 0#5)

/-- Bits of a k register set by lane tests: active lanes below n change, the others stay (R136). -/
def maskBits (m old : BitVec 512) (n : Nat) (f : Nat → Bool) : BitVec 512 :=
  let rs := (upto 0 512).map fun i => BitVec.ofBool (if decide (i < n) && m.getLsbD i then f i else old.getLsbD i)
  BitVec.ofNat 512 (packLanes 1 rs)

end Sys2Proof.Machine
end

