-- ==== Sys2Proof/Machine/Flags.lean ====
section
/-! DEFINITION. What comparisons and reductions raise, and how a unit joins its events to FPFLAGS (R62, R63, R139). -/
namespace Sys2Proof.Machine
open Sys2Proof

/-- The six orderings of VCMPI and the seven of VCMPF (R136, R139). -/
inductive CmpFn where
  | eq
  | ne
  | lt
  | le
  | gt
  | ge
  | un
  deriving DecidableEq, Repr

/-- Integer comparison. -/
def cmpInt (f : CmpFn) (a b : Int) : Bool :=
  match f with
  | .eq => decide (a = b)
  | .ne => decide (a ≠ b)
  | .lt => decide (a < b)
  | .le => decide (a ≤ b)
  | .gt => decide (b < a)
  | .ge => decide (b ≤ a)
  | .un => false

/-- Floating-point comparison with the event it raises: any NaN in an ordered one, a signalling NaN in EQ, NE and UN (R139). -/
def cmpFloat (f : CmpFn) (a b : Ex) : Bool × Flags :=
  if a.isNan || b.isNan then
    let sig := match a, b with
      | .nan v, .nan w => v || w
      | .nan v, _ => v
      | _, .nan w => w
      | _, _ => false
    match f with
    | .eq => (false, flagIf sig Flags.nv)
    | .ne => (true, flagIf sig Flags.nv)
    | .un => (true, flagIf sig Flags.nv)
    | _ => (false, Flags.nv)
  else
    let c := Ex.cmp a b
    (match f with
     | .eq => c == .eq
     | .ne => c != .eq
     | .lt => c == .lt
     | .le => c != .gt
     | .gt => c == .gt
     | .ge => c != .lt
     | .un => false, 0#5)

/-- An FP32 tree of a reduction (R68): one level, then the root; `n` bounds the levels. -/
def treeLevel (op : Ex → Ex → Ex) : List (BitVec 32) → List (BitVec 32) × Flags
  | x :: y :: rest =>
    let r := roundEx .f32 .rne false (op (f32Val x) (f32Val y))
    let t := treeLevel op rest
    (BitVec.ofNat 32 r.1 :: t.1, r.2 ||| t.2)
  | xs => (xs, 0#5)
/-- The two children of the root: every level but the last. -/
def treeTo2 (op : Ex → Ex → Ex) : Nat → List (BitVec 32) → List (BitVec 32) × Flags
  | 0, xs => (xs, 0#5)
  | n + 1, xs =>
    if xs.length ≤ 2 then (xs, 0#5)
    else
      let l := treeLevel op xs
      let t := treeTo2 op n l.1
      (t.1, l.2 ||| t.2)
/-- The root of the tree as FP32 (R68). -/
def treeRoot (op : Ex → Ex → Ex) (xs : List (BitVec 32)) : BitVec 32 × Flags :=
  let t := treeTo2 op 16 xs
  match t.1 with
  | [x, y] => let r := roundEx .f32 .rne false (op (f32Val x) (f32Val y)); (BitVec.ofNat 32 r.1, t.2 ||| r.2)
  | x :: _ => (x, t.2)
  | [] => (0#32, t.2)

namespace State
/-- A vector result and its events (R63). -/
def putVF (s : State) (r : BitVec 5) (x : BitVec 4096 × Flags) (lat : Nat) : State := (s.putV r x.1 lat).raise x.2
end State
end Sys2Proof.Machine
end

