-- ==== Sys2Proof/Machine/CtlSpace.lean ====
section
/-! DEFINITION. A die's control space and node pool as memory shows them (R387, R281, R282, and the registers of R162, R194, R321, R332, R367,
R371 to R382, R389, R394, R396, R398, R400): what a read returns, and what a write sets and starts. -/
namespace Sys2Proof.Machine
open Sys2Proof

/-- A node index as a field: all ones for none (R282). -/
def nodeIdx (o : Option Nat) : Nat := o.getD 0xFFFFFFFF

/-- The words of a context record (R281). -/
def recWords (r : Rec) : List Word :=
  [BitVec.ofNat 64 (2 ^ 63 + r.bsz * 2 ^ 61 + (r.layers - 1) * 2 ^ 53 + r.key * 2 ^ 32 + nodeIdx r.leaf),
   BitVec.ofNat 64 (r.pfmt * 2 ^ 62 + r.length), BitVec.ofNat 64 (r.retain * 2 ^ 56 + r.thrtab),
   BitVec.ofNat 64 (r.row1 * 2 ^ 48 + r.row0 * 2 ^ 32 + nodeIdx r.root)]

/-- The words of node `i` of die `d` (R282); where its tables lie is the engine's choice (log entry 9). -/
def nodeWords (d i : Nat) (n : Node) : List Word :=
  [BitVec.ofNat 64 (nodeIdx n.parent * 2 ^ 32 + nodeIdx n.child), BitVec.ofNat 64 (nodeIdx n.sibling * 2 ^ 32 + n.share),
   BitVec.ofNat 64 (n.start * 2 ^ 40 + n.first * 2 ^ 26 + n.runlen), BitVec.ofNat 64 n.tokens,
   BitVec.ofNat 64 (Config.blockTable d i), (Config.vmapDpa d i).setWidth 64, BitVec.ofNat 64 n.wstamp, 0x8000000000000000#64]

/-- SPACING of a die (R333): Min(64, Max(1, Ceil(ISTEP / 16 × 2250 / DIDT_LIMIT))), 64 for a limit of 0. -/
def State.spacing (s : State) (d : Nat) : Nat :=
  let lim := bits (s.reg d 0x3000) 31 16
  let istep := bits (s.reg d 0x3008) 27 16
  if lim = 0 then 64 else min 64 (max 1 ((istep * 2250 + 16 * lim - 1) / (16 * lim)))

/-- The kinds of a control space's offsets that have a value of their own to read. -/
def State.ctlRead (s : State) (d o : Nat) : Word :=
  if o = 0x1000 then putBits (s.reg d o) 63 63 (if (s.dieAt d).winStart.isSome then 1 else 0)
  else if o = 0x3008 then putBits (s.reg d o) 6 0 (s.spacing d)
  else if o = 0x7008 then putBits (s.reg d o) 63 63 (if (s.dieAt d).publishing.isSome then 1 else 0)
  else if 0x8000 ≤ o ∧ o < 0x8048 then (if o = 0x8040 ∧ (s.dieAt d).loading.isSome = true then putBits 0#64 62 62 1 else 0#64)
  else if 0x100000 ≤ o ∧ o < 0x200000 then
    (match SMap.get none (s.dieAt d).recs ((o - 0x100000) / 64) with
     | some r => (recWords r).getD (o % 64 / 8) 0#64
     | none => 0#64)
  else s.reg d o

/-- The word at offset `o` of the node pool of die `k` (0 to 3), or of the tables of die `k % 4`: its block tables (4 to 7), 64 KiB for each node, and its
slot directories (8 and up), 8 KiB for each block (R282, R284). -/
def State.poolRead (s : State) (k o : Nat) : Word :=
  let d := k % 4
  if k < 4 then
    match SMap.get none (s.dieAt d).nodes (o / 128) with
    | some n => (nodeWords d (o / 128) n).getD (o % 128 / 8) 0#64
    | none => 0#64
  else if k < 8 then
    match ((SMap.get none (s.dieAt d).nodes (o / 2 ^ 16)).bind fun n => n.blocks[o % 2 ^ 16 / 16]?) with
    | some b => if o % 16 < 8 then BitVec.ofNat 64 (b.rowoff * 2 ^ 32 + b.bid) else BitVec.ofNat 64 (Config.slotDir d b.bid)
    | none => 0#64
  else
    let e := SMap.get {} (s.dieAt d).dirs (512 * (o / 2 ^ 13) + o % 2 ^ 13 / 16)
    if o % 16 < 8 then BitVec.ofNat 64 (dpaOf e.store) else BitVec.ofNat 64 (if e.store = 0 then 0 else e.vord)

/-- The staged key pair of a die (R398). -/
def State.staged (s : State) (d : Nat) : Nat := bytesToNat (((upto 0 8).map fun i => natToBytes 8 (s.reg d (0x8000 + 8 * i)).toNat).flatten)
/-- An engine's step that a register write starts (R4). -/
def State.start (s : State) (d : Nat) (t : Todo) : State := s.modPkg fun p => { p with todo := p.todo ++ [(d, t)] }

/-- The multiples of 100,000 ticks after tick `t`, up to tick `u` (R400). -/
def telDue (t u : Nat) : List Nat := (upto (t / 100000 + 1) (u / 100000 - t / 100000)).map (· * 100000)
/-- A privileged write of the register at offset `o` of die `d`, to the bits that `m` selects (R4). -/
def State.ctlWrite (s : State) (d o : Nat) (v m : Word) : State :=
  let k := ctlMask d o &&& m
  let x := v &&& m
  let on := (s.reg d o).getLsbD 63
  let s := s.setReg d o ((s.reg d o &&& ~~~k) ||| (x &&& k))
  if o = 0x4000 then s.modDie d fun x =>
    { x with lastTel := s.tick d, telOwed := x.telOwed ++ if on then telDue x.lastTel (s.tick d) else [] }
  else if o = 0x0A8 then (if x.getLsbD 62 then s.start d .warmReset else s)
  else if o = 0x120 then (if x.getLsbD 0 then s.start d .attestation else s)
  else if o = 0x1000 then
    (if x.getLsbD 62 && (s.reg d o).getLsbD 62 then (s.setReg d o (putBits (s.reg d o) 62 62 0)).start d .readyClear else s)
  else if o = 0x7010 then (if x.getLsbD 0 then s.start d .publishGo else s)
  else if o = 0x8040 then
    (if x.getLsbD 63 && (s.dieAt d).loading.isNone then s.modDie d fun y => { y with loading := some (x, s.staged d) } else s)
  else if o = 0x400008 then
    (if x.getLsbD 63 && !x.getLsbD 62 then s.start d (.stopGo x) else if x.getLsbD 62 && !x.getLsbD 63 then s.start d .stopResume else s)
  else if o = 0x400100 ∨ o = 0x400108 then s.modDie d fun x => { x with traced := [] }
  else if o = 0x400400 ∧ d = 0 then
    (match bits x 3 0 with
     | 1 => s.start d .checkpoint
     | 2 => s.start d .endrec
     | 3 => s.start d .replay
     | 4 => s.start d .abort
     | _ => s)
  else s

/-! ## The control space and the node pool within device-physical space (R389, R282) -/

/-- A location of a control space: its die and offset. MKID 0 names it. -/
def ctlOf (loc : Nat) : Option (Nat × Nat) :=
  if isGlobal loc && mkidOf loc == 0 && decide (Config.csBase 0 ≤ dpaOf loc) then some ((dpaOf loc - Config.csBase 0) / 2 ^ 24 % 4, dpaOf loc % 2 ^ 24)
  else none
/-- A location of a node pool, of the block tables or of the slot directories of a die, as `poolRead` numbers them, and its offset. -/
def poolOf (loc : Nat) : Option (Nat × Nat) :=
  let a := dpaOf loc
  if !isGlobal loc || mkidOf loc != 0 then none
  else if Config.nodeBase 0 ≤ a ∧ a < Config.nodeBase 0 + 2 ^ 41 then some ((a - Config.nodeBase 0) / 2 ^ 39, (a - Config.nodeBase 0) % 2 ^ 39)
  else if Config.blockTable 0 0 ≤ a ∧ a < Config.blockTable 0 0 + 2 ^ 50 then some (4 + (a - Config.blockTable 0 0) / 2 ^ 48, (a - Config.blockTable 0 0) % 2 ^ 48)
  else if Config.slotDir 0 0 ≤ a ∧ a < Config.slotDir 0 0 + 2 ^ 47 then some (8 + (a - Config.slotDir 0 0) / 2 ^ 45, (a - Config.slotDir 0 0) % 2 ^ 45)
  else none

namespace State

/-- A byte of storage: of a pool crate, some value written to it earlier (R309). -/
def stored (s : State) (loc : Nat) : Byte :=
  match SMap.get [] s.pkg.hist loc with
  | [] => s.byte loc
  | b :: bs => ((b :: bs) ++ [s.byte loc]).getD (Config.poolChoice s.free loc % (bs.length + 2)) 0#8
/-- One byte as an access reads it: storage, a control register, or a node. -/
def rdByte (s : State) (loc : Nat) : Byte :=
  match ctlOf loc with
  | some (d, o) => ((s.ctlRead d (o / 8 * 8)) >>> (8 * (o % 8))).setWidth 8
  | none =>
    match poolOf loc with
    | some (d, o) => ((s.poolRead d (o / 8 * 8)) >>> (8 * (o % 8))).setWidth 8
    | none => s.stored loc
def rdN (s : State) (loc : Nat) : Nat → List Byte
  | 0 => []
  | n + 1 => s.rdByte loc :: rdN s (loc + 1) n

/-- Write bytes into control registers, register part by register part. -/
def ctlBytes (s : State) (d o : Nat) (bs : List Byte) : Nat → State
  | 0 => s
  | n + 1 =>
    let k := 8 - o % 8
    let part := bs.take k
    let v := BitVec.ofNat 64 (bytesToNat part * 2 ^ (8 * (o % 8)))
    let m := BitVec.ofNat 64 ((2 ^ (8 * part.length) - 1) * 2 ^ (8 * (o % 8)))
    let s := s.ctlWrite d (o / 8 * 8) v m
    if bs.length ≤ k then s else ctlBytes s d (o + k) (bs.drop k) n

/-- An ordinary write by an access: storage, or control registers; the node pool and its tables are written by their engine alone (R281, R282). -/
def wr (s : State) (loc : Nat) (bs : List Byte) : State :=
  match ctlOf loc with
  | some (d, o) => (s.ctlBytes d o bs (bs.length / 8 + 2)).noteWrite (lineOf loc)
  | none => if (poolOf loc).isSome then s else s.store loc bs

/-- The bytes of several runs, and a write of bytes to several runs. -/
def rdRuns (s : State) : List (Nat × Nat) → List Byte
  | [] => []
  | (loc, n) :: rs => s.rdN loc n ++ rdRuns s rs
def wrRuns (s : State) : List (Nat × Nat) → List Byte → State
  | [], _ => s
  | (loc, n) :: rs, bs => wrRuns (s.wr loc (bs.take n)) rs (bs.drop n)

end State
end Sys2Proof.Machine
end

