-- ==== Sys2Proof/Machine/Xlate.lean ====
section
/-! DEFINITION. Windows, the pantry and translation (10_memory_hierarchy, R167 to R180): from an address an agent forms to the locations it
names, a fault, or a wait. -/
namespace Sys2Proof.Machine
open Sys2Proof

/-- Who makes an access: its site (and so its die and core), address-space key, memory key and privilege. -/
structure Who where
  /-- The command that makes it; 0 for a context. -/
  id : Nat := 0
  site : Nat
  key : Nat
  mkid : Nat
  priv : Bool
  deriving DecidableEq, Repr

/-- What an access needs of a mapping (R179, R151): read, write, both, fetch, or PUBF's write or execute (R157). -/
inductive Need where
  | read
  | write
  | both
  | fetch
  | code
  deriving DecidableEq, Repr

/-! ## The walk (R178, R179) -/

/-- The end of a walk: PAGE_INVALID, an uncorrectable line of a table (R397), an absent page, or a leaf at a level. -/
inductive Walk where
  | bad
  | broken
  | absent
  | leaf (level : Nat) (entry : Word)
  deriving DecidableEq, Repr

/-- The address bit at which a level's index starts: 2^pageShift is the size of a page a leaf there maps. -/
def pageShift (level : Nat) : Nat := match level with | 0 => 16 | 1 => 21 | 2 => 30 | _ => 43
/-- The index of a level (R178). -/
def walkIdx (level va : Nat) : Nat := va / 2 ^ pageShift level % (match level with | 0 => 32 | 1 => 512 | _ => 8192)
/-- The size of the table that a non-leaf entry of a level names. -/
def nextTable (level : Nat) : Nat := match level with | 3 => 65536 | 2 => 4096 | _ => 256
/-- ADDR of an entry, as a DPA. -/
def entAddr (e : Word) : Nat := bits e 51 8 * 256

/-- The entry is valid at its level (R179). -/
def entValid (level : Nat) (e : Word) : Bool :=
  let leaf := e.getLsbD 5
  e.getLsbD 0 && bits e 63 52 == 0 && !e.getLsbD 7 && !(leaf && level == 3) && !(!leaf && level == 0) &&
    (if leaf then entAddr e % 2 ^ pageShift level == 0 && !(e.getLsbD 3 && e.getLsbD 4)
     else entAddr e % nextTable level == 0 && !e.getLsbD 6 && !e.getLsbD 4 && !e.getLsbD 3 && !e.getLsbD 2)

namespace State

/-- The walk from a table of level `level` down; tables are read under memory key 0. An uncorrectable line of a table returns no entry (R397): the
access reports it as it reports one of its own lines (DEDUCED, log entry 105). -/
def walkFrom (s : State) (va : Nat) : Nat → Nat → Walk
  | 0, _ => .bad
  | n + 1, table =>
    let loc := gloc 0 (table + 8 * walkIdx n va)
    let e : Word := BitVec.ofNat 64 (s.load loc 8)
    if SMap.get false s.pkg.bad (lineOf loc) then .broken
    else if !entValid n e then .bad
    else if !e.getLsbD 1 then .absent
    else if e.getLsbD 5 then .leaf n e
    else walkFrom s va n (entAddr e)

/-- The words of a key's binding at a die (R177). -/
def bind0 (s : State) (d key : Nat) : Word := s.reg d (0x10000 + 16 * key)
def bind1 (s : State) (d key : Nat) : Word := s.reg d (0x10008 + 16 * key)

/-- The walk of an address under a key, from the binding at a die. -/
def walk (s : State) (d key va : Nat) : Walk :=
  if (s.bind0 d key).getLsbD 63 then s.walkFrom va 4 (bits (s.bind0 d key) 51 16 * 65536) else .bad

/-- Leaves that some TLB of the package may still hold for an address and that differ from what a walk finds (R180). -/
def stale (s : State) (key va : Nat) (now : Walk) : List Walk :=
  (s.pkg.tlb.filter fun t => t.key == key && t.page == va / 2 ^ pageShift t.level && decide (Walk.leaf t.level t.entry ≠ now)).map
    fun t => .leaf t.level t.entry
/-- What a translation uses: the walk, or an old entry whose invalidation has not completed; the spec leaves the choice open, access by
access (R180; log entry 7). -/
def lookup (s : State) (d key va j : Nat) : Walk :=
  let now := s.walk d key va
  match s.stale key va now with
  | [] => now
  | o :: os => ((o :: os) ++ [now]).getD (s.choose (32768 + j) (os.length + 2)) now

/-- The leaf as a TLB keeps it. -/
def keepLeaf (s : State) (key va : Nat) : Walk → State
  | .leaf l e =>
    let t : Leaf := { key := key, level := l, page := va / 2 ^ pageShift l, entry := e }
    if s.pkg.tlb.contains t then s else s.modPkg fun p => { p with tlb := t :: p.tlb }
  | _ => s

/-- The MKID can be used for a line at a DPA: 0, or one that holds a key on the line's home die (R398, R186). -/
def keyLive (s : State) (mkid dpa : Nat) : Bool :=
  mkid == 0 || SMap.get KeySt.none (s.dieAt (dpa / 65536 % 4)).keys mkid == .loaded
/-- The DPA is backed by a control space or by a crate with a medium, or by one whose extent was released (R191, R196, R387). -/
def backed (s : State) (loc : Nat) : Bool :=
  (ctlOf loc).isSome || s.medium (crateOf loc) != .absent || (SMap.get {} s.pkg.crates (crateOf loc)).released

end State

/-- The fault of R179's checks on a leaf. -/
def leafFault (e : Word) (priv : Bool) (n : Need) : Option Byte :=
  if e.getLsbD 6 && !priv then some 0x09#8
  else match n with
  | .read => if e.getLsbD 2 then none else some 0x09#8
  | .write => if e.getLsbD 3 then none else some 0x09#8
  | .both => if e.getLsbD 2 && e.getLsbD 3 then none else some 0x09#8
  | .fetch => if e.getLsbD 4 then none else some 0x0A#8
  | .code => if e.getLsbD 3 || e.getLsbD 4 then none else some 0x09#8

/-- A place as an address resolves: a location (with the translation to remember, if any), a fault, an absent page, or a shelf whose mode
is being switched. -/
inductive Place where
  | at (loc : Nat) (tr : Option (Nat × Walk))
  | fault (cause : Byte)
  | absent (key page : Nat)
  | busy
  deriving DecidableEq, Repr

namespace State

/-- A global address (R178, R179, R191, R398). Writes of a control space are privileged (R387). -/
def xlate (s : State) (w : Who) (n : Need) (va j : Nat) : Place :=
  match s.lookup (dieOf w.site) w.key va j with
  | .bad => .fault 0x08#8
  | .broken => .fault 0x0F#8
  | .absent => .absent w.key (va / 65536)
  | .leaf l e =>
    let loc := gloc w.mkid (entAddr e + va % 2 ^ pageShift l)
    if !s.backed loc || !s.keyLive w.mkid (dpaOf loc) then .fault 0x08#8
    else match leafFault e w.priv n with
      | some c => .fault c
      | none =>
        if (ctlOf loc).isSome && !w.priv && (n == .write || n == .both) then .fault 0x09#8
        else .at loc (some (va, .leaf l e))

/-- Command `id` has reserved a line of a shelf, below its save area. -/
def shelfReserved (s : State) (id clu shelf : Nat) : Bool :=
  s.pkg.resv.any fun r => isPantry (r.1 * 128) && shelfOf (r.1 * 128) == clu * 32 + shelf && (shelf % 2 == 0 || decide (shelfOff (r.1 * 128) < 0x36000)) &&
    (r.2.ids.contains id)
/-- A shelf byte (R169, R171). A switch from CACHE waits for the commands that have reserved lines of the shelf, and these meet CACHE (log entry 88). `ilv` forbids FIFO shelves. The save area of an odd shelf lies outside the shelf's mode (R100). -/
def shelfPlace (s : State) (w : Who) (clu shelf off : Nat) (ilv : Bool) : Place :=
  let x := SMap.get {} (s.cluAt clu).shelves shelf
  if shelf % 2 = 1 ∧ 0x36000 ≤ off then
    (if !w.priv || (ilv && x.target.isNone && x.mode == .fifo) then .fault 0x09#8
     else if ilv && x.target.isSome then .busy
     else .at (ploc clu shelf off) none)
  else if x.target.isSome then (if x.mode = .cache ∧ w.id ≠ 0 ∧ s.shelfReserved w.id clu shelf = true then .fault 0x09#8 else .busy)
  else if x.mode = .cache then .fault 0x09#8
  else if ilv && x.mode == .fifo then .fault 0x09#8
  else .at (ploc clu shelf off) none

end State

/-! ## Forms of an address (R167 to R170) -/

/-- The window of a generic address (R167): 0 global, 1 context-private, 2 pantry, 3 beyond. -/
def window (x : Nat) : Nat := if x / 2 ^ 48 < 0xFE then 0 else if x / 2 ^ 48 = 0xFE then 1 else if x / 2 ^ 48 = 0xFF then 2 else 3

/-- The faults of a whole access of `n` bytes at `a`, before any byte is looked up: bits 63–56, windows, bounds and shelves. Address modes:
0 generic, 1 `.loc`, 2 `.ilv`. -/
def State.headFault (s : State) (w : Who) (am : Nat) (a : Word) (n : Nat) : Option Byte :=
  let x := a.toNat
  let y := x + n - 1
  let e := (s.enabledIn (clusterOf w.site)).length
  match am with
  | 0 =>
    if x / 2 ^ 56 ≠ 0 then some 0x08#8
    else if window x ≠ window y then some 0x07#8
    else if x / 2 ^ 48 = 0xFE then (if 2 ^ 32 ≤ y % 2 ^ 48 then some 0x08#8 else none)
    else if x / 2 ^ 48 = 0xFF then
      (if x / 2 ^ 18 ≠ y / 2 ^ 18 then some 0x07#8
       else if x / 2 ^ 29 % 2 ^ 19 ≠ 0 ∨ s.coreEnabled (x / 2 ^ 23 % 64 * 16 + x / 2 ^ 18 % 32 / 2) = false then some 0x08#8 else none)
    else none
  | 1 => if 2 ^ 19 ≤ y then some 0x08#8 else if x / 2 ^ 18 ≠ y / 2 ^ 18 then some 0x07#8 else none
  | _ => if e * 2 ^ 19 ≤ y then some 0x08#8 else none

/-- The place of the byte at `x`, whose access has passed `headFault`. A fetch from the private window raises EXEC_PERMISSION, after PAGE_INVALID
(R151, R152); an absent page parks it. -/
def State.place (s : State) (w : Who) (nd : Need) (am x j : Nat) : Place :=
  match am with
  | 0 =>
    if x / 2 ^ 48 = 0xFF then
      (if nd = .fetch then .fault 0x0A#8 else s.shelfPlace w (x / 2 ^ 23 % 64) (x / 2 ^ 18 % 32) (x % 2 ^ 18) false)
    else if x / 2 ^ 48 = 0xFE then
      (match s.xlate w nd (bits (s.bind1 (dieOf w.site) w.key) 55 44 * 2 ^ 44 + w.site * 2 ^ 32 + x % 2 ^ 48) j with
       | .at loc tr => if nd = .fetch then .fault 0x0A#8 else .at loc tr
       | .fault c => .fault (if nd = .fetch && c != 0x08#8 then 0x0A#8 else c)
       | p => p)
    else s.xlate w nd x j
  | 1 => s.shelfPlace w (clusterOf w.site) (2 * coreIn w.site + x / 2 ^ 18 % 2) (x % 2 ^ 18) false
  | _ =>
    let es := s.enabledIn (clusterOf w.site)
    let q := x / 8
    let m := q / es.length * 8 + x % 8
    s.shelfPlace w (clusterOf w.site) (2 * es.getD (q % es.length) 0 + m / 2 ^ 18 % 2) (m % 2 ^ 18) true

/-- What a whole access resolves to: the runs of bytes it names in order, a precise fault with its TRAPVAL, a wait on an absent page, or a
wait on a shelf's switch. -/
inductive Addr where
  | ok (runs : List (Nat × Nat)) (trs : List (Nat × Walk))
  | trap (cause : Byte) (val : Word)
  | absent (key page : Nat) (val : Word)
  | busy
  deriving DecidableEq, Repr

namespace State

/-- The active pieces of an access (offset and length, none across 8 bytes), in ascending order; the first fault found is the access's. -/
def pieces (s : State) (w : Who) (nd : Need) (am : Nat) (a : Word) (j : Nat) : List (Nat × Nat) → Addr
  | [] => .ok [] []
  | (o, n) :: ps =>
    match s.place w nd am (a.toNat + o) j with
    | .fault c => .trap c (a + BitVec.ofNat 64 o)
    | .absent k p => .absent k p (a + BitVec.ofNat 64 o)
    | .busy => .busy
    | .at loc tr =>
      match pieces s w nd am a (j + 1) ps with
      | .ok rs ts => .ok ((loc, n) :: rs) (tr.toList ++ ts)
      | r => r

/-- Resolve an access at `a` of `n` bytes, aligned to `al`, with its active pieces (R198's order up to translation). -/
def addr (s : State) (w : Who) (nd : Need) (am : Nat) (a : Word) (al n : Nat) (ps : List (Nat × Nat)) (j : Nat := 0) : Addr :=
  if a.toNat % al ≠ 0 then .trap 0x06#8 a
  else match s.headFault w am a n with
    | some c => .trap c a
    | none => s.pieces w nd am a j ps

/-- The issuing context as an agent (R88). -/
def me (s : State) : Who := { site := s.site, key := s.ctx.ask.toNat, mkid := s.ctx.mkid.toNat, priv := s.privileged }

/-- What TLBs hold after an access. -/
def keepLeaves (s : State) (key : Nat) : List (Nat × Walk) → State
  | [] => s
  | (va, w) :: ts => keepLeaves (s.keepLeaf key va w) key ts

/-- A run that fails to read: the fault of its media, lowest byte first (R126, R196, R397). Its TRAPVAL is the address `a` plus the offset of
the run. -/
def mediaFault (s : State) (reads : Bool) : List (Nat × Nat) → Option (Nat × Byte)
  | rs => match reads, (rs.findIdx? fun r => SMap.get false s.pkg.bad (lineOf r.1)) with
    | true, some i => some (i, 0x0F#8)
    | _, _ => match rs.findIdx? fun r => isGlobal r.1 && (SMap.get {} s.pkg.crates (crateOf r.1)).released with
      | some i => some (i, 0x13#8)
      | none => none

end State

/-- The pieces of a scalar access of n bytes. -/
def onePiece (n : Nat) : List (Nat × Nat) := [(0, n)]

end Sys2Proof.Machine
end

