-- ==== Sys2Proof/Machine/Range.lean ====
section
/-! DEFINITION. Commutative ranges: partial lines, budgets, drains and forcing sequences (10_memory_hierarchy R187 to R190 and R402,
12_memory_ordering R224 and R225, 13_memory_program_accumulate R231 and R232). -/
namespace Sys2Proof.Machine
open Sys2Proof

/-! ## Elements -/

/-- Bytes of an element, and elements of a line. -/
def RFmt.width : RFmt → Nat
  | .f32 => 4
  | .bf16 => 2
  | .i32 => 4
  | .i64 => 8
def RFmt.fp : RFmt → Bool
  | .f32 => true
  | .bf16 => true
  | _ => false
def RFmt.count (f : RFmt) : Nat := 128 / f.width

/-- The identity of a partial line's elements (R187). -/
def RFmt.ident (f : RFmt) : Word := if f.fp then 0x80000000#64 else 0#64
/-- An element's exact value; integers are signed. -/
def RFmt.val (f : RFmt) (x : Word) : Ex :=
  match f with
  | .f32 => Fmt.f32.dec (x.toNat % 2 ^ 32)
  | .bf16 => Fmt.bf16.dec (x.toNat % 2 ^ 16)
  | .i32 => Ex.ofInt (low32 x).toInt
  | .i64 => Ex.ofInt x.toInt
/-- p + x in the partial format (R187): one rounding, or wrapping. -/
def RFmt.acc (f : RFmt) (p x : Word) : Word :=
  match f with
  | .i32 => (low32 p + low32 x).setWidth 64
  | .i64 => p + x
  | _ => (roundNE32 (Ex.add (f32Val (low32 p)) (f.val x))).setWidth 64
/-- The tracker after an addend (R187, R202): upward rounding, a NaN counting as +∞; saturating for integers. -/
def RFmt.track (f : RFmt) (t x : Word) : Word :=
  if f.fp then
    match f.val x with
    | .nan _ => 0x7F800000#64
    | y => BitVec.ofNat 64 (roundEx .f32 .ru false (Ex.add (f32Val (low32 t)) (Ex.abs y))).1
  else match f.val x with
    | .fin _ n _ _ => BitVec.ofNat 64 (min (t.toNat + n) (2 ^ 64 - 1))
    | _ => t
/-- A bound, budget or tracker as an exact value: FP32, or unsigned. -/
def RFmt.bval (f : RFmt) (b : Word) : Ex := if f.fp then f32Val (low32 b) else Ex.ofInt (b.toNat : Int)
/-- T > b, or T = +∞ (R187). -/
def RFmt.over (f : RFmt) (t b : Word) : Bool :=
  (f.fp && low32 t == 0x7F800000#32) || Ex.cmp (f.bval t) (f.bval b) == .gt
/-- B/n, rounded down (R189). -/
def RFmt.split (f : RFmt) (b : Word) (n : Nat) : Word :=
  if f.fp then
    match f32Val (low32 b) with
    | .fin g m d e => BitVec.ofNat 64 (roundEx .f32 .rd false (.fin g m (d * n) e)).1
    | _ => b
  else BitVec.ofNat 64 (b.toNat / n)

namespace State

/-! ## Ranges and lines -/

def range (s : State) (h : Nat) : Option Range := SMap.get none s.pkg.ranges h
def setRange (s : State) (h : Nat) (r : Option Range) : State := s.modPkg fun p => { p with ranges := SMap.set none p.ranges h r }
/-- The active range that holds a line (R210: by DPA and MKID). -/
def rangeAt (s : State) (line : Nat) : Option (Nat × Range) :=
  (s.pkg.ranges.filterMap fun e => match e.2 with | some r => if r.lines.contains line then some (e.1, r) else none | none => none).head?
def rline (s : State) (line : Nat) : RLine := SMap.get {} s.pkg.rlines line
def setRline (s : State) (line : Nat) (x : RLine) : State := s.modPkg fun p => { p with rlines := SMap.set {} p.rlines line x }
def part (s : State) (core line : Nat) : Option Partial := SMap.get none (s.coreAt core).parts line
def setPart (s : State) (core line : Nat) (p : Option Partial) : State :=
  s.modCore core fun c => { c with parts := SMap.set none c.parts line p }

/-- The line's crate is in host bias: the device's caches hold no line of it (R195, R363). -/
def hostBias (s : State) (line : Nat) : Bool := isGlobal (line * 128) && (SMap.get {} s.pkg.crates (crateOf (line * 128))).host

/-! ## The core's side -/

/-- A voluntary drain of a partial line (R188): the elements return to the identity and T to 0; the core waits for the acknowledgement. -/
def drainOwn (s : State) (core line : Nat) (f : RFmt) : State :=
  match s.part core line with
  | none => s
  | some p =>
    let x := s.rline line
    let s := s.setRline line { x with up := x.up ++ [.drain { core := core, elems := p.elems, track := p.track, forced := false, empty := false }] }
    let s := s.setPart core line (some { p with elems := List.replicate f.count f.ident, track := 0#64 })
    s.modCore core fun c => { c with unacked := c.unacked + 1 }

/-- What a line of the core's L1 costs (R402): when all 8 ways of its set hold partial lines, one of these is evicted; which, the spec leaves open (log
entry 7). The core stays a sharer. -/
def evict (s : State) (line j : Nat) : State :=
  let c := coreOf s.site
  let ps := (SMap.keys (s.coreAt c).parts).filter fun l => Config.l1Set l % 64 == Config.l1Set line % 64
  if ps.length < 8 ∨ ps.contains line then s
  else match ps[s.choose (36864 + j) ps.length]? with
    | none => s
    | some l => match s.rangeAt l with
      | some (_, r) => (s.drainOwn c l r.fmt).setPart c l none
      | none => s.setPart c l none

/-- One ACC of a line's addends (element number and pattern), at its core (R187, R202). A crate in host bias has no line in the core's L1: the additions go
to the home at once, and the core does not join the sharers (R363; log entry 108). -/
def accLine (s : State) (line : Nat) (f : RFmt) (xs : List (Nat × Word)) : State :=
  let c := coreOf s.site
  let host := s.hostBias line
  let s := match s.part c line with
    | some _ => s
    | none =>
      let x := s.rline line
      (if host then s else s.setRline line { x with up := x.up ++ [UpMsg.join c] }).setPart c line
        (some { elems := List.replicate f.count f.ident, track := 0#64, budget := 0#64 })
  match s.part c line with
  | none => s
  | some p =>
    let p := xs.foldl (fun (p : Partial) (ex : Nat × Word) =>
      { p with elems := p.elems.set ex.1 (f.acc (p.elems.getD ex.1 f.ident) ex.2), track := f.track p.track ex.2 }) p
    let s := s.setPart c line (some p)
    if host then (s.drainOwn c line f).setPart c line none
    else if f.over p.track p.budget then s.drainOwn c line f else s

/-- Some core holds a partial line of a test (R187); or one of its drains is on the way to the home. -/
def partsHeld (s : State) (p : Nat → Bool) : Bool := s.cores.any fun c => (SMap.keys c.2.parts).any p
def partsOut (s : State) (p : Nat → Bool) : Bool :=
  s.partsHeld p || s.pkg.rlines.any fun e => p e.1 && e.2.up.any fun m => match m with | .drain d => !d.empty | _ => false
/-- The cores and lines of the partial lines of a test. -/
def partsOf (s : State) (p : Nat → Bool) : List (Nat × Nat) := s.cores.flatMap fun c => ((SMap.keys c.2.parts).filter p).map fun l => (c.1, l)
/-- Every core drains the partial lines of a test and drops them: they are lines of its L1 (R186, R187, R195, R196). -/
def flushParts (s : State) (p : Nat → Bool) : State :=
  (s.partsOf p).foldl (fun (s : State) x =>
    match s.rangeAt x.2 with
    | some (_, r) => (s.drainOwn x.1 x.2 r.fmt).setPart x.1 x.2 none
    | none => s.setPart x.1 x.2 none) s
/-- Partial lines of a test are lost. -/
def loseParts (s : State) (p : Nat → Bool) : State := (s.partsOf p).foldl (fun (s : State) x => s.setPart x.1 x.2 none) s

/-! ## The home's side (R189) -/

/-- The outstanding bound O. -/
def outstanding (f : RFmt) (x : RLine) : Ex := Ex.sum (x.sharers.map fun h => f.bval h.counted)

/-- The larger of two budgets. -/
def maxBudget (f : RFmt) (a b : Word) : Word := if Ex.cmp (f.bval a) (f.bval b) == .lt then b else a
/-- Send every sharer its budget of B/n. An increase counts from now, a decrease from its acknowledgement. -/
def resplit (s : State) (line : Nat) (r : Range) : State :=
  let x := s.rline line
  let n := x.sharers.length
  let b := r.fmt.split r.bound (max n 1)
  let q := x.seq + 1
  let up := fun (h : Sharer) => { h with budget := b, counted := maxBudget r.fmt h.counted b, seq := q, sent := h.sent ++ [(q, b)] }
  let less := (x.sharers.filter fun h => Ex.cmp (r.fmt.bval b) (r.fmt.bval h.budget) == .lt).map fun h => (h.core, q)
  s.setRline line { x with seq := q, sharers := x.sharers.map up, decs := x.decs ++ less, down := x.down ++ x.sharers.map fun h => .budget h.core q b }

/-- A sequence has ended and its load has been served: the departures' re-split (R232). -/
def endForcing (s : State) (line : Nat) : State :=
  let x := s.rline line
  match x.forcing with
  | none => s
  | some _ =>
    let s := s.setRline line { x with forcing := none }
    match s.rangeAt line with
    | some (_, r) => if x.sharers.isEmpty then s else s.resplit line r
    | none => s

/-- The access of a context, by its site and the cycle of its issue, is still in progress. -/
def loadLives (s : State) (owner since : Nat) : Bool :=
  decide (4096 ≤ owner) || (if owner = s.site then (s.ctx.wait.map (·.cycle)).getD s.cycle == since
    else (s.ctxAt owner).st == .waiting && (s.ctxAt owner).wait.any fun w => w.cycle == since)
/-- The sequence of an access that is no longer in progress is over. -/
def reapForcing (s : State) (line : Nat) : State :=
  match (s.rline line).forcing with
  | some f => if f.todo.isEmpty && !s.loadLives f.owner f.since then s.endForcing line else s
  | none => s
/-- When the owner of an access issued it: for a context, the cycle of its wait's start. -/
def issuedAt (s : State) (owner : Nat) : Nat := if owner < 4096 then (((s.ctxAt owner).wait).map (·.cycle)).getD s.cycle else 0
/-- One of the lines has a sequence that the issuing context's access has started. -/
def ownForcing (s : State) (ls : List Nat) : Bool :=
  ls.any fun l => (s.rline l).forcing.any fun f => f.owner == s.site && f.since == s.issuedAt s.site

/-- Ask the next sharer of a sequence, or end it when O ≤ ε. -/
def nextForced (s : State) (line : Nat) (f : RFmt) (fc : Forcing) : State :=
  let x := s.rline line
  let stop := match fc.eps with | some e => Ex.le (outstanding f x) e | none => false
  match (if stop then [] else fc.todo) with
  | [] => s.setRline line { x with forcing := some { fc with todo := [] } }
  | c :: cs =>
    s.setRline line { x with asks := x.asks + 1, forcing := some { fc with todo := c :: cs, ask := x.asks + 1 }, down := x.down ++ [.force c (x.asks + 1)] }

/-- A load of the line with tolerance ε (none: every sharer is forced) by `owner`: whether it can be served now, after starting or joining
what it must wait for (R190). A load that finds O > ε first waits until every decrease has been acknowledged, and is then judged again (R232). -/
def rangeTry (s : State) (line : Nat) (f : RFmt) (eps : Option Ex) (owner : Nat) : Bool × State :=
  let s := s.reapForcing line
  let x := s.rline line
  let me := (owner, s.issuedAt owner)
  match x.forcing with
  | some fc => (fc.todo.isEmpty && fc.owner == owner && fc.since == me.2, s)
  | none =>
    let ok := match eps with | some e => Ex.le (outstanding f x) e | none => x.sharers.isEmpty
    let judged := x.judging.contains me
    if ok && !judged then (true, s)
    else if !x.decs.isEmpty then
      (false, s.setRline line { x with judging := (x.judging.filter fun j => j != me && s.loadLives j.1 j.2) ++ [me] })
    else
      let s := if judged then s.setRline line { x with judging := x.judging.filter (· != me) } else s
      if ok then (true, s)
      else
        let fc : Forcing := { owner := owner, since := me.2, todo := (x.sharers.map (·.core)).mergeSort (fun a b => decide (a ≤ b)), eps := eps }
        (false, s.nextForced line f fc)

/-- Line numbers in ascending order. -/
def insertLine (l : Nat) : List Nat → List Nat
  | [] => [l]
  | x :: xs => if l ≤ x then l :: x :: xs else x :: insertLine l xs
def ascending : List Nat → List Nat
  | [] => []
  | l :: ls => insertLine l (ascending ls)
/-- The lines of an access, in the order given: all can be served, or the first that cannot makes it wait. Sequences that have ended for it stay until all
have, so that the access is served before their re-splits (R190, R232). -/
def rangeTryAll (s : State) (eps : Option Ex) (owner : Nat) : List Nat → Bool × State
  | [] => (true, s)
  | l :: ls => match s.rangeAt l with
    | none => rangeTryAll s eps owner ls
    | some (_, r) => match s.rangeTry l r.fmt eps owner with
      | (true, t) => rangeTryAll t eps owner ls
      | (false, t) => (false, t)
/-- No core shares lines of a test any more. -/
def unshare (s : State) (p : Nat → Bool) : State :=
  s.modPkg fun k => { k with rlines := SMap.mapVals {} (fun x => x) (k.rlines.map fun (e : Nat × RLine) => if p e.1 then (e.1, { e.2 with sharers := [] }) else e) }
/-- The accesses have been served: their sequences end. -/
def rangeServed (s : State) (owner : Nat) : List Nat → State
  | [] => s
  | l :: ls =>
    let s := match (s.rline l).forcing with | some fc => if fc.owner == owner && fc.todo.isEmpty then s.endForcing l else s | none => s
    rangeServed s owner ls

/-- Elements `i` up of a line, as stored. -/
def elemLoc (line : Nat) (f : RFmt) (i : Nat) : Nat := line * 128 + i * f.width
/-- An uncorrectable line that a home adds a drain to (R397; log entry 107): the shadows of a BF16 line give all of it again; of another one the read
returns no data, is counted, and the write makes the rest zero. -/
def mendForDrain (s : State) (line : Nat) (f : RFmt) : State :=
  if f = .bf16 then s.mendLine line true
  else (if SMap.get false s.pkg.bad line then s.countErr (lineDie line) 32 else s).mendLine line false
/-- Add a drained partial into the stored elements (R189): FP32 rounds once, BF16 through its shadow, integers wrap. -/
def addDrain (s : State) (line : Nat) (f : RFmt) : Nat → List Word → State
  | _, [] => s
  | i, p :: ps =>
    let a := elemLoc line f i
    let s := match f with
      | .bf16 =>
        let x := s.rline line
        let sh := f32Add (x.shadow.getD i 0#32) (low32 p)
        (s.setRline line { x with shadow := x.shadow.set i sh }).pokeNat a 2 (roundEx .bf16 .rne false (f32Val sh)).1
      | .f32 => s.pokeNat a 4 (f32Add (BitVec.ofNat 32 (s.load a 4)) (low32 p)).toNat
      | .i32 => s.pokeNat a 4 (BitVec.ofNat 32 (s.load a 4) + low32 p).toNat
      | .i64 => s.pokeNat a 8 (BitVec.ofNat 64 (s.load a 8) + p).toNat
    addDrain s line f (i + 1) ps

/-- The shadows of a line start at its elements' exact values (R189). -/
def shadowOf (s : State) (line : Nat) (f : RFmt) : List (BitVec 32) :=
  if f = .bf16 then (upto 0 64).map fun i => BitVec.ofNat 32 (s.load (elemLoc line f i) 2 * 65536) else []
/-- A range write: the shadows of the elements written, at offsets `lo` to `hi` − 1 of the line, take their new values. -/
def reshadow (s : State) (line lo hi : Nat) : State :=
  match s.rangeAt line with
  | some (_, r) =>
    if r.fmt = .bf16 then
      let x := s.rline line
      let new := s.shadowOf line .bf16
      s.setRline line { x with shadow := (upto 0 64).map fun i => if 2 * i < hi ∧ lo < 2 * i + 2 then new.getD i 0#32 else x.shadow.getD i 0#32 }
    else s
  | none => s
def reshadowRuns (s : State) : List (Nat × Nat) → State
  | [] => s
  | (loc, n) :: rs => reshadowRuns (s.reshadow (lineOf loc) (loc % 128) (loc % 128 + n)) rs

end State
/-- A sharer has acknowledged a message: what counts is the largest of its budget and of those sent since. -/
def Sharer.acked (f : RFmt) (h : Sharer) (q : Nat) : Sharer :=
  match h.sent.find? fun m => m.1 == q with
  | none => h
  | some m =>
    let rest := h.sent.filter fun m => decide (q < m.1)
    { h with sent := rest, counted := (rest.map (·.2)).foldl (State.maxBudget f) m.2 }
namespace State

/-! ## Message steps -/

/-- The first message from a core to a line's home, and the rest. -/
def takeUp (core : Nat) : List UpMsg → Option (UpMsg × List UpMsg)
  | [] => none
  | m :: ms =>
    let from' := match m with | .join c => c | .drain d => d.core | .ack c _ => c
    if from' = core then some (m, ms) else (takeUp core ms).map fun r => (r.1, m :: r.2)
/-- The first message from the home to a core, and the rest. -/
def takeDown (core : Nat) : List DownMsg → Option (DownMsg × List DownMsg)
  | [] => none
  | m :: ms =>
    let to' := match m with | .budget c _ _ => c | .force c _ => c | .drainAck c => c
    if to' = core then some (m, ms) else (takeDown core ms).map fun r => (r.1, m :: r.2)

/-- A JOIN (R189, R231): a core already in the set is sent its budget again at once; a new one waits while a sequence runs (R225). -/
def joinMsg (s : State) (line core : Nat) : Option State :=
  let s := s.reapForcing line
  let x := s.rline line
  match takeUp core x.up, s.rangeAt line with
  | some (.join _, rest), some (_, r) =>
    match x.sharers.find? fun h => h.core == core with
    | some h =>
      some (s.setRline line { x with up := rest, seq := x.seq + 1, down := x.down ++ [.budget core (x.seq + 1) h.budget],
                                     sharers := x.sharers.map fun t =>
                                       if t.core = core then { t with seq := x.seq + 1, sent := t.sent ++ [(x.seq + 1, t.budget)] } else t })
    | none =>
      if x.forcing.isSome then none
      else some ((s.setRline line { x with up := rest, sharers := x.sharers ++ [{ core := core, budget := 0#64, counted := 0#64, seq := 0 }] }).resplit line r)
  | some (.join _, rest), none => some (s.setRline line { x with up := rest })
  | _, _ => none

/-- The arrival of a drain (R189, R190, R224, R225): the forced drain whose turn it is, or any drain outside a sequence. An empty answer to a request that
a voluntary drain has served before is discarded. -/
def drainMsg (s : State) (line core : Nat) : Option State :=
  let s := s.reapForcing line
  let x := s.rline line
  match takeUp core x.up, s.rangeAt line with
  | some (.drain d, rest), some (_, r) =>
    let ack := if d.forced then [] else [DownMsg.drainAck core]
    let s1 := s.setRline line { x with up := rest, down := x.down ++ ack }
    let s2 := if d.empty then s1 else (((s1.mendForDrain line r.fmt).addDrain line r.fmt 0 d.elems).noteWrite line).touch [line]
    match x.forcing with
    | none => some s2
    | some fc =>
      if fc.todo.head? = some core ∧ (d.empty = false ∨ d.ask = fc.ask) then
        let y := s2.rline line
        some ((s2.setRline line { y with sharers := y.sharers.filter fun h => h.core != core }).nextForced line r.fmt { fc with todo := fc.todo.tail })
      else if d.empty then some s2
      else none
  | some (.drain d, rest), none =>
    some (s.setRline line { x with up := rest, down := x.down ++ (if d.forced then [] else [DownMsg.drainAck core]) })
  | _, _ => none

/-- A budget message at its core (R189, R231). -/
def budgetMsg (s : State) (line core : Nat) : Option State :=
  let x := s.rline line
  match takeDown core x.down with
  | some (.budget _ q b, rest) =>
    let s := s.setRline line { x with down := rest }
    let s := match s.part core line, s.rangeAt line with
      | some p, some (_, r) =>
        if p.bseq < q then
          let s := s.setPart core line (some { p with budget := b, bseq := q })
          if r.fmt.over p.track b then s.drainOwn core line r.fmt else s
        else s
      | _, _ => s
    let x := s.rline line
    some (s.setRline line { x with up := x.up ++ [.ack core q] })
  | _ => none

/-- An acknowledgement at the home (R189, R224, R232). -/
def ackMsg (s : State) (line core : Nat) : Option State :=
  let x := s.rline line
  match takeUp core x.up with
  | some (.ack _ q, rest) =>
    let ack := fun (h : Sharer) => match s.rangeAt line with | some (_, r) => if h.core = core then h.acked r.fmt q else h | none => h
    some (s.setRline line { x with up := rest, decs := x.decs.filter (· != (core, q)), sharers := x.sharers.map ack })
  | _ => none

/-- A drain that a core sent of itself has not been acknowledged to it yet: it is on its way to the home, or its acknowledgement on its way back. -/
def drainPending (s : State) (core line : Nat) : Bool :=
  (s.rline line).up.any (fun m => match m with | .drain d => d.core == core && !d.empty | _ => false) ||
    (s.rline line).down.any fun m => match m with | .drainAck c => c == core | _ => false
/-- A forced request at its core (R188, R225): the partial line, or an empty drain where there is none. A request that a voluntary drain has crossed is
answered with an empty drain; what the core has added since leaves as a voluntary drain of its own (log entry 89). -/
def forceMsg (s : State) (line core : Nat) : Option State :=
  let x := s.rline line
  match takeDown core x.down with
  | some (.force _ n, rest) =>
    let none' : Drain := { core := core, elems := [], track := 0#64, forced := true, empty := true, ask := n }
    if s.drainPending core line then
      let s := s.setRline line { x with down := rest, up := x.up ++ [.drain none'] }
      some (match s.rangeAt line, s.part core line with
        | some (_, r), some p => (if p.track = 0#64 ∧ (p.elems.all fun e => e == r.fmt.ident) = true then s else s.drainOwn core line r.fmt).setPart core line none
        | _, _ => s.setPart core line none)
    else
      let d : Drain := match s.part core line with
        | some p => { core := core, elems := p.elems, track := p.track, forced := true, empty := false, ask := n }
        | none => none'
      some ((s.setRline line { x with down := rest, up := x.up ++ [.drain d] }).setPart core line none)
  | _ => none

/-- A drain's acknowledgement at its core (R224). -/
def drainAckMsg (s : State) (line core : Nat) : Option State :=
  let x := s.rline line
  match takeDown core x.down with
  | some (.drainAck _, rest) => some ((s.setRline line { x with down := rest }).modCore core fun c => { c with unacked := c.unacked - 1 })
  | _ => none

end State
end Sys2Proof.Machine
end

