-- ==== Sys2Proof/Machine/Mem.lean ====
section
/-! DEFINITION. A context's accesses: what they wait for, pantry FIFOs, parking on absent pages, loads and stores of runs of bytes, and the
owner of a location (R128, R174 to R176, R181, R190, R224, R330, R393). -/
namespace Sys2Proof.Machine
open Sys2Proof

/-- The first element of a list that comes before every other. -/
def firstBy {α : Type} (before : α → α → Bool) : List α → Option α
  | [] => none
  | x :: xs => match firstBy before xs with | none => some x | some y => if before y x then some y else some x

/-! ## The operations of requests (R203, R350) -/

/-- The operations of AMO on patterns of width n: old value, operand, compare value. -/
inductive AmoFn where
  | add
  | min
  | max
  | minn
  | maxn
  | and
  | or
  | xor
  | swap
  | cas
  | fadd
  | fmin
  deriving DecidableEq, Repr

def amoNew {n : Nat} (f : AmoFn) (m b c : BitVec n) : BitVec n :=
  match f with
  | .add => m + b
  | .min => if m.slt b then m else b
  | .max => if m.slt b then b else m
  | .minn => if m.ult b then m else b
  | .maxn => if m.ult b then b else m
  | .and => m &&& b
  | .or => m ||| b
  | .xor => m ^^^ b
  | .swap => b
  | .cas => if m = c then b else m
  | .fadd => (f32Add (m.setWidth 32) (b.setWidth 32)).setWidth n
  | .fmin => (f32Min (m.setWidth 32) (b.setWidth 32)).setWidth n

/-- A barrier after INIT with a count, and after an arrival (R350). -/
def barInit (m : Word) (count : Nat) : Word := BitVec.ofNat 64 (bits m 15 0 + count * 2 ^ 16)
def barArrive (m : Word) : Word :=
  let n := (bits m 47 32 + 1) % 2 ^ 16
  if max 1 (bits m 31 16) ≤ bits m 47 32 + 1 then putBits (putBits m 47 32 0) 15 0 (bits m 15 0 + 1) else putBits m 47 32 n

/-- The operations of a request by number. -/
def amoFn (op : Nat) : AmoFn :=
  [AmoFn.add, .min, .max, .minn, .maxn, .and, .or, .xor, .swap, .cas, .fadd, .fmin].getD op .add
/-- The number of an operation; BAR.INIT is 12, an arrival 13. -/
def AmoFn.num : AmoFn → Nat
  | .add => 0
  | .min => 1
  | .max => 2
  | .minn => 3
  | .maxn => 4
  | .and => 5
  | .or => 6
  | .xor => 7
  | .swap => 8
  | .cas => 9
  | .fadd => 10
  | .fmin => 11
/-- The new value of `n` bytes that held `m`. -/
def opNew (op n m : Nat) (operand compare : Word) : Nat :=
  if op = 12 then (barInit (BitVec.ofNat 64 m) (bits operand 15 0)).toNat
  else if op = 13 then (barArrive (BitVec.ofNat 64 m)).toNat
  else if n = 8 then (amoNew (amoFn op) (BitVec.ofNat 64 m) operand compare).toNat
  else (amoNew (amoFn op) (BitVec.ofNat 32 m) (low32 operand) (low32 compare)).toNat
/-- What the requester's register receives: the old value, or a barrier's phase. -/
def opVal (op n m : Nat) : Word :=
  if 12 ≤ op then BitVec.ofNat 64 (m % 2 ^ 16) else if n = 8 then BitVec.ofNat 64 m else sext64 (BitVec.ofNat 32 m)

/-! ## Owners (R181) -/

/-- XOR fold of DPA[51:7] in fields of `w` bits, `n` of them from bit 7 up. -/
def xorFold (w dpa : Nat) : Nat → Nat
  | 0 => 0
  | n + 1 => Nat.xor (dpa % 2 ^ 52 / 2 ^ (7 + w * n) % 2 ^ w) (xorFold w dpa n)
/-- The first of `n` units from `i` up, modulo `m`, that passes a test. -/
def firstFrom (m : Nat) (p : Nat → Bool) (i : Nat) : Nat → Nat
  | 0 => i % m
  | n + 1 => if p (i % m) then i % m else firstFrom m p (i + 1) n

/-- Owner(a): the core at which atomics on a location's line run (R181). -/
def State.owner (s : State) (loc : Nat) : Nat :=
  if isPantry loc then shelfOf loc / 32 * 16 + shelfOf loc % 32 / 2
  else
    let d := dpaOf loc / 65536 % 4
    let c := firstFrom 16 (fun c => (s.cluEn d).testBit c) (xorFold 5 (dpaOf loc) 9 / 2) 16
    let clu := 16 * d + c
    clu * 16 + firstFrom 16 (fun k => (s.coreEn clu).testBit k) (xorFold 4 (dpaOf loc) 12) 16

namespace State

/-! ## Waits (R128) -/

/-- A line on which an access of the issuing context waits: reserved by a command or held by an AMSG handler, the context's own from its start on
excepted, or of a crate whose bias is being flipped (R128, R195, R204). -/
def lineHeld (s : State) (line : Nat) : Bool :=
  s.lineAhead s.ctx.act.serial line ||
  (isGlobal (line * 128) && !(SMap.get {} s.pkg.crates (crateOf (line * 128))).flips.isEmpty)
/-- The lines of a run. -/
def runLines (r : Nat × Nat) : List Nat := upto (lineOf r.1) ((r.1 % 128 + r.2 - 1) / 128 + 1)
/-- The lines of some runs, each once, in order. -/
def linesOf : List (Nat × Nat) → List Nat
  | [] => []
  | r :: rs => runLines r ++ (linesOf rs).filter fun l => !(runLines r).contains l
def anyHeld (s : State) (runs : List (Nat × Nat)) : Bool := (linesOf runs).any s.lineHeld
/-- The context's next event other than an ACC waits for its core's voluntary drains (R224). -/
def drainsOut (s : State) : Bool := decide (s.core.unacked ≠ 0)
/-- The unit waits, and issues again when the context is next served (R81, R128); for the core's own drains alone it is STALLED (R224). -/
def holdWith (s : State) (w : Wait) : Res :=
  if s.drainsOut && s.ctx.st != .waiting then .stall s (s.cycle + 1) else .wait (s.setWait w)
/-- The same with nothing to keep. -/
def hold (s : State) : Res := s.holdWith s.waitNow
/-- A DONE that cannot complete yet is STALLED (R81, R102, R124). -/
def holdEnd (s : State) : Res := .stall (s.setWait { s.waitNow with ending := true }) (s.cycle + 1)
/-- A line of THRTAB that the DONE of the issuing wave task reads θ from is held (R183, R294). -/
def thetaHeld (s : State) : Bool :=
  match s.ctx.act.kind, s.ctx.act.msg with
  | .wavetask, some m =>
    match s.crec m.wHandle with
    | some r => ((s.blocksOf m.wHandle).any fun b => b.bid == m.wBid) && !(s.ent (m.wHandle / 16384) m.wBid (layerOf s.ctx.ord.toNat)).doomed &&
        s.lineHeld (lineOf (thetaAt r (layerOf s.ctx.ord.toNat)))
    | none => false
  | _, _ => false

/-- Park on an absent page: the die's window opens, or is joined (R393). -/
def parkAt (s : State) (die : Nat) (p : Park) : State :=
  s.modDie die fun x => { x with parks := x.parks ++ [p], winStart := some (x.winStart.getD (s.tick die)) }
/-- The issuing context parks. -/
def parkCtx (s : State) (key page access : Nat) (val : Word) : Res :=
  .wait ((s.parkAt s.die { key := key, page := page, access := access, agent := 0, site := s.pkg.num * 4096 + s.site, tick := s.tick s.die }).setWait
    { s.waitNow with parked := some (key, page), walker := none, pval := val })

/-! ## Reaching the bytes of an access -/

/-- An access can go on with its runs, or the unit ends otherwise. -/
inductive Go where
  | go (s : State) (runs : List (Nat × Nat))
  | stop (r : Res)

def needCode : Need → Nat
  | .write => 1
  | .both => 1
  | .fetch => 2
  | _ => 0

/-- Resolve and check an access of the issuing context (R198): alignment, windows, pantry rules, translation, media. An absent page parks
it (R179); a shelf in a mode switch makes it wait (R173). PUBF reaches no byte, and so no medium. -/
def reach (s : State) (nd : Need) (am : Nat) (a : Word) (al n : Nat) (ps : List (Nat × Nat)) (j : Nat := 0) : Go :=
  match s.addr s.me nd am a al n ps j with
  | .trap c v => .stop (.trap c v)
  | .busy => .stop s.hold
  | .absent k p v =>
    if s.waitNow.parked = some (k, p) then .stop s.hold
    else .stop (s.parkCtx k p (needCode nd) v)
  | .ok runs trs =>
    match (if nd = .code then none else s.mediaFault (nd == .read || nd == .both) runs) with
    | some (i, c) => .stop (.trap c (a + BitVec.ofNat 64 (ps.getD i (0, 0)).1))
    | none => .go (s.keepLeaves s.ctx.ask.toNat trs) runs

/-! ## Pantry FIFOs (R174 to R176) -/

/-- The shelf, as 32 × cluster + shelf, whose FIFO an access at `a` moves slots of; the access has passed its first checks. -/
def fifoAt (s : State) (am : Nat) (a : Word) (al n : Nat) : Option Nat :=
  if a.toNat % al = 0 ∧ s.headFault s.me am a n = none then
    match s.place s.me .read am a.toNat 0 with
    | .at loc none =>
      let h := shelfOf loc
      let o := shelfOff loc
      if (SMap.get {} (s.cluAt (h / 32)).shelves (h % 32)).mode = .fifo ∧ 128 ≤ o ∧ (h % 2 = 0 ∨ o < 0x36000) then some h else none
    | _ => none
  else none
/-- A location lies in a FIFO shelf, whatever its offset. -/
def inFifo (s : State) (loc : Nat) : Bool :=
  isPantry loc && (SMap.get {} (s.cluAt (shelfOf loc / 32)).shelves (shelfOf loc % 32)).mode == .fifo

/-- A location is one of the slots of a FIFO shelf: neither its header nor the save area (R174, R175). -/
def inSlots (s : State) (loc : Nat) : Bool :=
  s.inFifo loc && decide (128 ≤ shelfOff loc) && (decide (shelfOf loc % 2 = 0) || decide (shelfOff loc < 0x36000))

/-- Capacity in slots. -/
def fifoCap (h : Nat) : Nat := if h % 2 = 0 then 32752 else 27632
def fifoHead (s : State) (h : Nat) : Nat := s.load (ploc (h / 32) (h % 32) 0) 8
def fifoTail (s : State) (h : Nat) : Nat := s.load (ploc (h / 32) (h % 32) 8) 8
/-- The count n = (TAIL − HEAD) mod 2^64. -/
def fifoCount (s : State) (h : Nat) : Nat := (s.fifoTail h + 2 ^ 64 - s.fifoHead h) % 2 ^ 64
/-- The location of slot `i`. -/
def slotLoc (h i : Nat) : Nat := ploc (h / 32) (h % 32) (128 + 8 * (i % fifoCap h))
/-- `k` slots from slot `i` on. -/
def slots (s : State) (h i : Nat) : Nat → List Byte
  | 0 => []
  | k + 1 => Memory.readN s.mem (slotLoc h (i % 2 ^ 64)) 8 ++ slots s h (i + 1) k
def putSlots (s : State) (h i : Nat) : List Byte → Nat → State
  | _, 0 => s
  | bs, k + 1 => putSlots (s.wr (slotLoc h (i % 2 ^ 64)) (bs.take 8)) h (i + 1) (bs.drop 8) k

/-- The lines of a pop or a push of `k` slots from slot `i` on, the header's first. -/
def fifoLines (h i k : Nat) : List Nat := linesOf ((ploc (h / 32) (h % 32) 0, 16) :: (upto i k).map fun j => (slotLoc h (j % 2 ^ 64), 8))
/-- A pop meets an uncorrectable line: the header's, or with `k` slots there, one of theirs. It returns no data (R150, R397). -/
def popBad (s : State) (h k : Nat) : Bool := (fifoLines h (s.fifoHead h) k).any fun l => SMap.get false s.pkg.bad l
/-- A pop or a push waits: for slots, for the core's drains, for a speculative task's turn, or for a line that is held (R128, R175, R224, R330). -/
def fifoWaits (s : State) (h k : Nat) (pop : Bool) : Bool :=
  s.drainsOut || s.speculative || (if pop then decide (s.fifoCount h < k) else decide (fifoCap h < s.fifoCount h + k)) ||
    (fifoLines h (if pop then s.fifoHead h else s.fifoTail h) k).any s.lineHeld
/-- The shelf that an access in generic or `.loc` mode names is in a mode switch: the access waits, whatever its mask, for under the new mode it may
move slots (R173, R176). -/
def shelfBusy (s : State) (am : Nat) (a : Word) (al n : Nat) : Bool :=
  decide (am < 2 ∧ a.toNat % al = 0 ∧ s.headFault s.me am a n = none) && s.place s.me .read am a.toNat 0 == .busy
/-- The first byte of an access's pieces that lies in the save area of an odd FIFO shelf: PERMISSION for an unprivileged context (R171). -/
def fifoPast (s : State) (h : Nat) (a : Word) (ps : List (Nat × Nat)) : Option Word :=
  if s.privileged || h % 2 == 0 then none
  else (ps.find? fun p => decide (0x36000 ≤ a.toNat % 2 ^ 18 + p.1)).map fun p => a + BitVec.ofNat 64 p.1
/-- Pop `k` slots in one event. -/
def pop (s : State) (h k : Nat) : List Byte × State :=
  (s.slots h (s.fifoHead h) k, s.wr (ploc (h / 32) (h % 32) 0) (natToBytes 8 ((s.fifoHead h + k) % 2 ^ 64)))
/-- Push `k` slots in one event. An uncorrectable header's write makes its other bytes zero (R397). -/
def push (s : State) (h k : Nat) (bs : List Byte) : State :=
  let s := s.mendLine (lineOf (ploc (h / 32) (h % 32) 0)) false
  let t := s.fifoTail h
  (s.putSlots h t bs k).wr (ploc (h / 32) (h % 32) 8) (natToBytes 8 ((t + k) % 2 ^ 64))

/-! ## Loads and stores of runs -/

/-- Allocate the lines of an access in the core's L1: each may evict a partial line (R402). Pantry lines are never held there (R169). -/
def allocate (s : State) : Nat → List Nat → State
  | _, [] => s
  | j, l :: ls => allocate (if isGlobal (l * 128) then s.evict l j else s) (j + 1) ls

/-- The bytes a load returns, or why the unit ends otherwise. -/
inductive Got where
  | got (bs : List Byte) (s : State)
  | stop (r : Res)

/-- Read runs: after the waits of R128 and R224, all before the first event (R150), and served at the homes of range lines with tolerance ε (none: 0;
R190). The sequences that have ended on some lines stay until the load is served, except where a line of it is held. -/
def loadRuns (s : State) (runs : List (Nat × Nat)) (eps : Option Ex) : Got :=
  let ls := linesOf runs
  if (s.drainsOut && !s.ownForcing ls) || s.anyHeld runs then .stop (s.rangeServed s.site ls).hold
  else match s.rangeTryAll eps s.site (ascending ls) with
    | (false, t) => .stop t.hold
    | (true, t) =>
      let t := (t.allocate 0 ls).touch ls
      .got (t.rdRuns runs) (t.rangeServed s.site ls)

/-- The core's own partial lines of an access that writes are drained voluntarily first (R188). -/
def drainOwnLines (s : State) : List Nat → State
  | [] => s
  | l :: ls => drainOwnLines (match s.rangeAt l with | some (_, r) => s.drainOwn (coreOf s.site) l r.fmt | none => s) ls

/-- What an event that writes waits for: its turn as an effect of a speculative task (R330), reservations (R128), drains (R224), and a full drain of range
lines at their homes (R190). None: it can write now, in the state given. -/
def homeWait (s : State) (runs : List (Nat × Nat)) : Option Res × State :=
  let ls := linesOf runs
  if s.speculative || s.anyHeld runs then (some (s.rangeServed s.site ls).hold, s)
  else if s.drainsOut && !s.ownForcing ls then (some s.hold, s)
  else match s.rangeTryAll none s.site (ascending ls) with
    | (false, t) => (some t.hold, t)
    | (true, t) => (none, t)
/-- The same for a store: the core's own partial lines are drained voluntarily first (R188). -/
def writeWait (s : State) (runs : List (Nat × Nat)) : Option Res × State :=
  let ls := linesOf runs
  let own := ls.any fun l => (s.rangeAt l).isSome && (s.part (coreOf s.site) l).isSome
  if !s.speculative && !s.anyHeld runs && own && s.waitNow.stage == 0 then
    let t := s.drainOwnLines ls
    (some (.wait (t.setWait { s.waitNow with stage := 1 })), t)
  else s.homeWait runs

/-- A core that writes owns its lines exclusively; their write times pass every read lease granted (R181). A line in host bias stays with the host (R363). -/
def own (s : State) (core : Nat) : List Nat → State
  | [] => s
  | l :: ls =>
    let c := SMap.get {} s.pkg.coh l
    own (if isGlobal (l * 128) then s.modPkg fun p => { p with coh := SMap.set {} p.coh l { holder := if s.hostBias l then none else some core, wts := c.rts + 1, rts := c.rts + 1 } }
      else s) core ls
/-- A write by a core: bytes written, shadows renewed, lines owned, sequences of the issuing context ended. -/
def coreWrite (s : State) (core : Nat) (runs : List (Nat × Nat)) (bs : List Byte) : State :=
  let ls := linesOf runs
  ((((s.touch ls).wrRuns runs bs).reshadowRuns runs).own core ls).rangeServed s.site ls
/-- A store's write: its lines come into the issuer's L1 (R402). -/
def writeRuns (s : State) (runs : List (Nat × Nat)) (bs : List Byte) : State := (s.allocate 0 (linesOf runs)).coreWrite (coreOf s.site) runs bs

/-- Write runs, or wait. -/
def storeRuns (s : State) (runs : List (Nat × Nat)) (bs : List Byte) : Res :=
  match s.writeWait runs with
  | (some r, _) => r
  | (none, t) => .ok (t.writeRuns runs bs)

/-! ## Service activations (R83) -/

def serviceKind (k : Kind) : Bool := k == .amo || k == .amsg || k == .reduce
/-- Contexts of a core, ascending. -/
def ctxsOf (core : Nat) : List Nat := upto (4 * core) 4
/-- DORMANT contexts of a core that may take a service activation: the service context, or any while SERVICE is clear. -/
def serviceCtx (s : State) (core : Nat) : Option Nat :=
  (ctxsOf core).find? fun x => ((s.coreAt core).service == false || x % 4 == 3) && (s.ctxAt x).st == .dormant
/-- An AMSG handler runs at a core: atomics of that owner wait for its end (R204). -/
def handlerRuns (s : State) (core : Nat) : Bool := (ctxsOf core).any fun x => (s.ctxAt x).act.kind == .amsg && (s.ctxAt x).st != .dormant
/-- Two messages that one sender sends in program order (R338). -/
def inOrder (a b : Msg) : Bool :=
  let sent := fun (k : Kind) => k == .send || k == .hop || k == .launch || k == .reduce
  sent a.kind && sent b.kind && a.src == b.src && a.srcPkg == b.srcPkg
/-- The first message of an inbox that passes a test; the messages of one sender are not taken past one another (D2 of R338; log entry 46). -/
def firstMsg (p : Msg → Bool) : List Msg → Option Msg
  | [] => none
  | m :: ms => if p m then some m else firstMsg (fun x => p x && !inOrder m x) ms
/-- The service message that is taken next, with its inbox: in class order, then in arrival order; none while an AMSG handler runs. -/
def serviceNext (s : State) (core : Nat) : Option (Nat × Msg) :=
  if s.handlerRuns core then none
  else firstBy (fun a b => decide (a.2.cls < b.2.cls) || (a.2.cls == b.2.cls && decide (a.2.arr < b.2.arr)))
    ((upto 0 16).filterMap fun i => (firstMsg (fun m => serviceKind m.kind) (s.inbox core i)).map fun m => (i, m))
/-- The next service message, when it is of a kind and a context can take it. -/
def takeService (s : State) (core : Nat) (kind : Kind) : Option (Nat × Msg × Nat) :=
  match s.serviceNext core, s.serviceCtx core with
  | some (i, m), some x => if m.kind = kind then some (i, m, x) else none
  | _, _ => none
/-- The context in which a core takes a request that arrives now: no other waits for it there (R83). -/
def serviceFree (s : State) (core : Nat) : Option Nat :=
  if s.handlerRuns core || (upto 0 16).any (fun i => (s.inbox core i).any fun m => serviceKind m.kind) then none else s.serviceCtx core

/-! ## Atomics at their owner (R203) -/

/-- The stage of a wait for the reply to a request (R203, R204). -/
def replyStage : Nat := 2
/-- The reply to a request, when it has arrived. -/
def replyOf (s : State) (token : Nat) : Option Reply := s.ctx.replies.find? fun r => r.token == token
def dropReply (s : State) (token : Nat) : State := s.setCtx { s.ctx with replies := s.ctx.replies.filter fun r => r.token != token }

/-- The kind-AMO activation at its owner has ended, by its record (R372, R375); `x` is the context that has run it. -/
def amoRecord (s : State) (x : Nat) : State :=
  s.serviceEnd x { s.mkMsg .amo x s.ctx.pri.toNat 0#64 [] with arr := s.tick (dieOf x) }

/-- One RMW event on `n` bytes at `a` by operation `op` (R203, R229, R350), at the location's owner: at once, when the owner's service context is
free for it, and otherwise by a message that waits for its turn there (R83); a service activation of the owning core performs it itself. `after` sets
the unit's registers from the value it answers; `d` names the register that the value goes to, when that is all (R99). The issuer's L1 takes no line (R402),
and a range element's line is drained by the home's sequence alone (R188, R203). -/
def rmw (s : State) (a : Word) (n op : Nat) (operand compare : Word) (d : List Nat) (after : State → Word → Res) : Res :=
  let w := s.waitNow
  if w.stage = replyStage then
    match s.replyOf w.token with
    | none => .wait s
    | some r => after (s.dropReply w.token) r.value
  else match s.reach .both 0 a n n (onePiece n) with
  | .stop r => r
  | .go s runs =>
    let loc := (runs.getD 0 (0, 0)).1
    let c := s.owner loc
    if s.inFifo loc then .trap 0x09#8 a
    else match s.homeWait runs with
      | (some r, _) => r
      | (none, t) =>
        let m := bytesToNat (t.rdRuns runs)
        let done := t.coreWrite c runs (natToBytes n (opNew op n m operand compare))
        if isService s.ctx ∧ c = coreOf s.site then after done (opVal op n m)
        else match t.serviceFree c with
          | some x => after (done.amoRecord x) (opVal op n m)
          | none =>
            let (id, s) := (t.rangeServed t.site (linesOf runs)).fresh
            let m := { s.mkMsg .amo (4 * c + 3) s.ctx.pri.toNat 0#64 [] with
              req := some { asker := s.site, token := id, key := loc, op := op, wide := n == 8, operand := operand, compare := compare } }
            .wait ((s.post m).setWait { s.waitNow with stage := replyStage, token := id, kept := true, data := d })

end State

/-- Lanes of `e` bytes merged into a register's bytes: active lanes take the next bytes of the data, the others keep theirs; `skip` says that
an inactive lane's data is present and dropped (R150, R176). -/
def mergeLanes (e : Nat) (skip : Bool) : List Bool → List Byte → List Byte → List Byte
  | [], _, _ => []
  | b :: bs, old, new =>
    (if b then new.take e else old.take e) ++ mergeLanes e skip bs (old.drop e) (if b || skip then new.drop e else new)
/-- The bytes of the active lanes, or all with zeros for the inactive ones. -/
def activeBytes (e : Nat) (fill : Bool) : List Bool → List Byte → List Byte
  | [], _ => []
  | b :: bs, x => (if b then x.take e else if fill then List.replicate e 0#8 else []) ++ activeBytes e fill bs (x.drop e)
/-- The pieces of active lanes, from lane `i` on. -/
def activePieces (e : Nat) : Nat → List Bool → List (Nat × Nat)
  | _, [] => []
  | i, b :: bs => (if b then [(i * e, e)] else []) ++ activePieces e (i + 1) bs

end Sys2Proof.Machine
end

