-- ==== Sys2Proof/Machine/MemInstr.lean ====
section
/-! DEFINITION. The instructions that access memory: LD, ST, VLD, VST, VLDX, VSTX, LDT, ACC, AMO, AMSG, FENCE, HINT (06_core_scalar R126
to R128, 07_core_vector R150, 11_memory_instructions R198 to R207). -/
namespace Sys2Proof.Machine
open Sys2Proof

/-- Base plus a scaled offset (R27, R126). -/
def mAddr (base : Word) (off : BitVec 7) (n : Nat) : Word := base + sext64 off * BitVec.ofNat 64 n

/-! ## LD and ST (R126, R127) -/

/-- Bytes of a scalar size code, and the extension of what LD returns: sz[2] for signed (R27). -/
def szBytes (z : BitVec 3) : Nat := 2 ^ (z.toNat % 4)
def ldExt (z : BitVec 3) (v : Nat) : Word :=
  match z with
  | 4#3 => sext64 (BitVec.ofNat 8 v)
  | 5#3 => sext64 (BitVec.ofNat 16 v)
  | 6#3 => sext64 (BitVec.ofNat 32 v)
  | _ => BitVec.ofNat 64 v

namespace State

/-- LD's effect at address `a`. -/
def ldBody (s : State) (t : BitVec 5) (a : Word) (z : BitVec 3) (m : BitVec 2) : Res :=
  let n := szBytes z
  match s.fifoAt m.toNat a n n with
  | some h =>
    if s.popBad h 0 then .trap 0x0F#8 a
    else if s.fifoWaits h 1 true then s.hold
    else if s.popBad h 1 then .trap 0x0F#8 a
    else
      let (bs, s) := s.pop h 1
      .ok (s.putG t (ldExt z (bytesToNat (bs.take n))))
  | none =>
    match s.reach .read m.toNat a n n (onePiece n) with
    | .stop r => r
    | .go s runs =>
      match s.loadRuns runs none with
      | .stop r => r
      | .got bs s => .ok (s.putG t (ldExt z (bytesToNat bs)))

/-- ST's effect at address `a`. -/
def stBody (s : State) (x : Word) (a : Word) (z : BitVec 3) (m : BitVec 2) : Res :=
  let n := szBytes z
  match s.fifoAt m.toNat a n n with
  | some h => if s.fifoWaits h 1 false then s.hold else .ok (s.push h 1 (natToBytes 8 (x.toNat % 2 ^ (8 * n))))
  | none =>
    match s.reach .write m.toNat a n n (onePiece n) with
    | .stop r => r
    | .go s runs => s.storeRuns runs (natToBytes n x.toNat)

end State

/-- LD (R126). -/
def execLd (stl : BitVec 3) (t a : BitVec 5) (z : BitVec 3) (m : BitVec 2) (o : BitVec 7) (s : State) : Host.Outcome State Fault Refusal :=
  s.unit 1 stl [(.g, a.toNat)] fun s => s.ldBody t (mAddr (s.rg 0 a) o (szBytes z)) z m
/-- ST (R127). -/
def execSt (stl : BitVec 3) (t a : BitVec 5) (z : BitVec 3) (m : BitVec 2) (o : BitVec 7) (s : State) : Host.Outcome State Fault Refusal :=
  s.unit 1 stl [(.g, a.toNat), (.g, t.toNat)] fun s => s.stBody (s.rg 1 t) (mAddr (s.rg 0 a) o (szBytes z)) z m

/-! ## VLD and VST (R150, R176) -/

namespace State

/-- Which lanes of `e` bytes are active under a mask (R130). -/
def laneActs (s : State) (p : Pre) (e : Nat) : List Bool :=
  let m := s.maskOf p
  (upto 0 (s.vbytes / e)).map fun i => m.getLsbD i

/-- VLD's effect at address `a`, with lanes of `e` bytes. -/
def vldBody (s : State) (t : BitVec 5) (a : Word) (e : Nat) (m : BitVec 2) (acts : List Bool) : Res :=
  let n := s.vbytes
  let old := natToBytes n (if s.ctx.long then s.w t else (s.v t).setWidth 4096).toNat
  if s.shelfBusy m.toNat a e n then s.hold
  else match s.fifoAt m.toNat a e n with
  | some h =>
    match s.fifoPast h a (activePieces e 0 acts) with
    | some v => .trap 0x09#8 v
    | none =>
      if s.popBad h 0 then .trap 0x0F#8 a
      else if s.fifoWaits h (n / 8) true then s.hold
      else if s.popBad h (n / 8) then .trap 0x0F#8 a
      else
        let (bs, s) := s.pop h (n / 8)
        .ok (s.putV t (BitVec.ofNat 4096 (bytesToNat (mergeLanes e true acts old bs))))
  | none =>
    match s.reach .read m.toNat a e n (activePieces e 0 acts) with
    | .stop r => r
    | .go s runs =>
      match s.loadRuns runs none with
      | .stop r => r
      | .got bs s => .ok (s.putV t (BitVec.ofNat 4096 (bytesToNat (mergeLanes e false acts old bs))))

/-- VST's effect at address `a`. -/
def vstBody (s : State) (x : BitVec 4096) (a : Word) (e : Nat) (m : BitVec 2) (acts : List Bool) : Res :=
  let n := s.vbytes
  let bytes := natToBytes n x.toNat
  if s.shelfBusy m.toNat a e n then s.hold
  else match s.fifoAt m.toNat a e n with
  | some h =>
    match s.fifoPast h a (activePieces e 0 acts) with
    | some v => .trap 0x09#8 v
    | none => if s.fifoWaits h (n / 8) false then s.hold else .ok (s.push h (n / 8) (activeBytes e true acts bytes))
  | none =>
    match s.reach .write m.toNat a e n (activePieces e 0 acts) with
    | .stop r => r
    | .go s runs => s.storeRuns runs (activeBytes e false acts bytes)

end State

/-- VLD (R150). -/
def execVld (p : Pre) (stl : BitVec 3) (t a : BitVec 5) (z : BitVec 3) (m : BitVec 2) (o : BitVec 7) (s : State) : Host.Outcome State Fault Refusal :=
  s.unit (1 + p.words) stl ((.g, a.toNat) :: State.maskSrc p) fun s =>
    s.vldBody t (mAddr (s.rg 0 a) o s.vbytes) (szBytes z) m (s.laneActs p (szBytes z))
/-- VST (R150). -/
def execVst (p : Pre) (stl : BitVec 3) (t a : BitVec 5) (z : BitVec 3) (m : BitVec 2) (o : BitVec 7) (s : State) : Host.Outcome State Fault Refusal :=
  s.unit (1 + p.words) stl ([(.g, a.toNat), (s.vf, t.toNat)] ++ State.maskSrc p) fun s =>
    s.vstBody (s.rv 1 t) (mAddr (s.rg 0 a) o s.vbytes) (szBytes z) m (s.laneActs p (szBytes z))

/-! ## VLDX and VSTX (R200) -/

namespace State

/-- Reach the active lanes one by one: the first fault of the lowest faulting lane is the unit's. -/
def reachLanes (s : State) (nd : Need) (e : Nat) (j : Nat) : List Word → Go
  | [] => .go s []
  | a :: as =>
    match s.reach nd 0 a e e (onePiece e) j with
    | .stop r => .stop r
    | .go s rs =>
      if s.inFifo (rs.getD 0 (0, 0)).1 then .stop (.trap 0x09#8 a)
      else match reachLanes s nd e (j + 1) as with
        | .go s more => .go s (rs ++ more)
        | r => r

/-- The addresses of the active lanes in ascending order. -/
def laneAddrs (base : Word) (idx : BitVec 4096) (e c : Nat) (signed : Bool) : Nat → List Bool → List Word
  | _, [] => []
  | i, b :: bs =>
    let v : Word := if e = 4 then (if signed then sext64 (lane 32 idx i) else zext64 (lane 32 idx i)) else lane 64 idx i
    (if b then [base + v * BitVec.ofNat 64 (2 ^ c)] else []) ++ laneAddrs base idx e c signed (i + 1) bs

/-- The lanes that k[KC] selects. -/
def kcActs (s : State) (k : BitVec 3) (e : Nat) : List Bool :=
  let m := s.rk 3 k.toNat
  (upto 0 (s.vbytes / e)).map fun i => m.getLsbD i

end State

/-- Bytes of an indexed element (R200). -/
def xBytes (w : BitVec 1) : Nat := if w = 1#1 then 8 else 4

/-- VLDX (R200). -/
def execVldx (stl : BitVec 3) (d a b : BitVec 5) (k : BitVec 3) (c : BitVec 2) (g w : BitVec 1) (s : State) : Host.Outcome State Fault Refusal :=
  s.unit 1 stl [(.g, a.toNat), (s.vf, b.toNat), (.k, k.toNat)] fun s =>
    let e := xBytes w
    let acts := s.kcActs k e
    let old := natToBytes s.vbytes (if s.ctx.long then s.w d else (s.v d).setWidth 4096).toNat
    match s.reachLanes .read e 0 (State.laneAddrs (s.rg 0 a) (s.rv 1 b) e c.toNat (g == 1#1) 0 acts) with
    | .stop r => r
    | .go s runs =>
      match s.loadRuns runs none with
      | .stop r => r
      | .got bs s => .ok (s.putV d (BitVec.ofNat 4096 (bytesToNat (mergeLanes e false acts old bs))))
/-- VSTX (R200): lanes are written in ascending order, so a higher lane's write is the later one. -/
def execVstx (stl : BitVec 3) (d a b : BitVec 5) (k : BitVec 3) (c : BitVec 2) (g w : BitVec 1) (s : State) : Host.Outcome State Fault Refusal :=
  s.unit 1 stl [(.g, a.toNat), (s.vf, b.toNat), (s.vf, d.toNat), (.k, k.toNat)] fun s =>
    let e := xBytes w
    let acts := s.kcActs k e
    let bytes := activeBytes e false acts (natToBytes s.vbytes (s.rv 2 d).toNat)
    match s.reachLanes .write e 0 (State.laneAddrs (s.rg 0 a) (s.rv 1 b) e c.toNat (g == 1#1) 0 acts) with
    | .stop r => r
    | .go s runs => s.storeRuns runs bytes

/-! ## LDT and ACC (R201, R202) -/

/-- TRAPVAL of RANGE (R209). -/
def rangeVal (a : Word) (reason : Nat) : Word := a * 256#64 + BitVec.ofNat 64 reason

namespace State

/-- LDT's tolerance (R201). -/
def ldtEps (f : RFmt) (x : Word) : Ex :=
  if f.fp then (match f32Val (low32 x) with | .nan _ => Ex.ofInt 0 | y => Ex.abs y) else Ex.ofInt (x.toNat : Int)

/-- LDT of an ordinary location: one outside every active range, or in a range whose FREE has taken its place (R201, R211). -/
def ldtPlain (s : State) (t : BitVec 5) (runs : List (Nat × Nat)) : Res :=
  match s.loadRuns runs none with
  | .stop r => r
  | .got bs s => .ok (s.putG t (BitVec.ofNat 64 (bytesToNat bs)))
/-- LDT's effect at address `a`; it pops nothing, so that the slots of a FIFO shelf deny it (R175). -/
def ldtBody (s : State) (t : BitVec 5) (a : Word) (z : BitVec 3) : Res :=
  let n := szBytes z
  let tol := s.rg 1 t
  match s.reach .read 0 a n n (onePiece n) with
  | .stop r => r
  | .go s runs =>
    if s.inSlots (runs.getD 0 (0, 0)).1 then .trap 0x09#8 a
    else match s.rangeAt (lineOf (runs.getD 0 (0, 0)).1) with
      | none => s.ldtPlain t runs
      | some (_, r) =>
        if r.freeing then s.ldtPlain t runs
        else if n ≠ r.fmt.width then .trap 0x14#8 (rangeVal a 3)
        else
          let eps := ldtEps r.fmt tol
          match s.loadRuns runs (if eps.isZero then none else some eps) with
          | .stop r => r
          | .got bs s =>
            let v := bytesToNat bs
            .ok (s.putG t (if r.fmt = .i32 then sext64 (BitVec.ofNat 32 v) else BitVec.ofNat 64 v))

/-- The addends of an ACC by line: runs and their patterns, in order. -/
def accParts (w : Nat) : List (Nat × Nat) → List Word → List (Nat × Nat × Word)
  | [], _ => []
  | _, [] => []
  | (loc, _) :: rs, x :: xs => (lineOf loc, loc % 128 / w, x) :: accParts w rs xs
/-- One ACC event per line, in ascending order (R202). -/
def accLines (s : State) (f : RFmt) (ps : List (Nat × Nat × Word)) : List Nat → State
  | [] => s
  | l :: ls => accLines ((if s.hostBias l then s else s.evict l ls.length).accLine l f ((ps.filter fun p => p.1 == l).map (·.2))) f ps ls

/-- ACC's effect: elements of `w` bytes with addends `xs` from address `a` on. It waits only for its turn and for reserved lines. -/
def accBody (s : State) (a : Word) (w : Nat) (xs : List Word) : Res :=
  let n := w * xs.length
  match s.reach .write 0 a w n ((upto 0 xs.length).map fun i => (i * w, w)) with
  | .stop r => r
  | .go s runs =>
    match s.rangeAt (lineOf (runs.getD 0 (0, 0)).1) with
    | none => .trap 0x14#8 (rangeVal a 2)
    | some (_, r) =>
      if r.freeing then .trap 0x14#8 (rangeVal a 2)
      else if runs.any (fun x => !(r.lines.contains (lineOf x.1))) then .trap 0x14#8 (rangeVal a 4)
      else if w ≠ r.fmt.width then .trap 0x14#8 (rangeVal a 3)
      else if s.speculative || s.anyHeld runs then s.hold
      else .ok (s.accLines r.fmt (accParts w runs xs) (linesOf runs))

end State

/-- LDT (R201). -/
def execLdt (stl : BitVec 3) (t a : BitVec 5) (z : BitVec 3) (o : BitVec 7) (s : State) : Host.Outcome State Fault Refusal :=
  s.unit 1 stl [(.g, a.toNat), (.g, t.toNat)] fun s => s.ldtBody t (mAddr (s.rg 0 a) o (szBytes z)) z
/-- ACC, scalar (R202). -/
def execAcc (stl : BitVec 3) (t a : BitVec 5) (z : BitVec 2) (o : BitVec 7) (s : State) : Host.Outcome State Fault Refusal :=
  s.unit 1 stl [(.g, a.toNat), (.g, t.toNat)] fun s =>
    s.accBody (mAddr (s.rg 0 a) o (2 ^ z.toNat)) (2 ^ z.toNat) [s.rg 1 t]
/-- ACC, vector (R202): every lane is added. -/
def execAccVec (stl : BitVec 3) (t a : BitVec 5) (z : BitVec 2) (o : BitVec 7) (s : State) : Host.Outcome State Fault Refusal :=
  s.unit 1 stl [(.g, a.toNat), (s.vf, t.toNat)] fun s =>
    let w := 2 ^ z.toNat
    let x := s.rv 1 t
    s.accBody (mAddr (s.rg 0 a) o s.vbytes) w ((upto 0 (s.vbytes / w)).map fun i => BitVec.ofNat 64 (x.toNat / 2 ^ (8 * w * i) % 2 ^ (8 * w)))

/-! ## AMO (R203) -/

/-- AMO at width w (64 bits for 1, 32 for 0). -/
def State.amo (s : State) (f : AmoFn) (stl : BitVec 3) (d a b : BitVec 5) (w : BitVec 1) : Host.Outcome State Fault Refusal :=
  s.unit 1 stl ([(.g, a.toNat), (.g, b.toNat)] ++ if f = .cas then [(.g, d.toNat)] else []) fun s =>
    let x := s.rg 1 b
    let c := if f = .cas then s.rg 2 d else 0#64
    s.rmw (s.rg 0 a) (if w = 1#1 then 8 else 4) f.num x c [d.toNat] fun t m => .ok (t.putG d m)

/-- AMO.ADD. -/
def execAmoAdd (stl : BitVec 3) (d a b : BitVec 5) (w : BitVec 1) (s : State) : Host.Outcome State Fault Refusal := s.amo .add stl d a b w
/-- AMO.MIN. -/
def execAmoMin (stl : BitVec 3) (d a b : BitVec 5) (w : BitVec 1) (s : State) : Host.Outcome State Fault Refusal := s.amo .min stl d a b w
/-- AMO.MAX. -/
def execAmoMax (stl : BitVec 3) (d a b : BitVec 5) (w : BitVec 1) (s : State) : Host.Outcome State Fault Refusal := s.amo .max stl d a b w
/-- AMO.MINN. -/
def execAmoMinn (stl : BitVec 3) (d a b : BitVec 5) (w : BitVec 1) (s : State) : Host.Outcome State Fault Refusal := s.amo .minn stl d a b w
/-- AMO.MAXN. -/
def execAmoMaxn (stl : BitVec 3) (d a b : BitVec 5) (w : BitVec 1) (s : State) : Host.Outcome State Fault Refusal := s.amo .maxn stl d a b w
/-- AMO.AND. -/
def execAmoAnd (stl : BitVec 3) (d a b : BitVec 5) (w : BitVec 1) (s : State) : Host.Outcome State Fault Refusal := s.amo .and stl d a b w
/-- AMO.OR. -/
def execAmoOr (stl : BitVec 3) (d a b : BitVec 5) (w : BitVec 1) (s : State) : Host.Outcome State Fault Refusal := s.amo .or stl d a b w
/-- AMO.XOR. -/
def execAmoXor (stl : BitVec 3) (d a b : BitVec 5) (w : BitVec 1) (s : State) : Host.Outcome State Fault Refusal := s.amo .xor stl d a b w
/-- AMO.SWAP. -/
def execAmoSwap (stl : BitVec 3) (d a b : BitVec 5) (w : BitVec 1) (s : State) : Host.Outcome State Fault Refusal := s.amo .swap stl d a b w
/-- AMO.CAS. -/
def execAmoCas (stl : BitVec 3) (d a b : BitVec 5) (w : BitVec 1) (s : State) : Host.Outcome State Fault Refusal := s.amo .cas stl d a b w
/-- AMO.FADD. -/
def execAmoFadd (stl : BitVec 3) (d a b : BitVec 5) (s : State) : Host.Outcome State Fault Refusal := s.amo .fadd stl d a b 0#1
/-- AMO.FMIN. -/
def execAmoFmin (stl : BitVec 3) (d a b : BitVec 5) (s : State) : Host.Outcome State Fault Refusal := s.amo .fmin stl d a b 0#1

/-! ## AMSG (R204) -/

namespace State

/-- `c` payload registers from `b` on. -/
def payload (s : State) (b : BitVec 5) (c : Nat) : List Word := (upto 0 c).map fun i => s.rg (8 + i) (b + BitVec.ofNat 5 i)
/-- Their numbers, for the ready test. -/
def runSrcs (b : BitVec 5) (c : Nat) : List (File × Nat) := (upto b.toNat c).map fun r => (.g, r)

/-- AMSG's effect: the request goes to the owner, and the unit waits for the handler's reply. R204 denies it no FIFO shelf. -/
def amsgBody (s : State) (d : BitVec 5) (a entry : Word) (pay : List Word) : Res :=
  match s.ctx.wait with
  | some w =>
    if w.stage = replyStage then
      match s.replyOf w.token with
      | none => .wait s
      | some r => if r.status = 0 then .ok ((s.dropReply w.token).putG d r.value) else .trap 0x17#8 (engineVal r.status a)
    else start s
  | none => start s
where
  start (s : State) : Res :=
    if isService s.ctx then .trap 0x17#8 (engineVal 0x18 0#64)
    else match s.reach .both 0 a 8 8 (onePiece 8) with
      | .stop r => r
      | .go s runs =>
        let loc := (runs.getD 0 (0, 0)).1
        if s.speculative || s.drainsOut then s.hold
        else
          let (id, s) := s.fresh
          let m := { s.mkMsg .amsg (4 * s.owner loc + 3) s.ctx.pri.toNat (entryOf entry) (a :: pay) with
            req := some { asker := s.site, token := id, key := loc } }
          .wait ((s.post m).setWait { s.waitNow with stage := replyStage, token := id, kept := true, data := [d.toNat] })

end State

/-- AMSG (R204). -/
def execAmsg (stl : BitVec 3) (d a b : BitVec 5) (c : BitVec 3) (s : State) : Host.Outcome State Fault Refusal :=
  s.unit 1 stl ([(.g, d.toNat), (.g, a.toNat)] ++ State.runSrcs b c.toNat) fun s => s.amsgBody d (s.rg 0 a) (s.rg 1 d) (s.payload b c.toNat)

/-! ## FENCE (R206) -/

/-- FENCE: one synchronising event, with no effect of its own on this machine's one order. It waits for the core's voluntary drains (R224). -/
def execFence (stl : BitVec 3) (s : State) : Host.Outcome State Fault Refusal :=
  s.unit 1 stl [] fun s => if s.drainsOut then s.hold else .ok s

namespace State

/-- The clusters of the gang that the issuing context's lease controls, or its own (R13). -/
def gangOf (s : State) : List Nat :=
  match s.pairOf s.site with | some p => if s.holds p then membersOf p else [clusterOf s.site] | none => [clusterOf s.site]
/-- A partial line holds an addition: some element or the tracker is not as it was allocated. -/
def Partial.holds (p : Partial) (f : RFmt) : Bool := p.track != 0#64 || p.elems.any (· != f.ident)
/-- The cores of a scope that hold additions to ranges of the issuer's key, or have sent drains of them that the home has not added, with those
lines. -/
def drainSet (s : State) (scope : Nat) : List (Nat × Nat) :=
  let mine := fun (l : Nat) => match s.rangeAt l with | some (_, r) => r.key == s.ctx.ask.toNat | none => false
  let full := fun (c l : Nat) => match s.part c l, s.rangeAt l with | some p, some (_, r) => Partial.holds p r.fmt | _, _ => false
  let held := s.cores.flatMap fun c => ((SMap.keys c.2.parts).filter (full c.1)).map fun l => (c.1, l)
  let sent := s.pkg.rlines.flatMap fun e => e.2.up.filterMap fun m => match m with | .drain d => if d.empty then none else some (d.core, e.1) | _ => none
  (held ++ sent).eraseDups.filter fun x => inScope scope s.site s.gangOf (4 * x.1) && mine x.2
def drainAll (s : State) : List (Nat × Nat) → State
  | [] => s
  | (c, l) :: xs => drainAll (match s.rangeAt l, s.part c l with
    | some (_, r), some p => if Partial.holds p r.fmt then s.drainOwn c l r.fmt else s
    | _, _ => s) xs

end State

/-- FENCE.DRAIN (R206): every core of the scope drains its partial lines of the issuer's key; the fence takes its place once no core of the scope holds an
addition to a range of the key that its home has not added, whenever it was made (M7 of R226). -/
def execFenceDrain (stl c : BitVec 3) (s : State) : Host.Outcome State Fault Refusal :=
  s.unit 1 stl [] fun s =>
    let ps := s.drainSet c.toNat
    if ps.isEmpty then (if s.drainsOut then s.hold else .ok s)
    else .wait ((s.drainAll ps).setWait s.waitNow)

namespace State
/-- Transfers that an activation of the issuing context has outstanding (R217). -/
def myXfers (s : State) : List XCmd := s.pkg.xfers.filter fun x => x.site == s.site && x.serial == s.ctx.act.serial
end State

/-- FENCE.ENG (R206): waits until every transfer of this activation has completed. -/
def execFenceEng (stl : BitVec 3) (s : State) : Host.Outcome State Fault Refusal :=
  s.unit 1 stl [] fun s => if !s.myXfers.isEmpty || s.drainsOut then s.hold else .ok s

/-! ## HINT (R207, R197) -/

namespace State

/-- The location a hint names; none when R197 drops it or it names the pantry window. -/
def hintLoc (s : State) (a : Word) : Option Nat :=
  if s.headFault s.me 0 a 1 ≠ none then none
  else match s.place s.me .read 0 a.toNat 0 with
    | .at loc _ => if isGlobal loc then some loc else none
    | _ => none
def hintDrop (s : State) : State :=
  s.setCtx { s.ctx with hintDrops := if s.ctx.hintDrops = BitVec.allOnes 32 then s.ctx.hintDrops else s.ctx.hintDrops + 1#32 }
/-- A hint: dropped and counted, or its effect `f` on the location; no fault and no wait. -/
def hint (s : State) (stl : BitVec 3) (a : BitVec 5) (o : BitVec 7) (f : State → Nat → State) : Host.Outcome State Fault Refusal :=
  s.unit 1 stl [(.g, a.toNat)] fun s =>
    match s.hintLoc (mAddr (s.rg 0 a) o 128) with
    | none => .ok s.hintDrop
    | some loc => .ok (f s loc)
/-- A crate in the cellar may be queued for promotion (R192, R197): the choice is left open. -/
def mayPromote (s : State) (crate : Nat) : State :=
  if s.medium crate = .cellar ∧ (SMap.get {} s.pkg.crates crate).moving = none ∧ (s.reg (crate % 4) 0x2000).getLsbD 0 = true then
    (if s.choose 40000 2 = 0 then s else s.modCrate crate fun c => { c with moving := some .hbm })
  else s

end State

/-- HINT.L1: the line comes into the core's L1, which may evict a partial line (R402). -/
def execHintL1 (stl : BitVec 3) (a : BitVec 5) (o : BitVec 7) (s : State) : Host.Outcome State Fault Refusal :=
  s.hint stl a o fun s loc => s.evict (lineOf loc) 0
/-- HINT.CLU. -/
def execHintClu (stl : BitVec 3) (a : BitVec 5) (o : BitVec 7) (s : State) : Host.Outcome State Fault Refusal := s.hint stl a o fun s _ => s
/-- HINT.MSC. -/
def execHintMsc (stl : BitVec 3) (a : BitVec 5) (o : BitVec 7) (s : State) : Host.Outcome State Fault Refusal := s.hint stl a o fun s _ => s
/-- HINT.CRATE. -/
def execHintCrate (stl : BitVec 3) (a : BitVec 5) (o : BitVec 7) (s : State) : Host.Outcome State Fault Refusal :=
  s.hint stl a o fun s loc => s.mayPromote (crateOf loc)
/-- HINT.LAST. -/
def execHintLast (stl : BitVec 3) (a : BitVec 5) (o : BitVec 7) (s : State) : Host.Outcome State Fault Refusal := s.hint stl a o fun s _ => s
/-- HINT.CNT: the hint-drop counter. -/
def execHintCnt (stl : BitVec 3) (t : BitVec 5) (s : State) : Host.Outcome State Fault Refusal :=
  s.unit 1 stl [] fun s => .ok (s.putG t (s.ctx.hintDrops.setWidth 64))

end Sys2Proof.Machine
end

