-- ==== Sys2Proof/Machine/Save.lean ====
section
/-! DEFINITION. The image of a halted activation, its halt and its restoration (05_core_model, R98 to R102). -/
namespace Sys2Proof.Machine
open Sys2Proof

/-- FRMCTL and back (R89). -/
def Frame.word (f : Frame) : Word :=
  BitVec.ofNat 64 ((if f.act then 2 ^ 63 else 0) + (if f.wrap then 2 ^ 60 else 0) + f.sb.toNat * 2 ^ 56 + f.sa.toNat * 2 ^ 52 + f.sd.toNat * 2 ^ 48 +
    f.len.toNat * 2 ^ 44 + f.pidx.toNat * 2 ^ 39 + f.uidx.toNat * 2 ^ 35 + f.left.toNat)
def Frame.ofWord (w : Word) : Frame :=
  { act := w.getLsbD 63, wrap := w.getLsbD 60, sb := w.extractLsb' 56 4, sa := w.extractLsb' 52 4, sd := w.extractLsb' 48 4,
    len := w.extractLsb' 44 4, pidx := w.extractLsb' 39 5, uidx := w.extractLsb' 35 4, left := w.extractLsb' 0 32 }

/-- VMODEST, ASKEY, TRAPCAUSE (R88, R89). -/
def Ctx.vmodest (c : Ctx) : Word := if c.long then BitVec.ofNat 64 (c.slot.toNat * 4 + 1) else 0#64
def Ctx.askey (c : Ctx) : Word := BitVec.ofNat 64 (c.mkid.toNat * 2 ^ 16 + c.ask.toNat)
def Ctx.trapcause (c : Ctx) : Word := BitVec.ofNat 64 ((if c.inh then 2 ^ 63 else 0) + c.cause.toNat)

/-- Registers of a file as the image holds them. -/
def gWords (c : Ctx) : List Word := 0#64 :: (upto 1 31).map fun r => SMap.get 0#64 c.g r
def fileBytes {n : Nat} (m : SMap (BitVec n)) (lo k : Nat) : List Byte :=
  ((upto lo k).map fun r => natToBytes (n / 8) (SMap.get 0#n m r).toNat).flatten

/-- The words of the image from offset 0x700 on (R100). WAITST's format is implementation-defined: a free value. -/
def imageWords (s : State) (site : Nat) (c : Ctx) (waiting complete : Bool) : List Word :=
  [c.pc.setWidth 64, c.frm.word, c.fpflags.setWidth 64, (if c.chksb then 1#64 else 0#64), c.vmodest, c.tag.setWidth 64, c.src.setWidth 64,
   c.ord.setWidth 64, c.pri.setWidth 64, c.askey, c.trapvec, c.trapcause, c.trappc, c.trapval, c.trapsave, s.freeBits 64 60000,
   BitVec.ofNat 64 ((if c.long then 1 else 0) + (if waiting then 2 else 0) + (if complete then 4 else 0)), BitVec.ofNat 64 (s.tick (dieOf site)), c.act.entry,
   BitVec.ofNat 64 (c.act.kind.num + c.act.count * 16), BitVec.ofNat 64 c.act.sendTick, BitVec.ofNat 64 c.act.arr, BitVec.ofNat 64 c.act.start,
   c.hintDrops.setWidth 64, (match c.rowh with | some r => r.entry | none => 0#64),
   (match c.rowh with | some r => BitVec.ofNat 64 (2 ^ 63 + r.area * 2 ^ 14 + r.shelf) | none => 0#64), c.frmbase, 0#64, 0#64, 0#64, 0#64, 0#64]

namespace State

/-! ## Room in inboxes (R342) -/

/-- An agent that has no context: a service operation, a reduction server's root, the host, a peer package (R190, R366). -/
def homeAgent : Nat := 4096
/-- The stages of a wait for room in an inbox or a queue, of one whose message has been appended, and of a LAUNCH whose reservation has been taken. -/
def sendStage : Nat := 120
def sentStage : Nat := 121
def launchStage : Nat := 126
/-- The sender of a request that has been served goes on; a peer is sent its status. -/
def served (s : State) (w : Waiter) : State :=
  if w.site = homeAgent then (if w.msg.kind = .hop then s else s.tellPeer w.msg 0)
  else if w.token = 0 then s
  else s.modCtxAt w.site fun c =>
    { c with wait := c.wait.map fun x => if x.token = w.token then
        { x with stage := if w.msg.kind = .launch then launchStage else sentStage, kept := w.msg.kind != .launch } else x }
def takeWaiter (s : State) (w : Waiter) : State := s.modPkg fun p => { p with senders := p.senders.erase w }
/-- A message takes its place in its inbox: a LAUNCH for a later tick is held at its die, and its slot is reserved (R351). -/
def deliverAt (s : State) (m : Msg) : State :=
  match m.at' with
  | some t =>
    if s.tick (dieOf m.dst) < t then
      (s.modPkg fun p => { p with rsvd := p.rsvd ++ [(0, coreOf m.dst, inboxOf m)] }).modDie (dieOf m.dst) fun d => { d with timed := d.timed ++ [(t, m)] }
    else s.append m
  | none => s.append m
/-- The append of a waiter is an event of its context, and waits for its core's drains (R224); a reservation is none. -/
def waiterHeld (s : State) (w : Waiter) : Bool := decide (w.token ≠ 0 ∧ w.site ≠ homeAgent ∧ (s.coreAt (coreOf w.site)).unacked ≠ 0) && w.msg.kind != .launch
/-- A slot of an inbox has freed: the oldest waiter's append, or reservation, completes. -/
def serveInbox (s : State) (c i : Nat) : State :=
  match s.waitersFor c i with
  | [] => s
  | w :: _ =>
    if s.slotFree c i = false ∨ s.waiterHeld w = true then s
    else
      let s := (s.takeWaiter w).served w
      if w.msg.kind = .launch ∧ w.token ≠ 0 then s.modPkg fun p => { p with rsvd := p.rsvd ++ [(w.token, c, i)] }
      else s.deliverAt { w.msg with arr := s.tick (dieOf w.msg.dst), sendTick := if w.token = 0 then w.msg.sendTick else s.tick (dieOf w.site) }
/-- The reservations of a LAUNCH are given up: each slot goes to its oldest waiter in the same cycle (R342). -/
def freeSlots (s : State) (tok : Nat) : State :=
  let mine := s.pkg.rsvd.filter fun r => r.1 == tok
  let s := s.modPkg fun p => { p with rsvd := p.rsvd.filter fun r => r.1 != tok }
  mine.foldl (fun (s : State) r => s.serveInbox r.2.1 r.2.2) s
/-- What a wait has asked for in inboxes is taken back: the request of token `tok` from `site`, and its reservations (R341). -/
def takeBack (s : State) (site tok : Nat) : State :=
  if tok = 0 then s else (s.modPkg fun p => { p with senders := p.senders.filter fun w => !(w.site == site && w.token == tok) }).freeSlots tok

/-- The first byte of a site's image: offset 0x36000 + 0x2800 × x of the second home shelf of its core (R100). -/
def imageLoc (site : Nat) : Nat := ploc (clusterOf site) (2 * coreIn site + 1) (0x36000 + 0x2800 * (site % 4))

/-- The long slot and the w registers of a context are given up (R93). -/
def freeSlotAt (s : State) (site : Nat) : State :=
  let c := s.ctxAt site
  if c.long then
    (s.modClu (clusterOf site) fun x => { x with longSlots := SMap.set 0 x.longSlots (4 * (coreIn site / 4) + c.slot.toNat) 0 }).setCtxAt site
      { c with long := false, slot := 0#2, w := [] }
  else s

/-- Whether results are still on their way to the activation that a context runs, or to the one it holds halted (R99). -/
def ofImage (c : Ctx) (token : Nat) : Bool :=
  match c.img with | some i => (match i.wait with | some w => w.token == token | none => false) | none => false
def resultsOut (s : State) (site : Nat) : Bool := s.pkg.results.any fun r => r.1 == site && !ofImage (s.ctxAt site) r.2.token
def imageWaits (s : State) (site : Nat) : Bool := s.pkg.results.any fun r => r.1 == site && ofImage (s.ctxAt site) r.2.token

/-- The stages of MLSE.ACQ and MGANG.FORM while they wait for a lease with a claim that they made, and of a wait of an older claim. -/
def acqStage : Nat := 40
def claimStage : Nat := 41
def formStage : Nat := 42

/-- Halt the context of a site at a unit boundary and write its image (R99, R100): every fixed-latency result is complete, its long slot and
monitor entries are given up, its run on an array ends (R242), a claim of an unfinished MLSE.ACQ
or MGANG.FORM leaves no effect (R243), a queued send of its wait is taken back (R341). -/
def haltAt (s : State) (site : Nat) : State :=
  let c := s.ctxAt site
  let waiting := c.st == .waiting
  let loc := imageLoc site
  let s := s.poke loc (((gWords c).map fun w => natToBytes 8 w.toNat).flatten ++ fileBytes c.v 0 32 ++
    (List.replicate 64 0xFF#8 ++ fileBytes c.k 1 7) ++ ((imageWords s site c waiting false).map fun w => natToBytes 8 w.toNat).flatten)
  let s := if c.long then s.poke (loc + 0x800) (fileBytes c.w 0 16) else s
  let tok := (c.wait.map (·.token)).getD 0
  let s := s.takeBack site tok
  let stage := (c.wait.map (·.stage)).getD 0
  let s := if stage = acqStage ∨ stage = formStage then (s.freeSlotAt site).endClaim site else (s.freeSlotAt site).endRun site
  let c := s.ctxAt site
  let keepWait := c.wait.bind fun w => if w.kept then some { w with parked := none, verdict := 0 }
    else w.deadline.map fun d => { cycle := w.cycle, tick := w.tick, deadline := some d }
  let i : Img := { act := c.act, ord := c.ord, pri := c.pri, wait := keepWait, replies := c.replies, reads := c.reads, delta := c.delta,
                   xerrs := c.xerrs, merrs := c.merrs, half := c.half, units := c.units, aborting := c.aborting, susp := c.susp,
                   trapFrm := c.trapFrm, treep := c.treep, treen := c.treen, skipBp := c.skipBp }
  (s.setCtxAt site { c with st := .saving, img := some i, victim := false, frozen := false, skipBp := false, pend := [], buf := [], mons := [], wait := none, cur := none, replies := [],
                            reads := [], delta := none, xerrs := [], merrs := [], half := false, aborting := false }).renameClaim site site (site + 4096)

/-- A good result that a halted unit awaited for a g register is written into the image's slot of that register, and the unit is complete; any
other one waits beside the image for the unit to issue again (R99; log entry 79). -/
def imageResult (s : State) (site : Nat) (r : Reply) : State :=
  let c := s.ctxAt site
  let loc := imageLoc site
  match c.img.bind (·.wait) with
  | some w =>
    match w.data, r.status with
    | [d], 0 =>
      let s := if d = 0 then s else s.pokeNat (loc + 8 * d) 8 r.value.toNat
      let s := s.pokeNat (loc + 0x700) 8 ((s.load (loc + 0x700) 8 + 4) % 2 ^ 56)
      s.setCtxAt site { c with img := c.img.map fun i => { i with wait := none, units := i.units + 1 } }
    | _, _ => s.setCtxAt site { c with img := c.img.map fun i => { i with replies := i.replies ++ [r] } }
  | none => s
/-- The image becomes complete once no result is outstanding (R99, R100). -/
def finishImage (s : State) (site : Nat) : State :=
  let c := s.ctxAt site
  let loc := imageLoc site + 0x780
  if s.imageWaits site then s
  else
    let st : Word := BitVec.ofNat 64 (s.load loc 8)
    (s.pokeNat loc 8 (putBits st 2 2 1).toNat).setCtxAt site { c with img := c.img.map fun i => { i with complete := true } }
/-- The save is over: the context is DORMANT and holds an image (R81). -/
def imageDone (s : State) (site : Nat) : State := (s.setCtxAt site { s.ctxAt site with st := .dormant }).finishImage site

/-- Registers of a file read back from an image. -/
def fileOf {n : Nat} (s : State) (loc lo k : Nat) : SMap (BitVec n) :=
  ((upto lo k).map fun r => (r, BitVec.ofNat n (s.load (loc + (r - lo) * (n / 8)) (n / 8)))).filter fun e => decide (e.2 ≠ 0#n)

/-- The image of a site read back (R100, R101): every field but WAITST and STATUS is as software left it. -/
def readImage (s : State) (site : Nat) (i : Img) : Ctx :=
  let loc := imageLoc site
  let c := s.ctxAt site
  let w := fun (o : Nat) => (BitVec.ofNat 64 (s.load (loc + o) 8) : Word)
  let cause := w 0x758
  let askey := w 0x748
  let kc := w 0x798
  let rb := w 0x7C8
  let kinds := [Kind.host, .send, .hop, .fork, .task, .xdone, .rowdrain, .wavetask, .amo, .amsg, .launch, .reduce]
  { c with
    g := fileOf s (loc + 8) 1 31, v := fileOf s (loc + 0x100) 0 32, k := fileOf s (loc + 0x540) 1 7
    pc := (w 0x700).setWidth 56, frm := Frame.ofWord (w 0x708), fpflags := (w 0x710).setWidth 5, chksb := (w 0x718).getLsbD 0
    tag := (w 0x728).setWidth 16, src := (w 0x730).setWidth 22, ord := (w 0x738).setWidth 48, pri := (w 0x740).setWidth 2
    ask := askey.setWidth 10, mkid := askey.extractLsb' 16 10
    trapvec := w 0x750 &&& fmask 55 2, inh := cause.getLsbD 63, cause := cause.setWidth 8, trappc := w 0x760 &&& fmask 55 2, trapval := w 0x768
    trapsave := w 0x770
    act := { i.act with entry := w 0x790, kind := kinds.getD (bits kc 3 0) i.act.kind, count := bits kc 8 4, sendTick := (w 0x7A0).toNat,
                        arr := (w 0x7A8).toNat, start := (w 0x7B0).toNat }
    hintDrops := (w 0x7B8).setWidth 32
    rowh := if rb.getLsbD 63 then some { entry := w 0x7C0, shelf := bits rb 4 0, area := bits rb 17 14 } else none
    frmbase := w 0x7D0 &&& fmask 55 2 }

/-- The lowest free long slot of a quad (R93). -/
def freeSlotOf (s : State) (quad : Nat) : Option Nat :=
  (upto 0 4).find? fun i => SMap.get 0 (s.cluAt (quad / 4)).longSlots (4 * (quad % 4) + i) == 0
/-- A context takes long slot `i` of its quad; w0 to w15 are zero (R93). -/
def takeSlot (s : State) (site i : Nat) : State :=
  (s.modClu (clusterOf site) fun x => { x with longSlots := SMap.set 0 x.longSlots (4 * (coreIn site / 4) + i) (site + 1) }).setCtxAt site
    { s.ctxAt site with long := true, slot := BitVec.ofNat 2 i, w := [] }

/-- STATUS bit 0 of a held image. -/
def imageLong (s : State) (site : Nat) : Bool := (BitVec.ofNat 64 (s.load (imageLoc site + 0x780) 8) : Word).getLsbD 0

/-- Restore a complete image into its own context (R101); a long-mode one needs a free slot first, and a halt at a BRK continues after it
(R379). It takes a free slot at once, whoever waits for one by VMODE (log entry 84). A context halted by a stop passes IADDR's test once. -/
def restoreAt (s : State) (site : Nat) : Option State :=
  match (s.ctxAt site).img with
  | none => none
  | some i =>
    let c := s.readImage site i
    let c := if i.brk = some c.pc then { c with pc := c.pc + 4#56 } else c
    let c := { c with st := .ready, img := none, pend := [], buf := [], readyAt := 0, wait := i.wait, replies := i.replies, reads := i.reads,
                      delta := i.delta, xerrs := i.xerrs, merrs := i.merrs, half := i.half, units := i.units, aborting := i.aborting,
                      skipBp := i.skipBp, susp := i.susp, trapFrm := i.trapFrm, treep := i.treep, treen := i.treen }
    if i.complete = false then none
    else if s.imageLong site then
      match s.freeSlotOf (quadOf site) with
      | none => none
      | some k =>
        let w : SMap (BitVec 4096) := fileOf s (imageLoc site + 0x800) 0 16
        let s := ((s.renameClaim site (site + 4096) site).setCtxAt site c).takeSlot site k
        some (s.setCtxAt site { s.ctxAt site with w := w })
    else some ((s.renameClaim site (site + 4096) site).setCtxAt site { c with long := false, slot := 0#2, w := [] })

end State
end Sys2Proof.Machine
end

