-- ==== Sys2Proof/Machine/System.lean ====
section
/-! DEFINITION. System operations: SYS, PUBF, DONE, ACTQ and VMODE (06_core_scalar R120 to R125, 05_core_model R87 to R93, 08_core_fetch
R156 and R157, 07_core_vector R148, 10_memory_hierarchy R172 and R173). -/
namespace Sys2Proof.Machine
open Sys2Proof

/-! ## System registers (R87) -/

/-- The MODE code of a shelf (R172). -/
def ShelfMode.num : ShelfMode → Nat
  | .scratch => 0
  | .cache => 1
  | .fifo => 2

namespace State

def shelfAt (s : State) (h : Nat) : Shelf := SMap.get {} (s.cluAt (h / 32)).shelves (h % 32)
def setShelf (s : State) (h : Nat) (x : Shelf) : State := s.modClu (h / 32) fun c => { c with shelves := SMap.set {} c.shelves (h % 32) x }

/-- PANTRYCFG as read: BUSY and the mode last written (R172, R173). -/
def pantryCfg (s : State) (h : Nat) : Word :=
  match (s.shelfAt h).target with
  | some m => BitVec.ofNat 64 (128 + m.num)
  | none => BitVec.ofNat 64 (s.shelfAt h).mode.num

/-- SRD: the value of system register `n` (R87 to R89, R172, R335, R373). -/
def sysreg (s : State) (n : Nat) : Word :=
  let c := s.ctx
  match n with
  | 0x000 => BitVec.ofNat 64 (s.pkg.num * 4096 + s.site)
  | 0x001 => c.tag.setWidth 64
  | 0x002 => c.src.setWidth 64
  | 0x003 => c.ord.setWidth 64
  | 0x004 => BitVec.ofNat 64 (s.gvtOf c.ask.toNat)
  | 0x005 => BitVec.ofNat 64 (s.tick s.die)
  | 0x006 => BitVec.ofNat 64 s.cycle
  | 0x010 => c.trapvec
  | 0x011 => c.trapcause
  | 0x012 => c.trappc
  | 0x013 => c.trapval
  | 0x014 => c.trapsave
  | 0x015 => c.fpflags.setWidth 64
  | 0x020 => if c.chksb then 1#64 else 0#64
  | 0x021 => c.vmodest
  | 0x022 => s.core.depth.setWidth 64
  | 0x023 => c.frm.word
  | 0x024 => if s.core.service then 1#64 else 0#64
  | 0x025 => BitVec.ofNat 64 (s.core.npbase.toNat * 65536 + s.core.nplen.toNat)
  | 0x026 => c.frmbase
  | 0x050 => c.treep
  | 0x051 => c.treen.setWidth 64
  | 0x060 => c.askey
  | 0x061 => c.pri.setWidth 64
  | 0x070 => s.core.tracectl
  | _ => s.pantryCfg (32 * clusterOf s.site + (n - 0x030) % 32)

/-- A write of MODE (R172, R173): it waits while a switch is in progress, and starts one when it changes the mode. -/
def setMode (s : State) (h : Nat) (v : Nat) : Res :=
  let x := s.shelfAt h
  if x.target.isSome then s.hold
  else match (match v % 4 with | 0 => some ShelfMode.scratch | 1 => some .cache | 2 => some .fifo | _ => none) with
  | none => .ok s
  | some m => .ok (if m = x.mode then s else s.setShelf h { x with target := some m })

/-- SWR: what a write of `v` to system register `n` does (R4, R121). RO registers and fields ignore it. -/
def setSysreg (s : State) (n : Nat) (v : Word) : Res :=
  let c := s.ctx
  let core := fun (f : Core → Core) => Res.ok (s.modCore (coreOf s.site) f)
  match n with
  | 0x010 => .ok (s.setCtx { c with trapvec := v &&& fmask 55 2 })
  | 0x011 => .ok (s.setCtx { c with inh := v.getLsbD 63, cause := v.setWidth 8 })
  | 0x012 => .ok (s.setCtx { c with trappc := v &&& fmask 55 2 })
  | 0x013 => .ok (s.setCtx { c with trapval := v })
  | 0x014 => .ok (s.setCtx { c with trapsave := v })
  | 0x015 => .ok (s.setCtx { c with fpflags := v.setWidth 5 })
  | 0x020 => .ok (s.setCtx { c with chksb := v.getLsbD 0 })
  | 0x022 => core fun x => { x with depth := v.setWidth 2 }
  | 0x023 => .ok (s.setCtx { c with frm := Frame.ofWord v, buf := [] })
  | 0x024 => core fun x => { x with service := v.getLsbD 0 }
  | 0x025 => core fun x => { x with npbase := v.extractLsb' 16 40, nplen := v.setWidth 8 }
  | 0x026 => .ok (s.setCtx { c with frmbase := v &&& fmask 55 2, buf := [] })
  | 0x050 => .ok (s.setCtx { c with treep := v &&& (fmask 63 63 ||| fmask 55 0) })
  | 0x051 => .ok (s.setCtx { c with treen := v.setWidth 10 })
  | 0x060 => .ok (s.setCtx { c with ask := v.setWidth 10, mkid := v.extractLsb' 16 10 })
  | 0x070 => core fun x => { x with tracectl := v &&& (fmask 31 29 ||| fmask 23 4 ||| fmask 0 0) }
  | _ => if 0x030 ≤ n ∧ n < 0x050 then s.setMode (32 * clusterOf s.site + (n - 0x030)) v.toNat else .ok s

end State

/-- A register marked P (R87): its writes are privileged. -/
def sysregPriv (n : Nat) : Bool :=
  n == 0x022 || n == 0x024 || n == 0x025 || (decide (0x030 ≤ n) && decide (n < 0x052)) || n == 0x060 || n == 0x070

/-! ## SYS (R120 to R123) -/

/-- NOP. -/
def execNop (stl : BitVec 3) (s : State) : Host.Outcome State Fault Refusal := s.unit 1 stl [] fun s => .ok s
/-- SRD (R121): latency 2; that of FPFLAGS reads every earlier unit's events, and is ready when they all are (R63, R91). -/
def execSrd (stl : BitVec 3) (d : BitVec 5) (n : BitVec 10) (s : State) : Host.Outcome State Fault Refusal :=
  s.unit 1 stl [] fun s =>
    if n = 0x015#10 then .ok (s.putTracked d (s.sysreg n.toNat) s.allReady) else .ok (s.putG d (s.sysreg n.toNat) 2)
/-- SWR (R121). -/
def execSwr (stl : BitVec 3) (d : BitVec 5) (n : BitVec 10) (s : State) : Host.Outcome State Fault Refusal :=
  if sysregPriv n.toNat then s.unitP 1 stl [(.g, d.toNat)] fun s => s.setSysreg n.toNat (s.rg 0 d)
  else s.unit 1 stl [(.g, d.toNat)] fun s => s.setSysreg n.toNat (s.rg 0 d)
/-- TRAP (R122). -/
def execTrap (stl : BitVec 3) (c : BitVec 10) (s : State) : Host.Outcome State Fault Refusal :=
  s.unit 1 stl [] fun _ => .trap 0x10#8 (c.setWidth 64)
/-- BRK (R122, R377, R379): an armed breakpoint that matches halts the activation at the BRK and stops its domain; otherwise the trap. -/
def execBrk (stl : BitVec 3) (c : BitVec 10) (s : State) : Host.Outcome State Fault Refusal :=
  s.unit 1 stl [] fun s =>
    match (if State.isService s.ctx then none else s.bpTest s.site s.ctx.tag.toNat [(5, c.toNat)] 1) with
    | some t =>
      if s.ctx.img.isSome then .ended (t.setCtx { t.ctx with inPlace := true, pc := s.after 1 })
      else .ended ((t.haltAt t.site).modCtxAt t.site fun x =>
        { x with img := x.img.map fun i => { i with stopHeld := true, skipBp := true, brk := some s.ctx.pc } })
    | none => .trap 0x11#8 (c.setWidth 64)
/-- ERET (R122). -/
def execEret (stl : BitVec 3) (s : State) : Host.Outcome State Fault Refusal :=
  s.unit 1 stl [] fun s => .jump s.returnFromTrap (s.ctx.trappc.setWidth 56)
/-- YIELD (R123): the context's run of issue ends. -/
def execYield (stl : BitVec 3) (s : State) : Host.Outcome State Fault Refusal :=
  s.unit 1 stl [] fun s => .ok (s.modCore (coreOf s.site) fun x => { x with run := 64 })

namespace State
/-- GETID's identifiers (R123). -/
def ident (s : State) (x : Nat) : Nat :=
  match x with
  | 0 => s.site
  | 1 => dieOf s.site
  | 2 => clusterIn s.site
  | 3 => coreIn s.site
  | 4 => s.site % 4
  | 5 => coreIn s.site / 4
  | 6 => s.pkg.num
  | 7 => s.coreEn (clusterOf s.site)
  | 8 => s.cluEn s.die
  | _ => 15
end State
/-- GETID (R123): the scoreboard tracks the result. -/
def execGetid (stl : BitVec 3) (d x : BitVec 5) (s : State) : Host.Outcome State Fault Refusal :=
  s.unit 1 stl [] fun s => .ok (s.putG d (BitVec.ofNat 64 (s.ident x.toNat)))

/-! ## PUBF (R156, R157) -/

/-- The pieces of `l` bytes at `a`, split at the crates, from offset `o` on; `n` bounds them. -/
def crateParts (a o l : Nat) : Nat → List (Nat × Nat)
  | 0 => []
  | n + 1 =>
    let k := min (l - o) (65536 - (a + o) % 65536)
    if l ≤ o then [] else (o, k) :: crateParts a (o + k) l n

namespace State

/-- Close every written line that some run touches (R153). -/
def closeRuns (s : State) (c : Closure) (runs : List (Nat × Nat)) : State :=
  let touched := fun (l : Nat) => runs.any fun r => decide (lineOf r.1 ≤ l) && decide (l ≤ lineOf (r.1 + r.2 - 1))
  s.modPkg fun p => { p with code := p.code.map fun e => if touched e.1 then (e.1, e.2.map (c :: ·)) else e }

/-- PUBF's effect on `l` bytes at `a`. -/
def publish (s : State) (a : Word) (l scope : Nat) : Res :=
  if l = 0 then (if s.drainsOut then s.hold else .ok s)
  else if a.toNat / 2 ^ 56 ≠ 0 then .trap 0x08#8 a
  else if window a.toNat ≠ window (a.toNat + l - 1) then .trap 0x07#8 a
  else if window a.toNat ≠ 0 then .trap 0x09#8 a
  else match s.reach .code 0 a 1 l (crateParts a.toNat 0 l (l / 65536 + 2)) with
    | .stop r => r
    | .go s runs => if s.drainsOut then s.hold else .ok (s.closeRuns { scope := scope, site := s.site, gang := s.gangOf } runs)

end State

/-- PUBF: one synchronising event; the closures are recorded with it, so that its wait ends at once. -/
def execPubf (stl : BitVec 3) (a b : BitVec 5) (c : BitVec 3) (s : State) : Host.Outcome State Fault Refusal :=
  s.unit 1 stl [(.g, a.toNat), (.g, b.toNat)] fun s => s.publish (s.rg 0 a) (low32 (s.rg 1 b)).toNat c.toNat

/-! ## DONE (R124) and ACTQ (R125) -/

namespace State
/-- What a DONE waits for: the results on their way, the core's drains (R224), and a held line of its threshold. -/
def endHeld (s : State) : Bool := s.resultsOut s.site || s.drainsOut || s.thetaHeld
/-- The end by DONE; its own unit counts (R83). -/
def finishDone (s : State) : Res :=
  if s.endHeld then s.holdEnd
  else .ended ((s.setCtx { s.ctx with units := s.ctx.units + 1 }).endActivation .done)
/-- The decrement of DONE.DEC sets out to the owner (R203). -/
def sendDecrement (s : State) (loc : Nat) : State :=
  s.post { s.mkMsg .amo (4 * s.owner loc + 3) s.ctx.pri.toNat 0#64 [] with
    req := some { asker := s.site, token := 0, key := loc, op := 0, operand := BitVec.allOnes 64 } }
end State

/-- DONE. -/
def execDone (stl : BitVec 3) (s : State) : Host.Outcome State Fault Refusal := s.unit 1 stl [] fun s => s.finishDone
/-- DONE.DEC: the counter's address is checked before the end; the decrement is not awaited. A speculative task waits for its turn (R330). -/
def execDoneDec (stl : BitVec 3) (a : BitVec 5) (s : State) : Host.Outcome State Fault Refusal :=
  s.unit 1 stl [(.g, a.toNat)] fun s =>
    match s.reach .write 0 (s.rg 0 a) 8 8 (onePiece 8) with
    | .stop r => r
    | .go t runs =>
      let loc := (runs.getD 0 (0, 0)).1
      if t.inFifo loc then .trap 0x09#8 (s.rg 0 a)
      else if t.speculative then t.hold
      else if t.endHeld then t.holdEnd
      else (t.sendDecrement loc).finishDone

namespace State
/-- A result of ACTQ, tracked by the scoreboard. -/
def actq (s : State) (stl : BitVec 3) (d : BitVec 5) (f : State → Word) : Host.Outcome State Fault Refusal :=
  s.unit 1 stl [] fun s => .ok (s.putG d (f s))
end State
/-- ACTQ.ENTRY. -/
def execActqEntry (stl : BitVec 3) (d : BitVec 5) (s : State) : Host.Outcome State Fault Refusal := s.actq stl d fun s => s.ctx.act.entry
/-- ACTQ.KIND. -/
def execActqKind (stl : BitVec 3) (d : BitVec 5) (s : State) : Host.Outcome State Fault Refusal :=
  s.actq stl d fun s => BitVec.ofNat 64 (s.ctx.act.kind.num + s.ctx.act.count * 16)
/-- ACTQ.SENDT. -/
def execActqSendt (stl : BitVec 3) (d : BitVec 5) (s : State) : Host.Outcome State Fault Refusal :=
  s.actq stl d fun s => BitVec.ofNat 64 s.ctx.act.sendTick
/-- ACTQ.ARRT. -/
def execActqArrt (stl : BitVec 3) (d : BitVec 5) (s : State) : Host.Outcome State Fault Refusal :=
  s.actq stl d fun s => BitVec.ofNat 64 s.ctx.act.arr
/-- ACTQ.STARTT. -/
def execActqStartt (stl : BitVec 3) (d : BitVec 5) (s : State) : Host.Outcome State Fault Refusal :=
  s.actq stl d fun s => BitVec.ofNat 64 s.ctx.act.start
/-- ACTQ.PEND. -/
def execActqPend (stl : BitVec 3) (d a : BitVec 5) (s : State) : Host.Outcome State Fault Refusal :=
  s.unit 1 stl [(.g, a.toNat)] fun s =>
    .ok (s.putG d (BitVec.ofNat 64 (SMap.get [] s.core.inbox (4 * (s.site % 4) + bits (s.rg 0 a) 1 0)).length))
/-- ACTQ.DEQ. -/
def execActqDeq (stl : BitVec 3) (d : BitVec 5) (s : State) : Host.Outcome State Fault Refusal :=
  s.actq stl d fun s => BitVec.ofNat 64 s.core.deque.length

/-! ## VMODE (R93, R148) -/

namespace State

/-- The stage of a wait for a long slot. -/
def slotStage : Nat := 100
/-- The contexts of a quad that wait for a long slot, each with its VMODE's issue cycle. -/
def slotWaiters (s : State) (quad : Nat) : List (Nat × Nat) :=
  (upto (16 * quad) 16).filterMap fun x =>
    match (s.ctxAt x).wait with
    | some w => if w.stage = slotStage ∧ (s.ctxAt x).st = .waiting ∧ (s.ctxAt x).long = false then some (w.cycle, x) else none
    | none => none
/-- Waiter (cycle, site) comes before another. -/
def slotBefore (a b : Nat × Nat) : Bool := decide (a.1 < b.1) || (a.1 == b.1 && decide (a.2 < b.2))

/-- VMODE is serialising (R91): it issues once every earlier result of the context is complete. -/
def serial (s : State) (f : State → Res) : Res := if s.cycle < s.allReady then .stall s s.allReady else f s.complete

end State

/-- VMODE.SHORT: the slot is released and w discarded. -/
def execVmodeShort (stl : BitVec 3) (s : State) : Host.Outcome State Fault Refusal := s.unit 1 stl [] fun s => s.serial fun s => .ok s.freeSlot
/-- VMODE.LONG: the lowest free slot, once no earlier context waits for one. -/
def execVmodeLong (stl : BitVec 3) (s : State) : Host.Outcome State Fault Refusal :=
  s.unit 1 stl [] fun s => s.serial fun s =>
    if s.ctx.long then .ok s
    else if (s.slotWaiters (quadOf s.site)).any fun w => State.slotBefore w (s.waitNow.cycle, s.site) && w.2 != s.site then
      .wait (s.setWait { s.waitNow with stage := State.slotStage })
    else match s.freeSlotOf (quadOf s.site) with
      | some i => .ok (s.takeSlot s.site i)
      | none => .wait (s.setWait { s.waitNow with stage := State.slotStage })

end Sys2Proof.Machine
end

