-- ==== Sys2Proof/Machine/Tree.lean ====
section
/-! DEFINITION. The radix tree of a die's contexts as edits change it: splits, copies, chains of new nodes, freed nodes (17_context_engine,
R282 to R284, R291, R292), and which entries wait to be dispatched (R293). -/
namespace Sys2Proof.Machine
open Sys2Proof

/-- The first number from `i` up, modulo `n`, that is not in use. -/
def unused (used : List Nat) (n : Nat) : Nat → Nat → Nat
  | 0, i => i % n
  | k + 1, i => if used.contains (i % n) then unused used n k (i + 1) else i % n

/-- The state that a copied entry starts in (R291). -/
def MapEnt.copied (e : MapEnt) : MapEnt :=
  if e.st = .inflight then
    { st := .dirty, need0 := e.need0 || (e.again && e.again0), old := if e.again then min e.old e.aold else e.old,
      new := if e.again then max e.new e.anew else e.new }
  else { e with phase := 0, doomed := false }

/-- An entry holds a wave: one from the oldest to the newest that it, or the mark held for it, names (log entry 104). -/
def MapEnt.spans (e : MapEnt) (w : Nat) : Bool :=
  ((e.st == .dirty || e.st == .inflight) && decide (e.old ≤ w) && decide (w ≤ e.new)) || (e.again && decide (e.aold ≤ w) && decide (w ≤ e.anew))

/-- Lengths of the nodes of a chain that holds `t` tokens (R292, R309). -/
def chainLens : Nat → Nat → List Nat
  | 0, _ => []
  | n + 1, t => if t = 0 then [] else min t 4096 :: chainLens n (t - min t 4096)

namespace State

/-! ## Names -/

/-- The messages of ordered tasks that are queued, running, halted or not yet committed. -/
def taskMsgs (s : State) : List Msg :=
  (s.allSites.flatMap fun x =>
    let c := s.ctxAt x
    (if c.st = .dormant then [] else c.act.msg.toList) ++ (c.img.bind (·.act.msg)).toList) ++ ((SMap.vals s.cores).map fun (c : Core) => c.ordq.map (·.msg)).flatten

/-- Block identifiers that a die's nodes or wave tasks name. -/
def usedBids (s : State) (d : Nat) : List Nat :=
  ((SMap.vals (s.dieAt d).nodes).map fun n => ((n.map (·.blocks)).getD []).map (·.bid)).flatten ++
    (s.taskMsgs.filter fun m => m.kind == .wavetask).map fun m => m.wBid

/-- The free values used so far are spent. -/
def spent (s : State) : State := { s with free := s.free + 65536 }
/-- A node index and a block identifier that the engine takes: any that is not in use (log entry 7). -/
def newNode (s : State) (d : Nat) : Nat × State :=
  let used := SMap.keys (s.dieAt d).nodes
  (unused used (2 ^ 32 - 1) (used.length + 1) (s.choose 0 (2 ^ 32 - 1)), s.spent)
def newBid (s : State) (used : List Nat) : Nat × State :=
  (unused used (2 ^ 32) (used.length + 1) (s.choose 0 (2 ^ 32)), s.spent)
/-- `k` block identifiers. -/
def newBids (s : State) (d : Nat) : Nat → List Nat × State
  | 0 => ([], s)
  | k + 1 =>
    let (bs, t) := newBids s d k
    let (b, t) := t.newBid (bs ++ t.usedBids d)
    (bs ++ [b], t)

/-! ## Copies of blocks -/

/-- A new block's entries and directory, copied from another's; superseded and pending versions stay behind (R291). -/
def copyEnts (s : State) (d src dst : Nat) : List Nat → State
  | [] => s
  | l :: ls =>
    let s := s.setEnt d dst l (s.ent d src l).copied
    let s := s.setDir d dst l 0 { s.dirOf d src l 0 with gone := none }
    copyEnts (s.setDir d dst l 1 { s.dirOf d src l 1 with gone := none }) d src dst ls
/-- Copy blocks to new identifiers, in order. -/
def copyBlks (s : State) (d layers : Nat) : List Blk → List Nat → List Blk × State
  | b :: bs, i :: is =>
    let (cs, t) := copyBlks (s.copyEnts d b.bid i (upto 0 layers)) d layers bs is
    ({ b with bid := i } :: cs, t)
  | _, _ => ([], s)

/-! ## Links (R282, R283) -/

def modNode (s : State) (d i : Nat) (f : Node → Node) : State := s.setNode d i (some (f (s.node d i)))
/-- Take a child out of a chain of siblings that starts at `i`. -/
def unlinkSib (s : State) (d child : Nat) (next : Option Nat) : Nat → Option Nat → State
  | 0, _ => s
  | _, none => s
  | n + 1, some i =>
    if (s.node d i).sibling = some child then s.modNode d i fun x => { x with sibling := next }
    else unlinkSib s d child next n (s.node d i).sibling
/-- Take a node out of its parent's children. -/
def detach (s : State) (d i : Nat) : State :=
  let n := s.node d i
  let s := match n.parent with
    | none => s
    | some p =>
      if (s.node d p).child = some i then s.modNode d p fun x => { x with child := n.sibling }
      else s.unlinkSib d i n.sibling ((s.dieAt d).nodes.length) (s.node d p).child
  s.modNode d i fun x => { x with parent := none, sibling := none }
/-- Give a node a parent. -/
def attach (s : State) (d i : Nat) : Option Nat → State
  | none => s
  | some p =>
    let c := (s.node d p).child
    (s.modNode d i fun x => { x with parent := some p, sibling := c }).modNode d p fun x => { x with child := some i }
/-- String a context's own nodes after `prev`, from position `start` on. -/
def stringNodes (s : State) (d : Nat) (prev : Option Nat) (start : Nat) : List Nat → State
  | [] => s
  | i :: is =>
    let s := s.attach d i prev
    let s := s.modNode d i fun x => { x with start := start, child := none }
    stringNodes s d (some i) (start + (s.node d i).runlen) is

/-! ## Splits, copies and new nodes (R291, R292) -/

/-- Children of a node get another parent. -/
def reparent (s : State) (d q : Nat) : Nat → Option Nat → State
  | 0, _ => s
  | _, none => s
  | n + 1, some i => reparent (s.modNode d i fun x => { x with parent := some q }) d q n (s.node d i).sibling

/-- Split node `i` at offset `o`, in place, for all who share it. -/
def splitNode (s : State) (d bsz layers m i o : Nat) : State :=
  let x := s.node d i
  let (j, row) := x.locate bsz o
  let cut := o - x.blockOff bsz j
  let (q, s) := s.newNode d
  let (head, tail, first, s) :=
    if cut = 0 then (x.blocks.take j, x.blocks.drop j, x.blockLen bsz j, s)
    else
      let b := x.blocks.getD j { bid := 0, rowoff := 0 }
      let (nb, s) := s.newBid (s.usedBids d)
      let s := s.copyEnts d b.bid nb (upto 0 layers)
      (x.blocks.take (j + 1), { bid := nb, rowoff := row } :: x.blocks.drop (j + 1), x.blockLen bsz j - cut, s)
  let s := s.setNode d q (some
    { parent := some i, child := x.child, sibling := none, share := x.share, start := x.start + o, first := first, runlen := x.runlen - o,
      tokens := x.tokens + 4 * o, blocks := tail, wstamp := m })
  let s := s.reparent d q ((s.dieAt d).nodes.length) x.child
  let s := s.setNode d i (some { x with child := some q, runlen := o, first := min x.first o, blocks := head, wstamp := m })
  s.modDie d fun y => { y with recs := y.recs.map fun (e : Nat × Option Rec) =>
    (e.1, e.2.map fun (r : Rec) => if r.leaf = some i then { r with leaf := some q } else r) }

/-- Split the node of a context's path that holds position `x` strictly inside. -/
def splitAt (s : State) (d m : Nat) (r : Rec) (x : Nat) : State :=
  match (s.path d r).find? fun i => decide ((s.node d i).start < x) && decide (x < (s.node d i).start + (s.node d i).runlen) with
  | none => s
  | some i => s.splitNode d (bszOf r.bsz) r.layers m i (x - (s.node d i).start)

/-- The nodes of a path from some position on, each made the context's own: a shared one is copied, and its SHARE lowered by 1. Whether step 6 gives
WSTAMP m to that original too, R291 does not say: it keeps its own (DESIGN CHOICE, log entry 99). -/
def ownNodes (s : State) (d layers m : Nat) : List Nat → List Nat × State
  | [] => ([], s)
  | i :: is =>
    let x := s.node d i
    if 1 < x.share then
      let (k, s) := s.newNode d
      let (bids, s) := s.newBids d x.blocks.length
      let (bs, s) := s.copyBlks d layers x.blocks bids
      let s := s.setNode d i (some { x with share := x.share - 1 })
      let s := s.setNode d k (some { x with parent := none, child := none, sibling := none, share := 1, blocks := bs, wstamp := m })
      let (ks, s) := ownNodes s d layers m is
      (k :: ks, s)
    else
      let (ks, s) := ownNodes (s.detach d i) d layers m is
      (i :: ks, s)

/-- Blocks start with entries CLEAN, OLD = NEW = 0, and no version (R291, R309). -/
def blank (s : State) (d : Nat) (bids : List Nat) : State :=
  s.modDie d fun x => { x with
    dirs := SMap.keep (fun k _ => !bids.contains (k / 512)) x.dirs
    vmap := SMap.keep (fun k _ => !bids.contains (k / 256)) x.vmap }
/-- New nodes for inserted or appended tokens, by their lengths; the tokens lie at `tok`. -/
def newNodes (s : State) (d bsz m tok : Nat) : List Nat → List Nat × State
  | [] => ([], s)
  | n :: ns =>
    let x : Node := { parent := none, child := none, sibling := none, share := 1, start := 0, first := min bsz n, runlen := n, tokens := tok,
                      blocks := [], wstamp := m }
    let (i, s) := s.newNode d
    let (bids, s) := s.newBids d (x.nb bsz)
    let s := (s.blank d bids).setNode d i (some { x with blocks := bids.map fun b => { bid := b, rowoff := 0 } })
    let (is, s) := newNodes s d bsz m (tok + 4 * n) ns
    (i :: is, s)

/-- Free a node that no context's path holds: its entries, its directories, and its pending versions (R289, R292, R307). -/
def freeNode (s : State) (d i : Nat) : State :=
  let bids := (s.node d i).blocks.map (·.bid)
  let s := s.discardAll d fun v => bids.contains v.slot.bid
  (s.blank d bids).modDie d fun x => { x with attic := x.attic.filter fun v => !bids.contains v.slot.bid, nodes := SMap.set none x.nodes i none }
def freeNodes (s : State) (d : Nat) : List Nat → State
  | [] => s
  | i :: is => freeNodes (s.freeNode d i) d is

/-- Delete `del` tokens at `p` of a context and insert `t` tokens that lie at `tok`, as wave `m`; the change of R291's steps 2 to 4 and 6. -/
def rework (s : State) (h m p del t tok : Nat) (r : Rec) : State :=
  let d := h / 16384
  let s := s.splitAt d m r p
  let s := if del = 0 then s else s.splitAt d m ((s.crec h).getD r) (p + del)
  let r := (s.crec h).getD r
  let ns := s.path d r
  let pre := ns.filter fun i => decide ((s.node d i).start < p)
  let (own, s) := s.ownNodes d r.layers m (ns.filter fun i => decide (p ≤ (s.node d i).start))
  let dead := own.filter fun i => decide ((s.node d i).start < p + del)
  let rest := own.filter fun i => decide (p + del ≤ (s.node d i).start)
  let (new, s) := s.newNodes d (bszOf r.bsz) m tok (chainLens 4100 t)
  let s := s.stringNodes d pre.getLast? p (new ++ rest)
  let s := s.setRec h (some { r with length := r.length + t - del, root := (pre ++ new ++ rest).head?, leaf := (pre ++ new ++ rest).getLast? })
  s.freeNodes d dead

/-- How many nodes the change takes from the pool before any is freed: one for each cut, one for each shared node from `p` on, of which a cut at the
deletion's end makes two, and those of the inserted tokens. -/
def nodesNeeded (s : State) (h p del t : Nat) (r : Rec) : Nat :=
  let d := h / 16384
  let cut := fun (x : Nat) (i : Nat) => decide ((s.node d i).start < x) && decide (x < (s.node d i).start + (s.node d i).runlen)
  let ns := s.path d r
  let shared := ns.filter fun i => decide (p < (s.node d i).start + (s.node d i).runlen) && decide (1 < (s.node d i).share)
  let cuts := (if ns.any (cut p) then 1 else 0) + (if del ≠ 0 ∧ ns.any (cut (p + del)) = true then 1 else 0)
  cuts + shared.length + (if del ≠ 0 ∧ shared.any (cut (p + del)) = true then 1 else 0) + (chainLens 4100 t).length
def poolRoom (s : State) (d k : Nat) : Bool := decide ((s.dieAt d).nodes.length + k ≤ 2 ^ 32 - 1)

/-! ## DIRTY entries (R293) -/

/-- An entry that waits for its dispatch: its domain, ordinal and position; its context, layer and block. -/
structure Ready where
  dom : Nat
  ord : Nat
  handle : Nat
  layer : Nat
  blk : BlockAt
  deriving DecidableEq, Repr

/-- The kernel instances of the waves of a domain that an entry holds (R384). -/
def entInsts (s : State) (dom : Nat) (e : MapEnt) : List Nat :=
  (s.pkg.waveInst.filterMap fun x => if x.1 / 2 ^ 24 = dom ∧ e.spans (x.1 % 2 ^ 24) = true then x.2 else none).eraseDups
/-- The ordinal of an entry's next task (R293). -/
def entOrd (s : State) (dom l : Nat) (e : MapEnt) : Nat :=
  waveOrd e.old l (if e.need0 then 0 else 1) (SMap.get 0 s.pkg.users (2 ^ 24 * dom + e.old))
/-- The DIRTY entries of a context, in the order of its blocks. -/
def readyOf (s : State) (h : Nat) : List Ready :=
  match s.crec h with
  | none => []
  | some r =>
    ((s.blocksOf h).map fun b => (upto 0 r.layers).filterMap fun l =>
      let e := s.ent (h / 16384) b.bid l
      if e.st = .dirty then some { dom := r.key, ord := s.entOrd r.key l e, handle := h, layer := l, blk := b } else none).flatten
/-- The handles of a die that are live. -/
def handles (s : State) (d : Nat) : List Nat := (SMap.keys (s.dieAt d).recs).map fun i => 16384 * d + i
/-- The first of the lowest ordinal (ties go to the lowest position). -/
def lowest : List Ready → Option Ready
  | [] => none
  | e :: es =>
    match lowest es with
    | none => some e
    | some f => if f.ord < e.ord ∨ (f.ord = e.ord ∧ f.blk.pos < e.blk.pos) then some f else some e

/-! ## The lower bound (R328) -/

/-- An activation is an ordered task (R328). -/
def Act.ordered (a : Act) : Bool := a.kind == .task || a.kind == .wavetask
/-- The ordinals of the ordered tasks that a context runs or holds halted, of a domain that passes a test. -/
def tasksIn (c : Ctx) (p : Nat → Bool) : List Nat :=
  (if c.st != .dormant && Act.ordered c.act && p c.act.key then [c.ord.toNat] else []) ++
    (match c.img with | some i => if Act.ordered i.act && p i.act.key then [i.ord.toNat] else [] | none => [])
/-- The ordinal of a TASK that a context's speculative task holds, in a domain that passes a test. -/
def heldIn (c : Ctx) (p : Nat → Bool) : List Nat := ((c.wait.bind (·.holds)).toList.filter fun h => p h.1).map (·.2)
/-- Ordinals of a domain that hold its bound: tasks queued or running, DIRTY entries, TASKs that speculative tasks hold, and sends that wait for room. -/
def bounding (s : State) (dom : Nat) : List Nat :=
  (s.allSites.flatMap fun x => tasksIn (s.ctxAt x) (· == dom) ++ heldIn (s.ctxAt x) (· == dom)) ++
  ((SMap.vals s.cores).map fun (c : Core) => (c.ordq.filter fun t => !t.done && t.msg.key == dom).map (·.msg.ord)).flatten ++
  (((upto 0 4).map fun d => ((s.handles d).map s.readyOf).flatten).flatten.filter fun e => e.dom == dom).map (·.ord) ++
  (s.pkg.senders.filter fun w => (w.msg.kind == .task || w.msg.kind == .wavetask) && w.msg.key == dom).map (·.msg.ord)
def minList : List Nat → Option Nat
  | [] => none
  | x :: xs => match minList xs with | none => some x | some y => some (min x y)
/-- L of a domain. -/
def lower (s : State) (dom : Nat) : Nat :=
  (minList (s.bounding dom)).getD (match SMap.get 0 s.pkg.largest dom with | 0 => 1 | n => n + 1)
/-- The smallest uncommitted ordinal of a domain (R82, R287): a task that has completed counts until the bound has passed it. -/
def leastTask (s : State) (dom : Nat) : Option Nat :=
  minList ((s.allSites.flatMap fun x => tasksIn (s.ctxAt x) (· == dom)) ++
    ((SMap.vals s.cores).map fun (c : Core) => (c.ordq.filter fun t => t.msg.key == dom).map (·.msg.ord)).flatten ++
    (s.pkg.senders.filter fun w => w.msg.kind == .task && w.msg.key == dom).map (·.msg.ord))

end State
end Sys2Proof.Machine
end

