-- ==== Sys2Proof/Machine/Versions.lean ====
section
/-! DEFINITION. Versions: what a read finds, commits and their storage, what is freed, settling, and the change that DELTA measures
(17_context_engine, R286, R287, R294 to R298; 18_context_instructions, R309, R313, R315). -/
namespace Sys2Proof.Machine
open Sys2Proof

/-- Bytes per token of part q, and of a version of it (R284). -/
def Rec.rowBytes (r : Rec) (q : Nat) : Nat := if q = 0 then r.row0 else r.row1
def Rec.verSize (r : Rec) (q : Nat) : Nat := (bszOf r.bsz * r.rowBytes q + 127) / 128 * 128
/-- The element format of slot contents (R281). -/
def Rec.fmt (r : Rec) : Fmt := match r.pfmt with | 0 => .f32 | 1 => .bf16 | 2 => .f16 | _ => .e4m3

/-- An entry holds a wave up to `w` back (R296). -/
def MapEnt.busy (e : MapEnt) (w : Nat) : Bool :=
  ((e.st == .dirty || e.st == .inflight) && decide (e.old ≤ w)) || (e.again && decide (e.aold ≤ w))

/-- What a read of a slot finds (R297): no version, one that has been freed, or its ordinal and bytes. -/
inductive Seen where
  | absent
  | freed
  | version (ord : Nat) (data : List Byte)
  deriving DecidableEq, Repr

namespace State

/-! ## Settling (R296) -/

/-- The next wave number of a domain (R290). -/
def nextWave (s : State) (dom : Nat) : Nat := SMap.get 1 s.pkg.waves dom
/-- No slot of a block at layers 0 to `hi` holds anything of a wave up to `w`. -/
def blockClear (s : State) (d bid hi w : Nat) : Bool :=
  ((upto 0 (hi + 1)).all fun l => !(s.ent d bid l).busy w) &&
    !((s.dieAt d).attic.any fun v => v.by'.isNone && v.slot.bid == bid && decide (v.slot.layer ≤ hi) && decide (waveOf v.ord ≤ w))
/-- `w` as the engine takes it: at most the last wave allocated. -/
def capWave (s : State) (dom w : Nat) : Nat := min w (s.nextWave dom - 1)
/-- Every slot of a context at layers up to `hi` is settled for `w`. -/
def settledTo (s : State) (h hi w : Nat) : Bool := (s.blocksOf h).all fun b => s.blockClear (h / 16384) b.bid hi w
/-- The slot at layer `l` of a block is settled for `w`: its cone is. -/
def settledAt (s : State) (h bid l w : Nat) : Bool :=
  let bs := s.blocksOf h
  ((bs.takeWhile fun b => b.bid != bid) ++ ((bs.dropWhile fun b => b.bid != bid).take 1)).all fun b => s.blockClear (h / 16384) b.bid l w
/-- The whole context is settled for every wave. -/
def settledAll (s : State) (h : Nat) (r : Rec) : Bool := s.settledTo h (r.layers - 1) (s.nextWave r.key - 1)

/-! ## Reads -/

/-- The newest committed version of a slot whose ordinal passes a test (R297). -/
def committed (s : State) (σ : Slot) (p : Nat → Bool) : Seen :=
  let e := s.dirOf σ.die σ.bid σ.layer σ.part
  if e.store ≠ 0 ∧ p e.vord = true then .version e.vord (Memory.readN s.mem e.store e.size)
  else match ((s.dieAt σ.die).attic.filter fun v => v.slot == σ && v.by'.isSome && p v.ord).getLast? with
    | some v => .version v.ord v.data
    | none => match e.gone with
      | some o => if p o then .freed else .absent
      | none => .absent
/-- The newest of some pending versions. -/
def newest : List Ver → Option Ver
  | [] => none
  | v :: vs => match newest vs with | none => some v | some u => if v.ord < u.ord then some u else some v
/-- The newest version, pending or committed, whose ordinal passes a test (R298). -/
def anyVersion (s : State) (σ : Slot) (p : Nat → Bool) : Seen :=
  match newest ((s.dieAt σ.die).attic.filter fun v => v.slot == σ && v.by'.isNone && p v.ord) with
  | none => s.committed σ p
  | some v => match s.committed σ p with
    | .version o data => if o < v.ord then .version v.ord v.data else .version o data
    | _ => .version v.ord v.data

/-! ## Storage of committed versions (R284, R287, R309) -/

/-- Bytes of a slot's storage that the engine writes; what they replace may still be what an ordinary load returns (R309). -/
def poolWrite (s : State) (loc : Nat) : List Byte → State
  | [] => s
  | b :: bs =>
    let s := s.modPkg fun p => { p with hist := SMap.set [] p.hist loc (s.byte loc :: SMap.get [] p.hist loc), bad := SMap.set false p.bad (lineOf loc) false }
    poolWrite { s with mem := Memory.write s.mem loc b } (loc + 1) bs

/-- `n` bytes at a location lie in a pool's crates and in no other slot's storage. -/
def fits (crates : List Nat) (used : List (Nat × Nat)) (loc n : Nat) : Bool :=
  decide (dpaOf loc ≠ 0) && ((upto (loc / 65536) ((loc + n - 1) / 65536 + 1 - loc / 65536)).all fun c => crates.contains (c * 65536)) &&
    used.all fun u => decide (u.1 + u.2 ≤ loc) || decide (loc + n ≤ u.1)
/-- The first granule, of `k` from `i` on, at which a version fits. -/
def firstFit (crates : List Nat) (used : List (Nat × Nat)) (n : Nat) : Nat → Nat → Option Nat
  | 0, _ => none
  | k + 1, i =>
    let j := i % (512 * crates.length)
    let loc := crates.getD (j / 512) 0 + 128 * (j % 512)
    if fits crates used loc n then some loc else firstFit crates used n k (i + 1)
/-- Where the engine places the committed version of a slot: anywhere free in the pool (log entry 7). Storage that another directory names is
not free; the slot's own is, its old version having moved to the attic. -/
def placeFor (s : State) (σ : Slot) (key n : Nat) : Option Nat :=
  let crates := SMap.get [] (s.dieAt σ.die).pools key
  let own := 512 * σ.bid + 2 * σ.layer + σ.part
  let used := ((s.dieAt σ.die).dirs.filter fun e => e.1 != own && e.2.store != 0).map fun e => (e.2.store, e.2.size)
  firstFit crates used n (512 * crates.length) (s.choose 46000 (512 * crates.length))

/-- Superseded versions whose time has passed are freed (R287). -/
def forget (s : State) : List Ver → State
  | [] => s
  | v :: vs =>
    let e := s.dirOf v.slot.die v.slot.bid v.slot.layer v.slot.part
    forget (s.setDir v.slot.die v.slot.bid v.slot.layer v.slot.part { e with gone := some (min v.ord (e.gone.getD v.ord)) }) vs
def prune (s : State) (d : Nat) : State :=
  let past := fun (v : Ver) => match v.by' with | some b => decide (b + v.retain < waveOf (s.gvtOf v.domain)) | none => false
  (s.forget ((s.dieAt d).attic.filter past)).modDie d fun x => { x with attic := x.attic.filter fun v => !past v }

/-- A version becomes the committed one; the previous one is superseded. None while the pool has no room. -/
def install (s : State) (σ : Slot) (domain retain ord : Nat) (data : List Byte) : Option State :=
  let e := s.dirOf σ.die σ.bid σ.layer σ.part
  match s.placeFor σ domain data.length with
  | none => none
  | some loc =>
    let s := if e.store = 0 then s else s.modDie σ.die fun x => { x with attic := x.attic ++
      [{ slot := σ, ord := e.vord, data := Memory.readN s.mem e.store e.size, writer := 0, domain := domain, retain := retain, by' := some (waveOf ord) }] }
    let s := s.poolWrite loc data
    some ((s.setDir σ.die σ.bid σ.layer σ.part { store := loc, vord := ord, size := data.length, gone := e.gone }).prune σ.die)

/-- The commit of a slot's oldest pending version, once the published bound exceeds its ordinal (R287). -/
def commit (s : State) (σ : Slot) : Option State :=
  let mine := (s.dieAt σ.die).attic.filter fun v => v.slot == σ && v.by'.isNone
  match mine.find? fun v => mine.all fun u => decide (v.ord ≤ u.ord) with
  | none => none
  | some v =>
    if v.ord < s.gvtOf v.domain then
      (s.modDie σ.die fun x => { x with attic := x.attic.filter (· != v) }).install σ v.domain v.retain v.ord v.data
    else none

/-- The attic has room for `n` more bytes; the task of the smallest uncommitted ordinal may use the reserve (R287). -/
def atticHas (s : State) (d n : Nat) : Bool :=
  decide (((s.dieAt d).attic.map fun v => v.data.length).foldl (· + ·) 0 + n ≤ Config.atticRoom d) ||
    ((s.ctx.act.kind == .task || s.ctx.act.kind == .wavetask) &&
      (match s.leastTask s.ctx.act.key with | some o => decide (s.ctx.ord.toNat ≤ o) | none => true))

end State

/-! ## δ (R294) -/

/-- One element's contribution. -/
def deltaElem (f : Fmt) (new old : Nat) : Ex :=
  if new = old then .fin false 0 1 0
  else match f.dec new, f.dec old with
    | .fin n a d e, .fin m b c k => (Ex.add (.fin n a d e) (Ex.fin m b c k).neg).abs
    | _, _ => .inf false
/-- The greatest contribution of two runs of elements of `w` bytes. -/
def deltaOf (f : Fmt) (w : Nat) : Nat → List Byte → List Byte → Ex
  | 0, _, _ => .fin false 0 1 0
  | n + 1, xs, ys =>
    let x := deltaElem f (bytesToNat (xs.take w)) (bytesToNat (ys.take w))
    let y := deltaOf f w n (xs.drop w) (ys.drop w)
    if Ex.cmp x y == .lt then y else x

/-- Bytes with some replaced. -/
def splice (old : List Byte) (at' : Nat) (new : List Byte) : List Byte := old.take at' ++ new ++ old.drop (at' + new.length)

end Sys2Proof.Machine
end

