-- ==== Sys2Proof/Machine/Context.lean ====
section
/-! DEFINITION. The instructions of the context engine: CTX, EDIT, KVAP, WALK, DMAP, WAVE, VLDW, VSTW, DELTA, SETTLE (18_context_instructions,
R303 to R317). -/
namespace Sys2Proof.Machine
open Sys2Proof

/-- TRAPVAL of VERSION (R304). -/
def verVal (reason h pos layer : Nat) : Word :=
  BitVec.ofNat 64 (reason + h % 65536 * 2 ^ 8 + pos % 2 ^ 24 * 2 ^ 24 + layer % 256 * 2 ^ 48)
/-- VERSION (R304). -/
def verTrap (reason h pos layer : Nat) : Res := .trap 0x15#8 (verVal reason h pos layer)
/-- A status word (R307, R341). -/
def statusWord (st v : Nat) : Word := BitVec.ofNat 64 (st * 2 ^ 56 + v)

/-- The fields of a descriptor (R306), when it is well-formed: the record without its key and its thresholds, and the address of these. -/
def ctxDesc (w0 w1 w2 w3 : Word) : Option (Rec × Word) :=
  let row0 := bits w1 47 32
  let row1 := bits w1 63 48
  if bits w0 51 8 = 0 ∧ bits w1 31 0 = 0 ∧ bits w2 63 56 = 0 ∧ w3 = 0#64 ∧ row0 % 4 = 0 ∧ 4 ≤ row0 ∧ row1 % 4 = 0 ∧ 4 ≤ row1 ∧
      w2.toNat % 512 = 0 then
    some ({ bsz := bits w0 63 62, layers := bits w0 59 52 + 1, key := 0, pfmt := bits w0 61 60, retain := bits w0 7 0, row0 := row0, row1 := row1 }, w2)
  else none

namespace State

/-! ## Handles (R303) -/

/-- The record of a handle that the issuer may name, or the reason it may not. -/
def handleOf (s : State) (h : Nat) : Nat ⊕ Rec :=
  match s.crec h with
  | none => .inl 1
  | some r => if r.key = s.ctx.ask.toNat ∨ s.privileged = true then .inr r else .inl 2
/-- Go on with a handle's record. -/
def withHandle (s : State) (h : Nat) (f : Rec → Res) : Res :=
  match s.handleOf h with
  | .inl n => verTrap n h 0 0
  | .inr r => f r
/-- A synchronising event of the engine that a speculative task holds back (R303), and the drains it waits for (R224). -/
def ctxEvent (s : State) (f : State → Res) : Res := if s.speculative || s.drainsOut then s.hold else f s

/-- A free handle of a die: any (log entry 7). -/
def newHandle (s : State) (d : Nat) : Option Nat :=
  let used := SMap.keys (s.dieAt d).recs
  if 16384 ≤ used.length then none else some (16384 * d + unused used 16384 16384 (s.choose 47000 16384))

/-- Translate an operand's bytes for reading: the location of the first (R198). A pantry has no DPA. -/
def dpaFor (s : State) (a : Word) (al n : Nat) (ps : List (Nat × Nat)) (f : State → Nat → Res) : Res :=
  match s.reach .read 0 a al n ps 16 with
  | .stop r => r
  | .go s runs =>
    let loc := (runs.getD 0 (0, 0)).1
    if isGlobal loc then f s loc else .trap 0x09#8 a
/-- The array of `t` token identifiers (R308): its first and last are translated. -/
def tokensAt (s : State) (a : Word) (t : Nat) (f : State → Nat → Res) : Res :=
  if t = 0 then f s 0 else s.dpaFor a 4 (4 * t) [(0, 4), (4 * t - 4, 4)] fun s loc => f s (dpaOf loc)

/-! ## Walkers (R283) -/

/-- The block of a context that holds a position. -/
def blockAt (s : State) (h p : Nat) : Option BlockAt := (s.blocksOf h).find? fun b => decide (b.pos ≤ p) && decide (p < b.pos + b.len)
/-- The storage row of position `p` in its block. -/
def rowOf (s : State) (d : Nat) (b : BlockAt) (p : Nat) : Nat :=
  (((s.node d b.node).blocks.getD b.idx { bid := 0, rowoff := 0 }).rowoff) + (p - b.pos)
/-- A position as it resolves in the tree (R283): the node, the block, the row within the block's storage, START of the node. -/
def resolve (s : State) (h p : Nat) : List Nat :=
  match s.blockAt h p with
  | none => []
  | some b => [b.node, b.bid, s.rowOf (h / 16384) b p, (s.node (h / 16384) b.node).start]
/-- What a unit that names a position resolves it to: in the tree as it stood at its issue, where it has waited for its walk since (R299, R310). -/
def resolved (s : State) (h p : Nat) : List Nat := if s.waitNow.node.isSome then s.waitNow.data else s.resolve h p

/-- The nodes that a walker reads from a context's LEAF up to the one that holds position `p` (R283). -/
def wayUp (s : State) (d p : Nat) : List Nat → List Nat
  | [] => []
  | i :: is => if (s.node d i).start ≤ p then [i] else i :: wayUp s d p is
/-- The first of them, from the node that the unit's walker has reached on, that it cannot read, and its crate, which has no medium. -/
def walkGap (s : State) (h p : Nat) (r : Rec) : Option (Nat × Nat) :=
  let up := s.wayUp (h / 16384) p (s.path (h / 16384) r).reverse
  let up := match s.waitNow.node with | some i => up.dropWhile (· != i) | none => up
  (up.map fun i => (i, (Config.nodeBase (h / 16384) + 128 * i) / 65536)).find? fun x => s.medium x.2 == .absent
/-- A die's four walkers are parked for other units (R283). -/
def noWalker (s : State) (d : Nat) : Bool :=
  decide (4 ≤ (s.allSites.filter fun x => x != s.site && (s.ctxAt x).wait.any fun w => w.parked.isSome && w.walker == some d).length)
/-- The walk waits: for a walker, or at an absent page. -/
def walkHeld (s : State) (h p : Nat) (r : Rec) : Bool := s.noWalker (h / 16384) || (s.walkGap h p r).isSome
/-- Walk from LEAF to position `p` (R283): where the walker finds an absent page it parks, and the issuer waits for it; it goes on from the node that it
had reached (R310, R393, R394; log entry 94). -/
def walking (s : State) (h p : Nat) (r : Rec) (f : Unit → Res) : Res :=
  let d := h / 16384
  let w : Wait := { s.waitNow with node := s.waitNow.node.orElse fun _ => r.leaf, data := s.resolved h p }
  if s.noWalker d then s.holdWith w
  else match s.walkGap h p r with
    | none => f ()
    | some (i, k) =>
      if w.parked = some (0, k) then s.hold
      else .wait ((s.parkAt d { key := 0, page := k, access := 0, agent := 3, site := 0x3FFFFF, tick := s.tick d }).setWait
        { w with node := some i, parked := some (0, k), walker := some d, pval := BitVec.ofNat 64 (k * 65536) })

/-! ## CTX (R306, R307) -/

/-- SHARE rises by 1 along a path. -/
def shareAll (s : State) (d : Nat) : List Nat → State
  | [] => s
  | i :: is => shareAll (s.modNode d i fun x => { x with share := x.share + 1 }) d is
/-- SHARE falls by 1 along a path, last node first; a node that reaches 0 is freed. -/
def unshareAll (s : State) (d : Nat) : List Nat → State
  | [] => s
  | i :: is =>
    let n := s.node d i
    unshareAll (if n.share ≤ 1 then (s.detach d i).freeNode d i else s.modNode d i fun x => { x with share := x.share - 1 }) d is

/-- CTX.NEW's effect once the descriptor has been read. -/
def ctxMake (s : State) (d : BitVec 5) (w : Nat → Word) : Res :=
  match ctxDesc (w 0) (w 1) (w 2) (w 3) with
  | none => s.ctxEvent fun s => .ok (s.putG d (statusWord 2 0))
  | some (r, thr) => s.dpaFor thr 512 512 ((upto 0 64).map fun i => (8 * i, 8)) fun s a => s.ctxEvent fun s =>
    match s.newHandle s.die with
    | none => .ok (s.putG d (statusWord 1 0))
    | some h => .ok ((s.setRec h (some { r with key := s.ctx.ask.toNat, thrtab := dpaOf a, thrmkid := mkidOf a })).putG d (statusWord 0 h))

/-- CTX.FORK's effect. -/
def ctxFork (s : State) (d : BitVec 5) (h : Nat) : Res :=
  s.withHandle h fun r => s.ctxEvent fun s =>
    if s.settledAll h r = false then .wait (s.setWait { s.waitNow with watch := [h] })
    else match s.newHandle (h / 16384) with
      | none => .ok (s.putG d (statusWord 1 0))
      | some k =>
        if s.poolRoom (h / 16384) 1 = false then .ok (s.putG d (statusWord 3 0))
        else .ok (((s.setRec k (some r)).shareAll (h / 16384) (s.path (h / 16384) r)).putG d (statusWord 0 k))

/-- The waits on a handle that is freed end: the waiting units raise VERSION (R317). -/
def endWaits (s : State) (h : Nat) : State :=
  { s with parked := SMap.mapVals Ctx.reset (fun (c : Ctx) =>
      { c with wait := c.wait.map fun w => if w.watch.contains h then { w with gone := some h } else w }) s.parked }
/-- CTX.FREE's effect. -/
def ctxFree (s : State) (h : Nat) : Res :=
  s.withHandle h fun r => s.ctxEvent fun s =>
    let d := h / 16384
    let ns := s.path d r
    let s := (s.setRec h none).modDie d fun x => { x with binds := SMap.set none x.binds (h % 16384) none }
    .ok ((s.endWaits h).unshareAll d ns.reverse)

/-! ## EDIT and KVAP (R290 to R292, R308, R309) -/

/-- The change of an EDIT that passes its checks: a wave, the tree, the marks at layer 0 (R291). -/
def editDo (s : State) (h p del t tok user : Nat) (r : Rec) : Nat × State :=
  let m := s.nextWave r.key
  let k := 2 ^ 24 * r.key + m
  let inst := s.ctx.act.msg.bind (·.inst)
  let s := s.modPkg fun x => { x with
    waves := SMap.set 1 x.waves r.key (m + 1)
    users := SMap.set 0 x.users k user
    waveInst := SMap.set none x.waveInst k inst }
  let s := s.rework h m p del t tok r
  (m, s.markAll (h / 16384) 0 m m true (((s.blocksOf h).filter fun b => decide (p ≤ b.pos)).map (·.bid)))

/-- EDIT: `del` and `ins` say what it does with its t tokens; `tok` is the address of the array (R308). -/
def edit (s : State) (d : BitVec 5) (w x tok : Word) (del ins : Bool) : Res :=
  let h := bits w 15 0
  let p := bits w 55 32
  let t := bits x 31 0
  s.withHandle h fun r =>
    if bits w 31 27 ≠ 0 ∨ bits w 63 56 ≠ 0 then verTrap 9 h 0 0
    else s.walking h p r fun _ => s.tokensAt tok (if ins then t else 0) fun s a => s.ctxEvent fun s =>
      let nd := if del then t else 0
      let ni := if ins then t else 0
      if t = 0 then .ok (s.putG d 0#64)
      else if r.length < p + nd ∨ 2 ^ 24 + nd < r.length + ni then .ok (s.putG d (statusWord 1 0))
      else if 2 ^ 24 ≤ s.nextWave r.key then .ok (s.putG d (statusWord 2 0))
      else if s.poolRoom (h / 16384) (s.nodesNeeded h p nd ni r) = false then .ok (s.putG d (statusWord 3 0))
      else let (m, s) := s.editDo h p nd ni a (bits w 26 16) r; .ok (s.putG d (statusWord 0 m))

/-- KVAP.POOL's crates join the pool of the issuer's key on its die. The faults of R198 come before a bad count's (R44, R309). -/
def poolBody (s : State) (d : BitVec 5) (a : Word) (n : Nat) : Res :=
  match s.reach .write 0 a 65536 (max 1 (65536 * n)) (crateParts a.toNat 0 (65536 * n) (n + 1)) 16 with
    | .stop r => r
    | .go s runs =>
      if runs.any fun r => !isGlobal r.1 then .trap 0x09#8 a
      else if n = 0 ∨ 65536 < n then verTrap 9 0 0 0
      else s.ctxEvent fun s =>
        let pool := SMap.get [] (s.dieAt s.die).pools s.ctx.ask.toNat
        let pool := pool ++ ((runs.map (·.1)).filter fun c => !pool.contains c).eraseDups
        .ok ((s.modDie s.die fun x => { x with pools := SMap.set [] x.pools s.ctx.ask.toNat pool }).putG d (BitVec.ofNat 64 pool.length))

/-- KVAP.APP: tokens appended without a wave (R309). The array's faults come before the handle's (R44, R309). -/
def appBody (s : State) (d : BitVec 5) (w tok : Word) : Res :=
  let h := bits w 15 0
  let t := bits w 47 32
  s.tokensAt tok t fun s a => s.withHandle h fun r =>
    if bits w 31 16 ≠ 0 ∨ bits w 63 48 ≠ 0 ∨ t = 0 then verTrap 9 h 0 0
    else s.ctxEvent fun s =>
      let k := h / 16384
      if 2 ^ 24 < r.length + t then .ok (s.putG d (statusWord 1 0))
      else if s.poolRoom k (chainLens 4100 t).length = false then .ok (s.putG d (statusWord 3 0))
      else
        let (new, s) := s.newNodes k (bszOf r.bsz) 0 a (chainLens 4100 t)
        let s := s.stringNodes k r.leaf r.length new
        .ok ((s.setRec h (some { r with length := r.length + t, root := if r.root.isSome then r.root else new.head?, leaf := new.getLast? })).putG d 0#64)

/-! ## WALK and DMAP (R305, R310, R311) -/

/-- WALK's three registers. -/
def walkBody (s : State) (d : BitVec 5) (w : Word) : Res :=
  let h := bits w 15 0
  let p := bits w 55 32
  s.withHandle h fun r =>
    if bits w 63 56 ≠ 0 ∨ bits w 23 17 ≠ 0 ∨ bits w 16 16 ≠ 0 then verTrap 9 h p 0
    else if r.length ≤ p ∧ s.waitNow.node = none then verTrap 3 h p 0
    else s.walking h p r fun _ => match s.resolved h p with
      | [n, bid, row, st] =>
        let dir := if s.privileged then Config.slotDir (h / 16384) bid else 0
        .ok (((s.putG d (BitVec.ofNat 64 (n * 2 ^ 32 + bid))).putG (d + 1#5) (BitVec.ofNat 64 dir)).putG (d + 2#5)
          (BitVec.ofNat 64 (row * 2 ^ 40 + (p - st) * 2 ^ 24 + st)))
      | _ => verTrap 3 h p 0

end State
/-- Word 0 of a map entry (R288). -/
def MapEnt.word0 (e : MapEnt) : Word :=
  BitVec.ofNat 64 ((match e.st with | .clean => 0 | .dirty => 1 | .inflight => 2 | .skipped => 3) * 2 ^ 62 + (if e.need0 then 2 ^ 61 else 0) +
    (if e.again then 2 ^ 60 else 0) + (if e.again0 then 2 ^ 59 else 0) + e.new * 2 ^ 24 + e.old)
namespace State

/-- DMAP.GET. -/
def dmapGet (s : State) (d : BitVec 5) (w : Word) : Res :=
  let h := bits w 15 0
  let p := bits w 55 32
  let l := bits w 31 24
  s.withHandle h fun r =>
    if bits w 63 56 ≠ 0 ∨ bits w 23 17 ≠ 0 ∨ bits w 16 16 ≠ 0 then verTrap 9 h p l
    else if r.layers ≤ l then verTrap 4 h p l
    else if r.length ≤ p ∧ s.waitNow.node = none then verTrap 3 h p l
    else s.walking h p r fun _ => match s.resolved h p with
      | [_, bid, _, _] => .ok (s.putG d (s.ent (h / 16384) bid l).word0)
      | _ => verTrap 3 h p l
/-- DMAP.THR: the threshold is written where θ is read (R294). -/
def dmapThr (s : State) (w θ : Word) : Res :=
  let h := bits w 15 0
  let l := bits w 31 24
  s.withHandle h fun r =>
    if bits w 63 56 ≠ 0 ∨ bits w 23 17 ≠ 0 ∨ bits w 16 16 ≠ 0 ∨ bits w 55 32 ≠ 0 then verTrap 9 h 0 l
    else if r.layers ≤ l then verTrap 4 h 0 l
    else if θ.getLsbD 15 || (Fmt.f16.dec (bits θ 15 0)).isNan then verTrap 8 h 0 l
    else s.storeRuns [(thetaAt r l, 2)] (natToBytes 2 (bits θ 15 0))
/-- Entries of a context that are DIRTY or INFLIGHT. -/
def dirtyCount (s : State) (h : Nat) (r : Rec) : Nat :=
  ((s.blocksOf h).map fun b => ((upto 0 r.layers).filter fun l =>
    let e := s.ent (h / 16384) b.bid l
    e.st == .dirty || e.st == .inflight).length).foldl (· + ·) 0

/-! ## The task stream (R293, R312) -/

/-- The enabled cores of a group that contains a site: 0 its core, 1 its quad, 2 its cluster, 3 its die (R312, R321). -/
def spanCores (s : State) (site span : Nat) : List Nat :=
  let k := 4 ^ (min span 2) * (if span = 3 then 16 else 1)
  (upto (coreOf site / k * k) k).filter s.coreEnabled
/-- Ordered tasks that wait in a core's queue. -/
def queued (s : State) (core : Nat) : List OrdTask := (s.coreAt core).ordq.filter fun t => !t.done
/-- An ordered task enters a core's queue (R328). -/
def enqueue (s : State) (core : Nat) (m : Msg) : State :=
  let s := s.modCore core fun c => { c with ordq := c.ordq ++ [{ msg := { m with arr := s.tick (core / 256) } }] }
  s.modPkg fun p => { p with largest := SMap.set 0 p.largest m.key (max m.ord (SMap.get 0 p.largest m.key)) }
/-- Dispatch an entry to a core (R293): the entry is INFLIGHT, its task is queued. What the spec does not state of the message (its TAG and
its SRCSITE) is free (log entry 7). -/
def dispatch (s : State) (e : Ready) (core cls : Nat) (entry : Word) : State :=
  let d := e.handle / 16384
  let m := s.ent d e.blk.bid e.layer
  let s := s.setEnt d e.blk.bid e.layer { m with st := .inflight, phase := if m.need0 then 0 else 1 }
  s.enqueue core
    { dst := 4 * core, src := (s.freeBits 12 48000).toNat, srcPkg := s.pkg.num, dstPkg := s.pkg.num, cls := cls, kind := .wavetask,
      tag := s.freeBits 16 48001, entry := entry, sendTick := s.tick d, key := e.dom, ord := e.ord,
      payload := [BitVec.ofNat 64 e.handle, BitVec.ofNat 64 (e.blk.node * 2 ^ 32 + e.blk.bid), BitVec.ofNat 64 (e.blk.len * 2 ^ 32 + e.blk.pos),
                  BitVec.ofNat 64 m.new],
      inst := SMap.get none s.pkg.waveInst (2 ^ 24 * e.dom + waveOf e.ord), also := s.entInsts e.dom m }
def bindOf (s : State) (h : Nat) : Option Bind := SMap.get none (s.dieAt (h / 16384)).binds (h % 16384)

/-- ENTRY's low and high bits are zero (R341). -/
def badEntry (e : Word) : Bool := bits e 1 0 != 0 || bits e 63 56 != 0
/-- WAVE.BIND. -/
def waveBind (s : State) (x hd entry : Word) : Res :=
  if badEntry entry then .trap 0x06#8 entry
  else s.withHandle (bits hd 15 0) fun _ =>
    let span := bits x 13 12
    if (s.spanCores (bits x 11 0) span).isEmpty then .trap 0x17#8 (engineVal 0x30 0#64)
    else s.ctxEvent fun s =>
      let b : Option Bind := if entry = 0#64 then none else some { entry := entry, span := span, site := bits x 11 0 }
      .ok (s.modDie (bits hd 15 14) fun y => { y with binds := SMap.set none y.binds (bits hd 13 0) b })
/-- WAVE.NEXT. A full queue takes nothing. -/
def waveNext (s : State) (d : BitVec 5) (hd entry : Word) : Res :=
  if badEntry entry then .trap 0x06#8 entry
  else s.withHandle (bits hd 15 0) fun _ =>
    match s.bindOf (bits hd 15 0), lowest (s.readyOf (bits hd 15 0)) with
    | none, some e =>
      if 256 ≤ (s.queued (coreOf s.site)).length then .ok (s.putG d 0#64)
      else .ok ((s.dispatch e (coreOf s.site) s.ctx.pri.toNat entry).putG d (BitVec.ofNat 64 e.ord))
    | _, _ => .ok (s.putG d 0#64)

/-! ## VLDW and VSTW (R297 to R299, R313, R314) -/

end State
/-- What a slot word and an offset name: nothing, for a reason (R314); a block that has been deleted; or bytes of a version. -/
inductive Named where
  | bad (r : Res)
  | deleted
  | at (r : Rec) (σ : Slot) (off pos : Nat)
namespace State

/-- Name the bytes of an access of `n` bytes (R313, R314). -/
def nameSlot (s : State) (w x : Word) (byBid : Bool) (n : Nat) : Named :=
  let h := bits w 15 0
  let l := bits w 31 24
  let q := bits w 16 16
  let p := if byBid then 0 else bits w 55 32
  let o := bits x 31 0
  match s.handleOf h with
  | .inl e => .bad (verTrap e h 0 0)
  | .inr r =>
    if bits w 23 17 ≠ 0 ∨ (byBid = false ∧ bits w 63 56 ≠ 0) ∨ bits x 63 56 ≠ 0 ∨ o % 4 ≠ 0 then .bad (verTrap 9 h p l)
    else if r.layers ≤ l then .bad (verTrap 4 h p l)
    else if (!byBid && (decide (p < r.length) || s.waitNow.node.isSome) && s.walkHeld h p r) = true then .bad (s.walking h p r fun _ => .ok s)
    else
      let k := h / 16384
      match (if byBid then ((s.blocksOf h).find? fun b => b.bid == bits w 63 32).map fun b => (b.bid, s.rowOf k b b.pos)
        else match s.resolved h p with | [_, bid, row, _] => some (bid, row) | _ => none) with
      | none => if byBid then .deleted else .bad (verTrap 3 h p l)
      | some (bid, row) =>
        let off := row * r.rowBytes q + o
        if r.verSize q < off + n then .bad (verTrap 9 h p l)
        else if (s.waitNow.node.isSome && !((s.blocksOf h).any fun b => b.bid == bid)) = true then .deleted
        else .at r { die := k, bid := bid, layer := l, part := q } off p

/-- The stage of a VLDW or VSTW that waits: what it named at its issue, in `data`, with the wave that a VLDW took (R296, R299, R313). -/
def verStage : Nat := 110
def renameSlot (s : State) (w : Word) (data : List Nat) : Named :=
  let h := bits w 15 0
  match s.handleOf h with
  | .inl e => .bad (verTrap e h 0 0)
  | .inr r =>
    let σ : Slot := { die := h / 16384, bid := data.getD 0 0, layer := bits w 31 24, part := bits w 16 16 }
    if (s.blocksOf h).any fun b => b.bid == σ.bid then .at r σ (data.getD 1 0) (data.getD 2 0) else .deleted

/-- Blocks of a read set (R330, R353). -/
def readBlocks (rs : List (Slot × Nat)) : List (Nat × Nat) := (rs.map fun r => (r.1.die, r.1.bid)).eraseDups
/-- The issuer is an ordered task of a domain (R298). -/
def orderedIn (s : State) (dom : Nat) : Bool := (s.ctx.act.kind == .task || s.ctx.act.kind == .wavetask) && s.ctx.act.key == dom

/-- VLDW's results (R313). -/
def vldwEnd (s : State) (d b : BitVec 5) (h off n pos : Nat) (σ : Slot) : Seen → Res
  | .absent => .ok (s.putG b 1#64)
  | .freed => verTrap 5 h pos σ.layer
  | .version o data => .ok ((s.putV d (BitVec.ofNat 4096 (bytesToNat ((data.drop off).take n)))).putG b (BitVec.ofNat 64 (o * 2 ^ 16)))

/-- VLDW by its qualifier: 0 SNAP, 1 CUR, 2 SETTLED. -/
def vldw (s : State) (d b : BitVec 5) (w x : Word) (byBid : Bool) (q : Nat) : Res :=
  let n := s.vbytes
  let h := bits w 15 0
  let wt := s.waitNow
  match (if wt.stage = verStage then s.renameSlot w wt.data else s.nameSlot w x byBid n) with
  | .bad r => r
  | .deleted => .ok (s.putG b 1#64)
  | .at r σ off pos =>
    let cap := if wt.stage = verStage then wt.data.getD 3 0 else s.capWave r.key (bits x 55 32)
    let wait : Res := .wait (s.setWait { wt with stage := verStage, data := [σ.bid, off, pos, cap], watch := [h] })
    if s.drainsOut then wait
    else if s.orderedIn r.key then
      let me := (σ.die, σ.bid)
      let full := !(readBlocks s.ctx.reads).contains me && decide (64 ≤ (readBlocks s.ctx.reads).length)
      if s.speculative && full then wait
      else
        let seen := s.anyVersion σ fun o => decide (o < s.ctx.ord.toNat) && (q != 0 || decide (waveOf o ≤ bits x 55 32))
        let o := match seen with | .version o _ => o | _ => 0
        let s := if s.speculative && !s.ctx.reads.contains (σ, o) then s.setCtx { s.ctx with reads := s.ctx.reads ++ [(σ, o)] } else s
        s.vldwEnd d b h off n pos σ seen
    else if q = 1 then s.vldwEnd d b h off n pos σ (s.committed σ fun _ => true)
    else if s.settledAt h σ.bid σ.layer (if q = 0 then cap else s.nextWave r.key - 1) = false then wait
    else s.vldwEnd d b h off n pos σ (s.committed σ fun o => q != 0 || decide (waveOf o ≤ cap))

/-- The issuing wave task's own slot (R313). -/
def ownSlot (s : State) : Option Slot :=
  if s.ctx.act.kind = .wavetask then s.ctx.act.msg.map fun m =>
    { die := m.wHandle / 16384, bid := m.wBid, layer := layerOf s.ctx.ord.toNat, part := phaseOf s.ctx.ord.toNat }
  else none
/-- The issuing task's own pending version of a slot: not that of an earlier task of its ordinal. -/
def pendingOf (s : State) (σ : Slot) : Option Ver :=
  (s.dieAt σ.die).attic.find? fun v => v.slot == σ && v.by'.isNone && v.ord == s.ctx.ord.toNat && v.writer == s.ctx.act.serial
/-- The bytes of a version that a new one starts as: those of the newest of a smaller ordinal, or zeros. -/
def startBytes (n : Nat) : Seen → List Byte
  | .version _ data => data
  | _ => List.replicate n 0#8

/-- VSTW's write of `bs` (R313). A task's first write discards the version that an earlier task of its ordinal has left there: a slot has one for each ordinal
(R286; log entry 95). -/
def vstw (s : State) (w x : Word) (byBid : Bool) (bs : List Byte) : Res :=
  let h := bits w 15 0
  let wt := s.waitNow
  match (if wt.stage = verStage then s.renameSlot w wt.data else s.nameSlot w x byBid bs.length) with
  | .bad r => r
  | .deleted => .ok s
  | .at r σ off pos =>
    let held := s.holdWith { wt with stage := verStage, data := [σ.bid, off, pos] }
    if s.drainsOut then held
    else if s.ownSlot = some σ then
      match s.pendingOf σ with
      | some v =>
        let s := s.modDie σ.die fun y => { y with attic := y.attic.map fun (u : Ver) => if u = v then { v with data := splice v.data off bs } else u }
        .ok (s.conflict r.key s.ctx.ord.toNat σ)
      | none =>
        if s.atticHas σ.die (r.verSize σ.part) = false then held
        else
          let old := startBytes (r.verSize σ.part) (s.anyVersion σ fun o => decide (o < s.ctx.ord.toNat))
          let v : Ver := { slot := σ, ord := s.ctx.ord.toNat, data := splice old off bs, writer := s.ctx.act.serial, domain := r.key, retain := r.retain }
          let s := s.discardAll σ.die fun u => u.slot == σ && u.ord == s.ctx.ord.toNat
          .ok ((s.modDie σ.die fun y => { y with attic := y.attic ++ [v] }).conflict r.key s.ctx.ord.toNat σ)
    else if s.ctx.act.kind = .wavetask then verTrap 7 h pos σ.layer
    else
      let e := s.ent σ.die σ.bid σ.layer
      if s.ctx.act.kind = .task ∨ (e.st ≠ .clean ∧ e.st ≠ .skipped) ∨ ((s.dieAt σ.die).attic.any fun v => v.slot == σ && v.by'.isNone) = true then
        verTrap 6 h pos σ.layer
      else
        let old := startBytes (r.verSize σ.part) (s.committed σ fun _ => true)
        let full := (s.dirOf σ.die σ.bid σ.layer σ.part).store != 0 && !s.atticHas σ.die (r.verSize σ.part)
        match (if full then none else s.install σ r.key r.retain 0 (splice old off bs)) with
        | none => held
        | some t => .ok t

/-! ## DELTA and SETTLE (R315, R316) -/

/-- DELTA's result, recorded for the task's DONE. -/
def deltaBody (s : State) (d : BitVec 5) : Res :=
  match s.ownSlot, s.ctx.act.msg with
  | some σ, some m =>
    let h := m.wHandle
    match s.crec h, (s.blocksOf h).find? fun b => b.bid == σ.bid with
    | some r, some b =>
      match s.pendingOf σ with
      | none => verTrap 7 h 0 σ.layer
      | some v =>
        let k := r.rowBytes σ.part
        let from' := ((s.node σ.die b.node).blocks.getD b.idx { bid := 0, rowoff := 0 }).rowoff * k
        let w := r.fmt.width / 8
        let n := bits (m.payload.getD 2 0#64) 38 32 * k / w
        let δ := match s.anyVersion σ fun o => decide (o < s.ctx.ord.toNat) with
          | .version _ old => deltaOf r.fmt w n (v.data.drop from') (old.drop from')
          | _ => .inf false
        let s := s.setCtx { s.ctx with delta := some δ }
        .ok (s.putG d (BitVec.ofNat 64 (roundEx .f32 .ru false δ).1))
    | _, _ => .ok (s.putG d 0x7F800000#64)
  | _, _ => verTrap 7 0 0 0

/-- SETTLE's operands (R316): the handle, the highest layer of the range, and w; or why they are not in order. -/
def settleOps (s : State) (x y : Word) (f : Rec → Nat → Nat → Res) : Res :=
  let h := bits x 15 0
  let rng := x.getLsbD 16
  let lo := bits x 31 24
  let hi := bits x 39 32
  s.withHandle h fun r =>
    if bits x 63 40 ≠ 0 ∨ bits x 23 17 ≠ 0 ∨ (rng = false ∧ (lo ≠ 0 ∨ hi ≠ 0)) ∨ bits y 63 24 ≠ 0 then verTrap 9 h 0 0
    else if rng = true ∧ (r.layers ≤ hi ∨ hi < lo) then verTrap 4 h 0 0
    else f r (if rng then hi else r.layers - 1) (bits y 23 0)

end State

/-! ## The instructions -/

/-- CTX.NEW. -/
def execCtxNew (stl : BitVec 3) (d a : BitVec 5) (s : State) : Host.Outcome State Fault Refusal :=
  s.unit 1 stl [(.g, a.toNat)] fun s =>
    match s.reach .read 0 (s.rg 0 a) 32 32 [(0, 8), (8, 8), (16, 8), (24, 8)] with
    | .stop r => r
    | .go s runs =>
      match s.loadRuns runs none with
      | .stop r => r
      | .got bs s => s.ctxMake d fun i => BitVec.ofNat 64 (bytesToNat ((bs.drop (8 * i)).take 8))
/-- CTX.FORK. -/
def execCtxFork (stl : BitVec 3) (d a : BitVec 5) (s : State) : Host.Outcome State Fault Refusal :=
  s.unit 1 stl [(.g, a.toNat)] fun s => s.ctxFork d (bits (s.rg 0 a) 15 0)
/-- CTX.FREE. -/
def execCtxFree (stl : BitVec 3) (a : BitVec 5) (s : State) : Host.Outcome State Fault Refusal :=
  s.unit 1 stl [(.g, a.toNat)] fun s => s.ctxFree (bits (s.rg 0 a) 15 0)
/-- CTX.INFO. -/
def execCtxInfo (stl : BitVec 3) (d a : BitVec 5) (s : State) : Host.Outcome State Fault Refusal :=
  s.unit 1 stl [(.g, a.toNat)] fun s => s.withHandle (bits (s.rg 0 a) 15 0) fun r =>
    if s.speculative then s.hold else .ok (s.putG d (BitVec.ofNat 64 (s.nextWave r.key * 2 ^ 32 + r.length)))

/-- EDIT.INS. -/
def execEditIns (stl : BitVec 3) (d a b : BitVec 5) (s : State) : Host.Outcome State Fault Refusal :=
  s.unit 1 stl [(.g, a.toNat), (.g, a.toNat + 1), (.g, b.toNat)] fun s => s.edit d (s.rg 0 a) (s.rg 1 (a + 1#5)) (s.rg 2 b) false true
/-- EDIT.DEL. -/
def execEditDel (stl : BitVec 3) (d a : BitVec 5) (s : State) : Host.Outcome State Fault Refusal :=
  s.unit 1 stl [(.g, a.toNat), (.g, a.toNat + 1)] fun s => s.edit d (s.rg 0 a) (s.rg 1 (a + 1#5)) 0#64 true false
/-- EDIT.REP. -/
def execEditRep (stl : BitVec 3) (d a b : BitVec 5) (s : State) : Host.Outcome State Fault Refusal :=
  s.unit 1 stl [(.g, a.toNat), (.g, a.toNat + 1), (.g, b.toNat)] fun s => s.edit d (s.rg 0 a) (s.rg 1 (a + 1#5)) (s.rg 2 b) true true

/-- KVAP.POOL. -/
def execKvapPool (stl : BitVec 3) (d a b : BitVec 5) (s : State) : Host.Outcome State Fault Refusal :=
  s.unit 1 stl [(.g, a.toNat), (.g, b.toNat)] fun s => s.poolBody d (s.rg 0 a) (bits (s.rg 1 b) 31 0)
/-- KVAP.APP. -/
def execKvapApp (stl : BitVec 3) (d a b : BitVec 5) (s : State) : Host.Outcome State Fault Refusal :=
  s.unit 1 stl [(.g, a.toNat), (.g, b.toNat)] fun s => s.appBody d (s.rg 0 a) (s.rg 1 b)

/-- WALK. -/
def execWalk (stl : BitVec 3) (d a : BitVec 5) (s : State) : Host.Outcome State Fault Refusal :=
  s.unit 1 stl [(.g, a.toNat)] fun s => s.walkBody d (s.rg 0 a)
/-- DMAP.GET. -/
def execDmapGet (stl : BitVec 3) (d a : BitVec 5) (s : State) : Host.Outcome State Fault Refusal :=
  s.unit 1 stl [(.g, a.toNat)] fun s => s.dmapGet d (s.rg 0 a)
/-- DMAP.THR. -/
def execDmapThr (stl : BitVec 3) (a b : BitVec 5) (s : State) : Host.Outcome State Fault Refusal :=
  s.unit 1 stl [(.g, a.toNat), (.g, b.toNat)] fun s => s.dmapThr (s.rg 0 a) (s.rg 1 b)
/-- DMAP.CNT. -/
def execDmapCnt (stl : BitVec 3) (d a : BitVec 5) (s : State) : Host.Outcome State Fault Refusal :=
  s.unit 1 stl [(.g, a.toNat)] fun s => s.withHandle (bits (s.rg 0 a) 15 0) fun r =>
    .ok (s.putG d (BitVec.ofNat 64 (s.dirtyCount (bits (s.rg 0 a) 15 0) r)))

/-- WAVE.BIND: rd is a source. -/
def execWaveBind (stl : BitVec 3) (d a b : BitVec 5) (s : State) : Host.Outcome State Fault Refusal :=
  s.unit 1 stl [(.g, d.toNat), (.g, a.toNat), (.g, b.toNat)] fun s => s.waveBind (s.rg 0 d) (s.rg 1 a) (s.rg 2 b)
/-- WAVE.NEXT. -/
def execWaveNext (stl : BitVec 3) (d a b : BitVec 5) (s : State) : Host.Outcome State Fault Refusal :=
  s.unit 1 stl [(.g, a.toNat), (.g, b.toNat)] fun s => s.waveNext d (s.rg 0 a) (s.rg 1 b)

/-- VLDW.SNAP. -/
def execVldwSnap (stl : BitVec 3) (d a b : BitVec 5) (y : BitVec 1) (s : State) : Host.Outcome State Fault Refusal :=
  s.unit 1 stl [(.g, a.toNat), (.g, a.toNat + 1)] fun s => s.vldw d b (s.rg 0 a) (s.rg 1 (a + 1#5)) (y == 1#1) 0
/-- VLDW.CUR. -/
def execVldwCur (stl : BitVec 3) (d a b : BitVec 5) (y : BitVec 1) (s : State) : Host.Outcome State Fault Refusal :=
  s.unit 1 stl [(.g, a.toNat), (.g, a.toNat + 1)] fun s => s.vldw d b (s.rg 0 a) (s.rg 1 (a + 1#5)) (y == 1#1) 1
/-- VLDW.SETTLED. -/
def execVldwSettled (stl : BitVec 3) (d a b : BitVec 5) (y : BitVec 1) (s : State) : Host.Outcome State Fault Refusal :=
  s.unit 1 stl [(.g, a.toNat), (.g, a.toNat + 1)] fun s => s.vldw d b (s.rg 0 a) (s.rg 1 (a + 1#5)) (y == 1#1) 2
/-- VSTW. -/
def execVstw (stl : BitVec 3) (d a : BitVec 5) (y : BitVec 1) (s : State) : Host.Outcome State Fault Refusal :=
  s.unit 1 stl [(s.vf, d.toNat), (.g, a.toNat), (.g, a.toNat + 1)] fun s =>
    s.vstw (s.rg 1 a) (s.rg 2 (a + 1#5)) (y == 1#1) (natToBytes s.vbytes (s.rv 0 d).toNat)

/-- DELTA. -/
def execDelta (stl : BitVec 3) (d : BitVec 5) (s : State) : Host.Outcome State Fault Refusal :=
  s.unit 1 stl [] fun s => s.deltaBody d
/-- SETTLE: w is taken at its issue (R296). -/
def execSettle (stl : BitVec 3) (a b : BitVec 5) (s : State) : Host.Outcome State Fault Refusal :=
  s.unit 1 stl [(.g, a.toNat), (.g, b.toNat)] fun s => s.settleOps (s.rg 0 a) (s.rg 1 b) fun r hi w =>
    let wt := s.waitNow
    let w := if wt.stage = State.verStage then wt.data.getD 0 0 else s.capWave r.key w
    if s.drainsOut || !s.settledTo (bits (s.rg 0 a) 15 0) hi w then .wait (s.setWait { wt with stage := State.verStage, data := [w], watch := [bits (s.rg 0 a) 15 0] })
    else .ok s
/-- SETTLE.TRY. -/
def execSettleTry (stl : BitVec 3) (d a b : BitVec 5) (s : State) : Host.Outcome State Fault Refusal :=
  s.unit 1 stl [(.g, a.toNat), (.g, b.toNat)] fun s => s.settleOps (s.rg 0 a) (s.rg 1 b) fun r hi w =>
    .ok (s.putG d (if s.settledTo (bits (s.rg 0 a) 15 0) hi (s.capWave r.key w) then 1#64 else 0#64))

end Sys2Proof.Machine
end

