-- ==== Sys2Proof/WellFormed.lean ====
section
/-! DEFINITION. Which instruction terms the device has: the field values that raise ILLEGAL_FUNCTION, RESERVED_FIELD or MODE at decode
(R27 to R30, R36 to R39, R43 of 02_encoding, and the operand rules of each entry). -/
namespace Sys2Proof

/-- The system register numbers of R87. -/
def sysregExists (n : Nat) : Bool :=
  decide (n ≤ 0x006) || (decide (0x010 ≤ n) && decide (n ≤ 0x015)) || (decide (0x020 ≤ n) && decide (n ≤ 0x026)) ||
  (decide (0x030 ≤ n) && decide (n ≤ 0x051)) || n == 0x060 || n == 0x061 || n == 0x070

/-- Which MOD fields a function honours: none of these may be set by a prefix before it (R37). -/
structure ModMask where
  sat : Bool
  neg : Bool
  abs : Bool
  clamp : Bool
  scale : Bool
  nega : Bool
  negb : Bool
  absa : Bool
  absb : Bool
  deriving DecidableEq, Repr

/-- CMOV honours every MOD field except NEGB and ABSB (R109): the fields it does not honour. -/
def ModMask.cmov : ModMask := ⟨false, false, false, false, false, false, true, false, true⟩
/-- VDOT and VRED honour SAT, NEG, ABS, SCALE and CLAMP (R132). -/
def ModMask.resultOnly : ModMask := ⟨false, false, false, false, false, true, true, true, true⟩
/-- VCVT honours SCALE only (R141). -/
def ModMask.scaleOnly : ModMask := ⟨true, true, true, true, false, true, true, true, true⟩

/-- The prefix sets a field that `f` marks as not honoured (R37). -/
def Pre.modSets (p : Pre) (f : ModMask) : Bool :=
  match p.mod with
  | Option.none => false
  | Option.some m => (f.sat && m.sat) || (f.neg && m.neg) || (f.abs && m.abs) || (f.clamp && m.clamp != 0#2) || (f.scale && m.scale != 0#5) ||
      (f.nega && m.nega) || (f.negb && m.negb) || (f.absa && m.absa) || (f.absb && m.absb)

/-- The clamp literal is part of the unit only when CLAMP is 0b11 (R36). -/
def Pre.litOk (p : Pre) : Bool :=
  match p.mod with
  | Option.none => true
  | Option.some m => m.clamp == 3#2 || m.lit == 0#32

/-- The prefixes of an instruction; none where its constructor has no place for them. -/
def Instr.pre : Instr → Pre
  | .aluAdd p _ _ _ _ => p
  | .aluSub p _ _ _ _ => p
  | .aluAbsd p _ _ _ _ => p
  | .aluwAdd p _ _ _ _ => p
  | .aluwSub p _ _ _ _ => p
  | .aluwAbsd p _ _ _ _ => p
  | .mulLo p _ _ _ _ => p
  | .mulW p _ _ _ _ => p
  | .cmovNz p _ _ _ _ => p
  | .cmovZ p _ _ _ _ => p
  | .cmovLt p _ _ _ _ => p
  | .cmovGe p _ _ _ _ => p
  | .vaddiAdd p _ _ _ _ _ => p
  | .vaddiSub p _ _ _ _ _ => p
  | .vaddiMin p _ _ _ _ _ => p
  | .vaddiMax p _ _ _ _ _ => p
  | .vaddiAbsd p _ _ _ _ _ => p
  | .vaddiAvg p _ _ _ _ _ => p
  | .vaddiNeg p _ _ _ _ => p
  | .vaddiAbs p _ _ _ _ => p
  | .vlogiAnd p _ _ _ _ _ => p
  | .vlogiOr p _ _ _ _ _ => p
  | .vlogiXor p _ _ _ _ _ => p
  | .vlogiAndn p _ _ _ _ _ => p
  | .vlogiShl p _ _ _ _ _ => p
  | .vlogiShr p _ _ _ _ _ => p
  | .vlogiSar p _ _ _ _ _ => p
  | .vlogiRol p _ _ _ _ _ => p
  | .vlogiRor p _ _ _ _ _ => p
  | .vlogiNot p _ _ _ _ => p
  | .vlogiPopc p _ _ _ _ => p
  | .vlogiClz p _ _ _ _ => p
  | .vmuliLo p _ _ _ _ _ => p
  | .vmuliHi p _ _ _ _ _ => p
  | .vmuliMac p _ _ _ _ _ => p
  | .vmuliMsb p _ _ _ _ _ => p
  | .vcmpiEq p _ _ _ _ _ => p
  | .vcmpiNe p _ _ _ _ _ => p
  | .vcmpiLt p _ _ _ _ _ => p
  | .vcmpiLe p _ _ _ _ _ => p
  | .vcmpiGt p _ _ _ _ _ => p
  | .vcmpiGe p _ _ _ _ _ => p
  | .vaddfAdd p _ _ _ _ _ => p
  | .vaddfSub p _ _ _ _ _ => p
  | .vaddfMin p _ _ _ _ _ => p
  | .vaddfMax p _ _ _ _ _ => p
  | .vmulfMul p _ _ _ _ _ => p
  | .vmulfFma p _ _ _ _ _ => p
  | .vmulfFms p _ _ _ _ _ => p
  | .vcmpfEq p _ _ _ _ _ => p
  | .vcmpfNe p _ _ _ _ _ => p
  | .vcmpfLt p _ _ _ _ _ => p
  | .vcmpfLe p _ _ _ _ _ => p
  | .vcmpfGt p _ _ _ _ _ => p
  | .vcmpfGe p _ _ _ _ _ => p
  | .vcmpfUn p _ _ _ _ _ => p
  | .vdot p _ _ _ _ _ => p
  | .vdotAcc p _ _ _ _ _ => p
  | .vdotI8 p _ _ _ _ => p
  | .vdotAccI8 p _ _ _ _ => p
  | .vdotI4 p _ _ _ _ => p
  | .vdotAccI4 p _ _ _ _ => p
  | .vcvt p _ _ _ _ _ _ _ _ _ => p
  | .vsfuRcp p _ _ _ _ => p
  | .vsfuRsqrt p _ _ _ _ => p
  | .vsfuSqrt p _ _ _ _ => p
  | .vsfuExp2 p _ _ _ _ => p
  | .vsfuLog2 p _ _ _ _ => p
  | .vsfuExp p _ _ _ _ => p
  | .vsfuLn p _ _ _ _ => p
  | .vsfuSinpi p _ _ _ _ => p
  | .vsfuCospi p _ _ _ _ => p
  | .vsfuTanh p _ _ _ _ => p
  | .vsfuSigm p _ _ _ _ => p
  | .vsfuSilu p _ _ _ _ => p
  | .vredSum p _ _ _ _ => p
  | .vredMax p _ _ _ _ => p
  | .vredMin p _ _ _ _ => p
  | .vredSumi p _ _ _ _ => p
  | .vredMaxi p _ _ _ _ => p
  | .vredMini p _ _ _ _ => p
  | .vredAndi p _ _ _ _ => p
  | .vredOri p _ _ _ _ => p
  | .vredXori p _ _ _ _ => p
  | .vpermTbl p _ _ _ _ _ => p
  | .vpermTbl2 p _ _ _ _ _ => p
  | .vpermBcast p _ _ _ _ _ => p
  | .vpermSlup p _ _ _ _ _ => p
  | .vpermSldn p _ _ _ _ _ => p
  | .vpermZiplo p _ _ _ _ _ => p
  | .vpermZiphi p _ _ _ _ _ => p
  | .vpermUnze p _ _ _ _ _ => p
  | .vpermUnzo p _ _ _ _ _ => p
  | .vpermRev p _ _ _ _ => p
  | .vpermCmpr p _ _ _ _ => p
  | .vmov p _ _ _ _ => p
  | .vmovBcg p _ _ _ _ => p
  | .vmovInsg p _ _ _ _ _ => p
  | .vmovExtg p _ _ _ _ _ => p
  | .vmovGetv p _ _ _ _ => p
  | .vmovSetv p _ _ _ _ => p
  | .vqnt p _ _ _ _ _ => p
  | .vld p _ _ _ _ _ _ => p
  | .vst p _ _ _ _ _ _ => p
  | _ => Pre.none

/-- Field values that raise ILLEGAL_FUNCTION (R43): an element type, size, count, block or prefix the entry does not accept. -/
def Instr.fnFault : Instr → Bool
  | .aluAdd p _ _ _ _ => p.mask.isSome
  | .aluSub p _ _ _ _ => p.mask.isSome
  | .aluAbsd p _ _ _ _ => p.mask.isSome
  | .aluwAdd p _ _ _ _ => p.mask.isSome
  | .aluwSub p _ _ _ _ => p.mask.isSome
  | .aluwAbsd p _ _ _ _ => p.mask.isSome
  | .mulLo p _ _ _ _ => p.mask.isSome
  | .mulW p _ _ _ _ => p.mask.isSome
  | .cmovNz p _ _ _ _ => (p.mask.isSome || p.modSets ModMask.cmov)
  | .cmovZ p _ _ _ _ => (p.mask.isSome || p.modSets ModMask.cmov)
  | .cmovLt p _ _ _ _ => (p.mask.isSome || p.modSets ModMask.cmov)
  | .cmovGe p _ _ _ _ => (p.mask.isSome || p.modSets ModMask.cmov)
  | .srd _ _ n => !sysregExists n.toNat
  | .swr _ _ n => !sysregExists n.toNat
  | .getid _ _ x => decide (9 < x.toNat)
  | .ld _ _ _ z _ _ => z == 7#3
  | .st _ _ _ z _ _ => decide (3 < z.toNat)
  | .vlogiAnd p _ _ _ _ _ => p.mod.isSome
  | .vlogiOr p _ _ _ _ _ => p.mod.isSome
  | .vlogiXor p _ _ _ _ _ => p.mod.isSome
  | .vlogiAndn p _ _ _ _ _ => p.mod.isSome
  | .vlogiShl p _ _ _ _ _ => p.mod.isSome
  | .vlogiShr p _ _ _ _ _ => p.mod.isSome
  | .vlogiSar p _ _ _ _ _ => p.mod.isSome
  | .vlogiRol p _ _ _ _ _ => p.mod.isSome
  | .vlogiRor p _ _ _ _ _ => p.mod.isSome
  | .vlogiNot p _ _ _ _ => p.mod.isSome
  | .vlogiPopc p _ _ _ _ => p.mod.isSome
  | .vlogiClz p _ _ _ _ => p.mod.isSome
  | .vmuliHi p _ _ _ _ _ => p.mod.isSome
  | .vcmpiEq p _ _ _ _ _ => p.mod.isSome
  | .vcmpiNe p _ _ _ _ _ => p.mod.isSome
  | .vcmpiLt p _ _ _ _ _ => p.mod.isSome
  | .vcmpiLe p _ _ _ _ _ => p.mod.isSome
  | .vcmpiGt p _ _ _ _ _ => p.mod.isSome
  | .vcmpiGe p _ _ _ _ _ => p.mod.isSome
  | .vaddfAdd _ _ _ _ _ e => decide (2 < e.toNat)
  | .vaddfSub _ _ _ _ _ e => decide (2 < e.toNat)
  | .vaddfMin _ _ _ _ _ e => decide (2 < e.toNat)
  | .vaddfMax _ _ _ _ _ e => decide (2 < e.toNat)
  | .vmulfMul _ _ _ _ _ e => decide (2 < e.toNat)
  | .vmulfFma _ _ _ _ _ e => decide (2 < e.toNat)
  | .vmulfFms _ _ _ _ _ e => decide (2 < e.toNat)
  | .vcmpfEq p _ _ _ _ e => decide (5 < e.toNat) || p.mod.isSome
  | .vcmpfNe p _ _ _ _ e => decide (5 < e.toNat) || p.mod.isSome
  | .vcmpfLt p _ _ _ _ e => decide (5 < e.toNat) || p.mod.isSome
  | .vcmpfLe p _ _ _ _ e => decide (5 < e.toNat) || p.mod.isSome
  | .vcmpfGt p _ _ _ _ e => decide (5 < e.toNat) || p.mod.isSome
  | .vcmpfGe p _ _ _ _ e => decide (5 < e.toNat) || p.mod.isSome
  | .vcmpfUn p _ _ _ _ e => decide (5 < e.toNat) || p.mod.isSome
  | .vdot p _ _ _ _ e => (e == 0#3 || decide (5 < e.toNat)) || p.modSets ModMask.resultOnly
  | .vdotAcc p _ _ _ _ e => (e == 0#3 || decide (5 < e.toNat)) || p.modSets ModMask.resultOnly
  | .vdotI8 p _ _ _ _ => p.modSets ModMask.resultOnly
  | .vdotAccI8 p _ _ _ _ => p.modSets ModMask.resultOnly
  | .vdotI4 p _ _ _ _ => p.modSets ModMask.resultOnly
  | .vdotAccI4 p _ _ _ _ => p.modSets ModMask.resultOnly
  | .vcvt p _ _ _ _ y t e i _ => ((i == 0#1 && decide (5 < e.toNat)) || (y == 0#1 && decide (5 < t.toNat))) || p.modSets ModMask.scaleOnly
  | .vsfuRcp _ _ _ _ e => decide (2 < e.toNat)
  | .vsfuRsqrt _ _ _ _ e => decide (2 < e.toNat)
  | .vsfuSqrt _ _ _ _ e => decide (2 < e.toNat)
  | .vsfuExp2 _ _ _ _ e => decide (2 < e.toNat)
  | .vsfuLog2 _ _ _ _ e => decide (2 < e.toNat)
  | .vsfuExp _ _ _ _ e => decide (2 < e.toNat)
  | .vsfuLn _ _ _ _ e => decide (2 < e.toNat)
  | .vsfuSinpi _ _ _ _ e => decide (2 < e.toNat)
  | .vsfuCospi _ _ _ _ e => decide (2 < e.toNat)
  | .vsfuTanh _ _ _ _ e => decide (2 < e.toNat)
  | .vsfuSigm _ _ _ _ e => decide (2 < e.toNat)
  | .vsfuSilu _ _ _ _ e => decide (2 < e.toNat)
  | .vredSum p _ _ _ e => decide (2 < e.toNat) || p.modSets ModMask.resultOnly
  | .vredMax p _ _ _ e => decide (2 < e.toNat) || p.modSets ModMask.resultOnly
  | .vredMin p _ _ _ e => decide (2 < e.toNat) || p.modSets ModMask.resultOnly
  | .vredSumi p _ _ _ _ => p.modSets ModMask.resultOnly
  | .vredMaxi p _ _ _ _ => p.modSets ModMask.resultOnly
  | .vredMini p _ _ _ _ => p.modSets ModMask.resultOnly
  | .vredAndi p _ _ _ _ => p.modSets ModMask.resultOnly
  | .vredOri p _ _ _ _ => p.modSets ModMask.resultOnly
  | .vredXori p _ _ _ _ => p.modSets ModMask.resultOnly
  | .vpermTbl p _ _ _ _ _ => p.mod.isSome
  | .vpermTbl2 p _ _ _ _ _ => p.mod.isSome
  | .vpermBcast p _ _ _ _ _ => p.mod.isSome
  | .vpermSlup p _ _ _ _ _ => p.mod.isSome
  | .vpermSldn p _ _ _ _ _ => p.mod.isSome
  | .vpermZiplo p _ _ _ _ _ => p.mod.isSome
  | .vpermZiphi p _ _ _ _ _ => p.mod.isSome
  | .vpermUnze p _ _ _ _ _ => p.mod.isSome
  | .vpermUnzo p _ _ _ _ _ => p.mod.isSome
  | .vpermRev p _ _ _ _ => p.mod.isSome
  | .vpermCmpr p _ _ _ _ => p.mod.isSome
  | .vmov p _ _ _ _ => p.mod.isSome
  | .vmovBcg p _ _ _ e => decide (5 < e.toNat) || p.mod.isSome
  | .vmovInsg p _ _ _ _ e => decide (5 < e.toNat) || p.mod.isSome
  | .vmovExtg p _ _ _ _ e => decide (5 < e.toNat) || p.mod.isSome
  | .vmovGetv p _ _ _ _ => p.mod.isSome
  | .vmovSetv p _ _ _ _ => p.mod.isSome
  | .vqnt p _ _ _ e g => (decide (e.toNat < 6) || g == 3#2) || p.mod.isSome
  | .vld p _ _ _ z _ _ => p.mod.isSome || decide (3 < z.toNat)
  | .vst p _ _ _ z _ _ => p.mod.isSome || decide (3 < z.toNat)
  | .ldt _ _ _ z _ => !(z == 1#3 || z == 2#3 || z == 3#3)
  | .acc _ _ _ z _ => z == 0#2
  | .accVec _ _ _ z _ => z == 0#2
  | .amsg _ _ _ b c => (c != 0#3 && decide (32 < b.toNat + c.toNat))
  | .xferCopy _ _ a _ => decide (28 < a.toNat)
  | .xferGather _ _ a _ => decide (28 < a.toNat)
  | .xferScatter _ _ a _ => decide (28 < a.toNat)
  | .xferFill _ _ a _ => decide (28 < a.toNat)
  | .xferQcopy _ _ a _ => decide (28 < a.toNat)
  | .xferRgather _ _ a _ => decide (28 < a.toNat)
  | .mmaNew _ a _ => decide (29 < a.toNat)
  | .mmaAcc _ a _ => decide (29 < a.toNat)
  | .mmaqNew _ a _ => decide (29 < a.toNat)
  | .mmaqAcc _ a _ => decide (29 < a.toNat)
  | .maccSt _ a _ _ => decide (30 < a.toNat)
  | .maccDrain _ a _ _ => decide (30 < a.toNat)
  | .xexp _ a _ f _ => decide (29 < a.toNat) || f == 3#2
  | .editIns _ _ a _ => a == 31#5
  | .editDel _ _ a => a == 31#5
  | .editRep _ _ a _ => a == 31#5
  | .walk _ d _ => decide (29 < d.toNat)
  | .vldwSnap _ _ a _ _ => a == 31#5
  | .vldwCur _ _ a _ _ => a == 31#5
  | .vldwSettled _ _ a _ _ => a == 31#5
  | .vstw _ _ a _ => a == 31#5
  | .waveNext _ _ _ b => b == 0#5
  | .send _ _ a b c => decide (8 < c.toNat) || (c != 0#4 && decide (32 < b.toNat + c.toNat)) || a == 31#5
  | .sendB _ _ a b c => decide (8 < c.toNat) || (c != 0#4 && decide (32 < b.toNat + c.toNat)) || a == 31#5
  | .fork _ _ _ b x c => decide (8 < c.toNat) || (c != 0#4 && decide (32 < b.toNat + c.toNat)) || decide (4 < x.toNat)
  | .task _ _ a b c => decide (8 < c.toNat) || (c != 0#4 && decide (32 < b.toNat + c.toNat)) || decide (29 < a.toNat)
  | .launch _ _ a b c => decide (8 < c.toNat) || (c != 0#4 && decide (32 < b.toNat + c.toNat)) || decide (28 < a.toNat)
  | .launchAt _ _ a b c => decide (8 < c.toNat) || (c != 0#4 && decide (32 < b.toNat + c.toNat)) || decide (28 < a.toNat)
  | .rsrvPut _ _ _ b c => decide (8 < c.toNat) || c == 0#4 || (c != 0#4 && decide (32 < b.toNat + c.toNat))
  | _ => false

/-- Field values that raise RESERVED_FIELD (R43): a scope of 7, `am` of 0b11, an unused field not zero. -/
def Instr.resFault : Instr → Bool
  | .shiShl _ _ _ w h => (w == 1#1 && decide (31 < h.toNat))
  | .shiShr _ _ _ w h => (w == 1#1 && decide (31 < h.toNat))
  | .shiSar _ _ _ w h => (w == 1#1 && decide (31 < h.toNat))
  | .shiRor _ _ _ w h => (w == 1#1 && decide (31 < h.toNat))
  | .pubf _ _ _ c => c == 7#3
  | .ld _ _ _ _ m _ => m == 3#2
  | .st _ _ _ _ m _ => m == 3#2
  | .vcvt _ _ _ _ _ y _ _ i m => (i == 1#1 && y == 1#1 && m != 0#2)
  | .vld _ _ _ _ _ m _ => m == 3#2
  | .vst _ _ _ _ _ m _ => m == 3#2
  | .amsg _ _ _ b c => (c == 0#3 && b != 0#5)
  | .fenceDrain _ c => c == 7#3
  | .send _ _ _ b c => (c == 0#4 && b != 0#5)
  | .sendB _ _ _ b c => (c == 0#4 && b != 0#5)
  | .fork _ _ _ b _ c => (c == 0#4 && b != 0#5)
  | .task _ _ _ b c => (c == 0#4 && b != 0#5)
  | .launch _ _ _ b c => (c == 0#4 && b != 0#5)
  | .launchAt _ _ _ b c => (c == 0#4 && b != 0#5)
  | .rsrvPin _ _ _ b => b != 0#5
  | .rsrvUnpin _ _ _ b => b != 0#5
  | _ => false

/-- A field names a register that the current vector mode does not have (R30). -/
def Instr.modeFault (long : Bool) : Instr → Bool
  | .vaddiAdd _ _ d a b _ => (long && decide (15 < d.toNat)) || (long && decide (15 < a.toNat)) || (long && decide (15 < b.toNat))
  | .vaddiSub _ _ d a b _ => (long && decide (15 < d.toNat)) || (long && decide (15 < a.toNat)) || (long && decide (15 < b.toNat))
  | .vaddiMin _ _ d a b _ => (long && decide (15 < d.toNat)) || (long && decide (15 < a.toNat)) || (long && decide (15 < b.toNat))
  | .vaddiMax _ _ d a b _ => (long && decide (15 < d.toNat)) || (long && decide (15 < a.toNat)) || (long && decide (15 < b.toNat))
  | .vaddiAbsd _ _ d a b _ => (long && decide (15 < d.toNat)) || (long && decide (15 < a.toNat)) || (long && decide (15 < b.toNat))
  | .vaddiAvg _ _ d a b _ => (long && decide (15 < d.toNat)) || (long && decide (15 < a.toNat)) || (long && decide (15 < b.toNat))
  | .vaddiNeg _ _ d a _ => (long && decide (15 < d.toNat)) || (long && decide (15 < a.toNat))
  | .vaddiAbs _ _ d a _ => (long && decide (15 < d.toNat)) || (long && decide (15 < a.toNat))
  | .vlogiAnd _ _ d a b _ => (long && decide (15 < d.toNat)) || (long && decide (15 < a.toNat)) || (long && decide (15 < b.toNat))
  | .vlogiOr _ _ d a b _ => (long && decide (15 < d.toNat)) || (long && decide (15 < a.toNat)) || (long && decide (15 < b.toNat))
  | .vlogiXor _ _ d a b _ => (long && decide (15 < d.toNat)) || (long && decide (15 < a.toNat)) || (long && decide (15 < b.toNat))
  | .vlogiAndn _ _ d a b _ => (long && decide (15 < d.toNat)) || (long && decide (15 < a.toNat)) || (long && decide (15 < b.toNat))
  | .vlogiShl _ _ d a b _ => (long && decide (15 < d.toNat)) || (long && decide (15 < a.toNat)) || (long && decide (15 < b.toNat))
  | .vlogiShr _ _ d a b _ => (long && decide (15 < d.toNat)) || (long && decide (15 < a.toNat)) || (long && decide (15 < b.toNat))
  | .vlogiSar _ _ d a b _ => (long && decide (15 < d.toNat)) || (long && decide (15 < a.toNat)) || (long && decide (15 < b.toNat))
  | .vlogiRol _ _ d a b _ => (long && decide (15 < d.toNat)) || (long && decide (15 < a.toNat)) || (long && decide (15 < b.toNat))
  | .vlogiRor _ _ d a b _ => (long && decide (15 < d.toNat)) || (long && decide (15 < a.toNat)) || (long && decide (15 < b.toNat))
  | .vlogiNot _ _ d a _ => (long && decide (15 < d.toNat)) || (long && decide (15 < a.toNat))
  | .vlogiPopc _ _ d a _ => (long && decide (15 < d.toNat)) || (long && decide (15 < a.toNat))
  | .vlogiClz _ _ d a _ => (long && decide (15 < d.toNat)) || (long && decide (15 < a.toNat))
  | .vmuliLo _ _ d a b _ => (long && decide (15 < d.toNat)) || (long && decide (15 < a.toNat)) || (long && decide (15 < b.toNat))
  | .vmuliHi _ _ d a b _ => (long && decide (15 < d.toNat)) || (long && decide (15 < a.toNat)) || (long && decide (15 < b.toNat))
  | .vmuliMac _ _ d a b _ => (long && decide (15 < d.toNat)) || (long && decide (15 < a.toNat)) || (long && decide (15 < b.toNat))
  | .vmuliMsb _ _ d a b _ => (long && decide (15 < d.toNat)) || (long && decide (15 < a.toNat)) || (long && decide (15 < b.toNat))
  | .vcmpiEq _ _ d a b _ => decide (7 < d.toNat) || (long && decide (15 < a.toNat)) || (long && decide (15 < b.toNat))
  | .vcmpiNe _ _ d a b _ => decide (7 < d.toNat) || (long && decide (15 < a.toNat)) || (long && decide (15 < b.toNat))
  | .vcmpiLt _ _ d a b _ => decide (7 < d.toNat) || (long && decide (15 < a.toNat)) || (long && decide (15 < b.toNat))
  | .vcmpiLe _ _ d a b _ => decide (7 < d.toNat) || (long && decide (15 < a.toNat)) || (long && decide (15 < b.toNat))
  | .vcmpiGt _ _ d a b _ => decide (7 < d.toNat) || (long && decide (15 < a.toNat)) || (long && decide (15 < b.toNat))
  | .vcmpiGe _ _ d a b _ => decide (7 < d.toNat) || (long && decide (15 < a.toNat)) || (long && decide (15 < b.toNat))
  | .vaddfAdd _ _ d a b _ => (long && decide (15 < d.toNat)) || (long && decide (15 < a.toNat)) || (long && decide (15 < b.toNat))
  | .vaddfSub _ _ d a b _ => (long && decide (15 < d.toNat)) || (long && decide (15 < a.toNat)) || (long && decide (15 < b.toNat))
  | .vaddfMin _ _ d a b _ => (long && decide (15 < d.toNat)) || (long && decide (15 < a.toNat)) || (long && decide (15 < b.toNat))
  | .vaddfMax _ _ d a b _ => (long && decide (15 < d.toNat)) || (long && decide (15 < a.toNat)) || (long && decide (15 < b.toNat))
  | .vmulfMul _ _ d a b _ => (long && decide (15 < d.toNat)) || (long && decide (15 < a.toNat)) || (long && decide (15 < b.toNat))
  | .vmulfFma _ _ d a b _ => (long && decide (15 < d.toNat)) || (long && decide (15 < a.toNat)) || (long && decide (15 < b.toNat))
  | .vmulfFms _ _ d a b _ => (long && decide (15 < d.toNat)) || (long && decide (15 < a.toNat)) || (long && decide (15 < b.toNat))
  | .vcmpfEq _ _ d a b _ => decide (7 < d.toNat) || (long && decide (15 < a.toNat)) || (long && decide (15 < b.toNat))
  | .vcmpfNe _ _ d a b _ => decide (7 < d.toNat) || (long && decide (15 < a.toNat)) || (long && decide (15 < b.toNat))
  | .vcmpfLt _ _ d a b _ => decide (7 < d.toNat) || (long && decide (15 < a.toNat)) || (long && decide (15 < b.toNat))
  | .vcmpfLe _ _ d a b _ => decide (7 < d.toNat) || (long && decide (15 < a.toNat)) || (long && decide (15 < b.toNat))
  | .vcmpfGt _ _ d a b _ => decide (7 < d.toNat) || (long && decide (15 < a.toNat)) || (long && decide (15 < b.toNat))
  | .vcmpfGe _ _ d a b _ => decide (7 < d.toNat) || (long && decide (15 < a.toNat)) || (long && decide (15 < b.toNat))
  | .vcmpfUn _ _ d a b _ => decide (7 < d.toNat) || (long && decide (15 < a.toNat)) || (long && decide (15 < b.toNat))
  | .vdot _ _ d a b _ => (long && decide (15 < d.toNat)) || (long && decide (15 < a.toNat)) || (long && decide (15 < b.toNat))
  | .vdotAcc _ _ d a b _ => (long && decide (15 < d.toNat)) || (long && decide (15 < a.toNat)) || (long && decide (15 < b.toNat))
  | .vdotI8 _ _ d a b => (long && decide (15 < d.toNat)) || (long && decide (15 < a.toNat)) || (long && decide (15 < b.toNat))
  | .vdotAccI8 _ _ d a b => (long && decide (15 < d.toNat)) || (long && decide (15 < a.toNat)) || (long && decide (15 < b.toNat))
  | .vdotI4 _ _ d a b => (long && decide (15 < d.toNat)) || (long && decide (15 < a.toNat)) || (long && decide (15 < b.toNat))
  | .vdotAccI4 _ _ d a b => (long && decide (15 < d.toNat)) || (long && decide (15 < a.toNat)) || (long && decide (15 < b.toNat))
  | .vcvt _ _ d a _ _ _ _ _ _ => (long && decide (15 < d.toNat)) || (long && decide (15 < a.toNat))
  | .vsfuRcp _ _ d a _ => (long && decide (15 < d.toNat)) || (long && decide (15 < a.toNat))
  | .vsfuRsqrt _ _ d a _ => (long && decide (15 < d.toNat)) || (long && decide (15 < a.toNat))
  | .vsfuSqrt _ _ d a _ => (long && decide (15 < d.toNat)) || (long && decide (15 < a.toNat))
  | .vsfuExp2 _ _ d a _ => (long && decide (15 < d.toNat)) || (long && decide (15 < a.toNat))
  | .vsfuLog2 _ _ d a _ => (long && decide (15 < d.toNat)) || (long && decide (15 < a.toNat))
  | .vsfuExp _ _ d a _ => (long && decide (15 < d.toNat)) || (long && decide (15 < a.toNat))
  | .vsfuLn _ _ d a _ => (long && decide (15 < d.toNat)) || (long && decide (15 < a.toNat))
  | .vsfuSinpi _ _ d a _ => (long && decide (15 < d.toNat)) || (long && decide (15 < a.toNat))
  | .vsfuCospi _ _ d a _ => (long && decide (15 < d.toNat)) || (long && decide (15 < a.toNat))
  | .vsfuTanh _ _ d a _ => (long && decide (15 < d.toNat)) || (long && decide (15 < a.toNat))
  | .vsfuSigm _ _ d a _ => (long && decide (15 < d.toNat)) || (long && decide (15 < a.toNat))
  | .vsfuSilu _ _ d a _ => (long && decide (15 < d.toNat)) || (long && decide (15 < a.toNat))
  | .vredSum _ _ _ a _ => (long && decide (15 < a.toNat))
  | .vredMax _ _ _ a _ => (long && decide (15 < a.toNat))
  | .vredMin _ _ _ a _ => (long && decide (15 < a.toNat))
  | .vredSumi _ _ _ a _ => (long && decide (15 < a.toNat))
  | .vredMaxi _ _ _ a _ => (long && decide (15 < a.toNat))
  | .vredMini _ _ _ a _ => (long && decide (15 < a.toNat))
  | .vredAndi _ _ _ a _ => (long && decide (15 < a.toNat))
  | .vredOri _ _ _ a _ => (long && decide (15 < a.toNat))
  | .vredXori _ _ _ a _ => (long && decide (15 < a.toNat))
  | .vpermTbl _ _ d a b _ => (long && decide (15 < d.toNat)) || (long && decide (15 < a.toNat)) || (long && decide (15 < b.toNat))
  | .vpermTbl2 _ _ d a b _ => (long && decide (15 < d.toNat)) || (long && decide (15 < a.toNat)) || (long && decide (15 < b.toNat))
  | .vpermBcast _ _ d a _ _ => (long && decide (15 < d.toNat)) || (long && decide (15 < a.toNat))
  | .vpermSlup _ _ d a _ _ => (long && decide (15 < d.toNat)) || (long && decide (15 < a.toNat))
  | .vpermSldn _ _ d a _ _ => (long && decide (15 < d.toNat)) || (long && decide (15 < a.toNat))
  | .vpermZiplo _ _ d a b _ => (long && decide (15 < d.toNat)) || (long && decide (15 < a.toNat)) || (long && decide (15 < b.toNat))
  | .vpermZiphi _ _ d a b _ => (long && decide (15 < d.toNat)) || (long && decide (15 < a.toNat)) || (long && decide (15 < b.toNat))
  | .vpermUnze _ _ d a b _ => (long && decide (15 < d.toNat)) || (long && decide (15 < a.toNat)) || (long && decide (15 < b.toNat))
  | .vpermUnzo _ _ d a b _ => (long && decide (15 < d.toNat)) || (long && decide (15 < a.toNat)) || (long && decide (15 < b.toNat))
  | .vpermRev _ _ d a _ => (long && decide (15 < d.toNat)) || (long && decide (15 < a.toNat))
  | .vpermCmpr _ _ d a _ => (long && decide (15 < d.toNat)) || (long && decide (15 < a.toNat))
  | .vmov _ _ d a _ => (long && decide (15 < d.toNat)) || (long && decide (15 < a.toNat))
  | .vmovBcg _ _ d _ _ => (long && decide (15 < d.toNat))
  | .vmovInsg _ _ d _ _ _ => (long && decide (15 < d.toNat))
  | .vmovExtg _ _ _ a _ _ => (long && decide (15 < a.toNat))
  | .vmovGetv _ _ d _ _ => (long && decide (15 < d.toNat))
  | .vmovSetv _ _ _ a _ => (long && decide (15 < a.toNat))
  | .kmaskAnd _ d a b => decide (7 < d.toNat) || decide (7 < a.toNat) || decide (7 < b.toNat)
  | .kmaskOr _ d a b => decide (7 < d.toNat) || decide (7 < a.toNat) || decide (7 < b.toNat)
  | .kmaskXor _ d a b => decide (7 < d.toNat) || decide (7 < a.toNat) || decide (7 < b.toNat)
  | .kmaskAndn _ d a b => decide (7 < d.toNat) || decide (7 < a.toNat) || decide (7 < b.toNat)
  | .kmaskNot _ d a => decide (7 < d.toNat) || decide (7 < a.toNat)
  | .kmaskFromg _ d _ _ => decide (7 < d.toNat)
  | .kmaskTog _ _ a _ => decide (7 < a.toNat)
  | .kmaskPopc _ _ a _ => decide (7 < a.toNat)
  | .kmaskFirst _ _ a _ => decide (7 < a.toNat)
  | .kmaskFill _ d _ _ => decide (7 < d.toNat)
  | .kmaskMov _ d a => decide (7 < d.toNat) || decide (7 < a.toNat)
  | .vqnt _ _ d a _ _ => (long && decide (15 < d.toNat)) || (long && decide (15 < a.toNat))
  | .vld _ _ t _ _ _ _ => (long && decide (15 < t.toNat))
  | .vst _ _ t _ _ _ _ => (long && decide (15 < t.toNat))
  | .vldx _ d _ b _ _ _ _ => (long && decide (15 < d.toNat)) || (long && decide (15 < b.toNat))
  | .vstx _ d _ b _ _ _ _ => (long && decide (15 < d.toNat)) || (long && decide (15 < b.toNat))
  | .accVec _ t _ _ _ => (long && decide (15 < t.toNat))
  | .vldwSnap _ d _ _ _ => (long && decide (15 < d.toNat))
  | .vldwCur _ d _ _ _ => (long && decide (15 < d.toNat))
  | .vldwSettled _ d _ _ _ => (long && decide (15 < d.toNat))
  | .vstw _ d _ _ => (long && decide (15 < d.toNat))
  | _ => false

/-- Functions that exist in long mode only (R146, R149): ILLEGAL_FUNCTION in short mode. -/
def Instr.longOnly : Instr → Bool
  | .vmovGetv _ _ _ _ _ => true
  | .vmovSetv _ _ _ _ _ => true
  | .vqnt _ _ _ _ _ _ => true
  | _ => false

/-- The rows of the table that are steps of an engine or of the host and have no word. -/
def Instr.isEvent : Instr → Bool
  | .hostInboxWrite _ _ _ => true
  | .inboxScanDelivery _ => true
  | .activationStart _ => true
  | .resultArrival _ => true
  | .longSlotGrant _ => true
  | .preEmptionRequest _ => true
  | .preEmptionHalt _ => true
  | .imageComplete _ => true
  | .imageRestore _ => true
  | .monitorRecheck _ => true
  | .coarseRecheck _ => true
  | .waitTimeout _ => true
  | .gvtPublication => true
  | .versionCommit _ _ _ _ => true
  | .taskAbort _ => true
  | .wavetaskDispatch _ => true
  | .admissionTokenGrant _ => true
  | .timedLaunchDelivery => true
  | .arrayStartGrant _ => true
  | .alarmRaise _ => true
  | .alarmClear _ => true
  | .reduceMessage _ => true
  | .amoExecute _ => true
  | .linkMessageArrival _ => true
  | .portDown _ _ => true
  | .hostMemRequest _ _ _ _ => true
  | .extentRelease _ _ => true
  | .extentReleaseTimeout _ _ _ => true
  | .writeBack _ => true
  | .forwardedRequest _ _ _ => true
  | .leaseRenewal _ _ => true
  | .reservationGrant _ => true
  | .rangeJoinMessage _ _ => true
  | .drainArrival _ _ => true
  | .budgetMessage _ _ => true
  | .budgetAck _ _ => true
  | .forcedDrainRequest _ _ => true
  | .drainAck _ _ => true
  | .pantrySwitchEnd _ _ => true
  | .trackingPeriodEnd _ => true
  | .crateMoveComplete _ => true
  | .transferCompletion _ => true
  | .faultWindowClose _ => true
  | .faultListReadyClear _ => true
  | .kgroupComplete _ => true
  | .matrixCommandComplete _ => true
  | .rowStage _ => true
  | .rowCommit _ => true
  | .leaseHandoff _ => true
  | .stopGo _ _ => true
  | .stopResume _ => true
  | .stopLanded _ => true
  | .stoplimExpiry _ => true
  | .checkpoint => true
  | .endrec => true
  | .replay => true
  | .abort => true
  | .kernelInstanceEnd _ => true
  | .publishGo _ => true
  | .publishComplete _ => true
  | .keyLoad _ _ => true
  | .attestation _ => true
  | .warmReset => true
  | .coldReset => true
  | .telemetryRecord _ => true
  | .registerWrite _ _ _ => true
  | .illegalOpcode _ _ => true
  | .stallCountSpent _ => true
  | _ => false

/-- A term that stands for an instruction unit of the device, in some vector mode. -/
def Instr.wf (i : Instr) : Bool := !i.isEvent && !i.fnFault && !i.resFault && i.pre.litOk

end Sys2Proof
end

