-- ==== Sys2Proof/Decode.lean ====
section
/-! DEFINITION. The decoder and the encoder of instruction units (02_encoding, R21 to R44, and the encoding line of each entry).
The compiled runtime has no tag for the later constructors of an inductive of 402 constructors: their words are checked by functions that
build no instruction, and built by `buildLate`, which is noncomputable for that one reason (it reduces in the kernel). -/
namespace Sys2Proof

/-- The decode faults of R43. -/
inductive Bad where
  | illegalOpcode
  | illegalFunction
  | reservedField
  | mode
  deriving DecidableEq, Repr

/-- The cause number of a decode fault (R43). -/
def Bad.cause : Bad → Byte
  | .illegalOpcode => 0x01#8
  | .illegalFunction => 0x02#8
  | .reservedField => 0x03#8
  | .mode => 0x0D#8

/-- Bits `hi` to `lo` of a word, as a number of `n` bits. -/
def fld (n lo : Nat) (w : IWord) : BitVec n := w.extractLsb' lo n

/-- Check the fields of a decoded base word in the order of R44: ILLEGAL_FUNCTION, RESERVED_FIELD, MODE. `z` are the bits that must be zero. -/
def checkWord (long : Bool) (z : IWord) (i : Instr) : Except Bad Instr :=
  if i.fnFault || (i.longOnly && !long) then .error .illegalFunction
  else if z != 0#32 || i.resFault then .error .reservedField
  else if i.modeFault long then .error .mode
  else .ok i

/-- The same order of checks for a word of a later opcode; none when it decodes. -/
def chk (z : IWord) (fn res mode : Bool) : Option Bad :=
  if fn then some .illegalFunction else if z != 0#32 || res then some .reservedField else if mode then some .mode else none

/-- The address-mode field of LDT, ACC and HINT (R201, R207): 0b01 and 0b10 raise ILLEGAL_FUNCTION, 0b11 is RESERVED_FIELD. -/
def amFn (w : IWord) : Bool := fld 2 7 w == 1#2 || fld 2 7 w == 2#2

/-- OP 0x01, ALU (R105). -/
def decAlu (long : Bool) (p : Pre) (w : IWord) : Except Bad Instr :=
  match (w &&& 0x7F#32).toNat with
  | 0x0 => checkWord long (w &&& 0x00000000#32) (.aluAdd p (fld 3 22 w) (fld 5 17 w) (fld 5 12 w) (fld 5 7 w))
  | 0x1 => checkWord long (w &&& 0x00000000#32) (.aluSub p (fld 3 22 w) (fld 5 17 w) (fld 5 12 w) (fld 5 7 w))
  | 0x2 => if p != Pre.none then .error .illegalFunction else checkWord long (w &&& 0x00000000#32) (.aluAnd (fld 3 22 w) (fld 5 17 w) (fld 5 12 w) (fld 5 7 w))
  | 0x3 => if p != Pre.none then .error .illegalFunction else checkWord long (w &&& 0x00000000#32) (.aluOr (fld 3 22 w) (fld 5 17 w) (fld 5 12 w) (fld 5 7 w))
  | 0x4 => if p != Pre.none then .error .illegalFunction else checkWord long (w &&& 0x00000000#32) (.aluXor (fld 3 22 w) (fld 5 17 w) (fld 5 12 w) (fld 5 7 w))
  | 0x5 => if p != Pre.none then .error .illegalFunction else checkWord long (w &&& 0x00000000#32) (.aluAndn (fld 3 22 w) (fld 5 17 w) (fld 5 12 w) (fld 5 7 w))
  | 0x6 => if p != Pre.none then .error .illegalFunction else checkWord long (w &&& 0x00000000#32) (.aluOrn (fld 3 22 w) (fld 5 17 w) (fld 5 12 w) (fld 5 7 w))
  | 0x7 => if p != Pre.none then .error .illegalFunction else checkWord long (w &&& 0x00000000#32) (.aluXnor (fld 3 22 w) (fld 5 17 w) (fld 5 12 w) (fld 5 7 w))
  | 0x8 => if p != Pre.none then .error .illegalFunction else checkWord long (w &&& 0x00000000#32) (.aluShl (fld 3 22 w) (fld 5 17 w) (fld 5 12 w) (fld 5 7 w))
  | 0x9 => if p != Pre.none then .error .illegalFunction else checkWord long (w &&& 0x00000000#32) (.aluShr (fld 3 22 w) (fld 5 17 w) (fld 5 12 w) (fld 5 7 w))
  | 0xA => if p != Pre.none then .error .illegalFunction else checkWord long (w &&& 0x00000000#32) (.aluSar (fld 3 22 w) (fld 5 17 w) (fld 5 12 w) (fld 5 7 w))
  | 0xB => if p != Pre.none then .error .illegalFunction else checkWord long (w &&& 0x00000000#32) (.aluRol (fld 3 22 w) (fld 5 17 w) (fld 5 12 w) (fld 5 7 w))
  | 0xC => if p != Pre.none then .error .illegalFunction else checkWord long (w &&& 0x00000000#32) (.aluRor (fld 3 22 w) (fld 5 17 w) (fld 5 12 w) (fld 5 7 w))
  | 0xD => if p != Pre.none then .error .illegalFunction else checkWord long (w &&& 0x00000000#32) (.aluSlt (fld 3 22 w) (fld 5 17 w) (fld 5 12 w) (fld 5 7 w))
  | 0xE => if p != Pre.none then .error .illegalFunction else checkWord long (w &&& 0x00000000#32) (.aluSltn (fld 3 22 w) (fld 5 17 w) (fld 5 12 w) (fld 5 7 w))
  | 0xF => if p != Pre.none then .error .illegalFunction else checkWord long (w &&& 0x00000000#32) (.aluMin (fld 3 22 w) (fld 5 17 w) (fld 5 12 w) (fld 5 7 w))
  | 0x10 => if p != Pre.none then .error .illegalFunction else checkWord long (w &&& 0x00000000#32) (.aluMax (fld 3 22 w) (fld 5 17 w) (fld 5 12 w) (fld 5 7 w))
  | 0x11 => if p != Pre.none then .error .illegalFunction else checkWord long (w &&& 0x00000000#32) (.aluMinn (fld 3 22 w) (fld 5 17 w) (fld 5 12 w) (fld 5 7 w))
  | 0x12 => if p != Pre.none then .error .illegalFunction else checkWord long (w &&& 0x00000000#32) (.aluMaxn (fld 3 22 w) (fld 5 17 w) (fld 5 12 w) (fld 5 7 w))
  | 0x13 => checkWord long (w &&& 0x00000000#32) (.aluAbsd p (fld 3 22 w) (fld 5 17 w) (fld 5 12 w) (fld 5 7 w))
  | _ => .error .illegalFunction

/-- OP 0x02, ALUW (R105). -/
def decAluw (long : Bool) (p : Pre) (w : IWord) : Except Bad Instr :=
  match (w &&& 0x7F#32).toNat with
  | 0x0 => checkWord long (w &&& 0x00000000#32) (.aluwAdd p (fld 3 22 w) (fld 5 17 w) (fld 5 12 w) (fld 5 7 w))
  | 0x1 => checkWord long (w &&& 0x00000000#32) (.aluwSub p (fld 3 22 w) (fld 5 17 w) (fld 5 12 w) (fld 5 7 w))
  | 0x2 => if p != Pre.none then .error .illegalFunction else checkWord long (w &&& 0x00000000#32) (.aluwAnd (fld 3 22 w) (fld 5 17 w) (fld 5 12 w) (fld 5 7 w))
  | 0x3 => if p != Pre.none then .error .illegalFunction else checkWord long (w &&& 0x00000000#32) (.aluwOr (fld 3 22 w) (fld 5 17 w) (fld 5 12 w) (fld 5 7 w))
  | 0x4 => if p != Pre.none then .error .illegalFunction else checkWord long (w &&& 0x00000000#32) (.aluwXor (fld 3 22 w) (fld 5 17 w) (fld 5 12 w) (fld 5 7 w))
  | 0x5 => if p != Pre.none then .error .illegalFunction else checkWord long (w &&& 0x00000000#32) (.aluwAndn (fld 3 22 w) (fld 5 17 w) (fld 5 12 w) (fld 5 7 w))
  | 0x6 => if p != Pre.none then .error .illegalFunction else checkWord long (w &&& 0x00000000#32) (.aluwOrn (fld 3 22 w) (fld 5 17 w) (fld 5 12 w) (fld 5 7 w))
  | 0x7 => if p != Pre.none then .error .illegalFunction else checkWord long (w &&& 0x00000000#32) (.aluwXnor (fld 3 22 w) (fld 5 17 w) (fld 5 12 w) (fld 5 7 w))
  | 0x8 => if p != Pre.none then .error .illegalFunction else checkWord long (w &&& 0x00000000#32) (.aluwShl (fld 3 22 w) (fld 5 17 w) (fld 5 12 w) (fld 5 7 w))
  | 0x9 => if p != Pre.none then .error .illegalFunction else checkWord long (w &&& 0x00000000#32) (.aluwShr (fld 3 22 w) (fld 5 17 w) (fld 5 12 w) (fld 5 7 w))
  | 0xA => if p != Pre.none then .error .illegalFunction else checkWord long (w &&& 0x00000000#32) (.aluwSar (fld 3 22 w) (fld 5 17 w) (fld 5 12 w) (fld 5 7 w))
  | 0xB => if p != Pre.none then .error .illegalFunction else checkWord long (w &&& 0x00000000#32) (.aluwRol (fld 3 22 w) (fld 5 17 w) (fld 5 12 w) (fld 5 7 w))
  | 0xC => if p != Pre.none then .error .illegalFunction else checkWord long (w &&& 0x00000000#32) (.aluwRor (fld 3 22 w) (fld 5 17 w) (fld 5 12 w) (fld 5 7 w))
  | 0xD => if p != Pre.none then .error .illegalFunction else checkWord long (w &&& 0x00000000#32) (.aluwSlt (fld 3 22 w) (fld 5 17 w) (fld 5 12 w) (fld 5 7 w))
  | 0xE => if p != Pre.none then .error .illegalFunction else checkWord long (w &&& 0x00000000#32) (.aluwSltn (fld 3 22 w) (fld 5 17 w) (fld 5 12 w) (fld 5 7 w))
  | 0xF => if p != Pre.none then .error .illegalFunction else checkWord long (w &&& 0x00000000#32) (.aluwMin (fld 3 22 w) (fld 5 17 w) (fld 5 12 w) (fld 5 7 w))
  | 0x10 => if p != Pre.none then .error .illegalFunction else checkWord long (w &&& 0x00000000#32) (.aluwMax (fld 3 22 w) (fld 5 17 w) (fld 5 12 w) (fld 5 7 w))
  | 0x11 => if p != Pre.none then .error .illegalFunction else checkWord long (w &&& 0x00000000#32) (.aluwMinn (fld 3 22 w) (fld 5 17 w) (fld 5 12 w) (fld 5 7 w))
  | 0x12 => if p != Pre.none then .error .illegalFunction else checkWord long (w &&& 0x00000000#32) (.aluwMaxn (fld 3 22 w) (fld 5 17 w) (fld 5 12 w) (fld 5 7 w))
  | 0x13 => checkWord long (w &&& 0x00000000#32) (.aluwAbsd p (fld 3 22 w) (fld 5 17 w) (fld 5 12 w) (fld 5 7 w))
  | _ => .error .illegalFunction

/-- OP 0x03, MUL (R106). -/
def decMul (long : Bool) (p : Pre) (w : IWord) : Except Bad Instr :=
  match (w &&& 0x7F#32).toNat with
  | 0x0 => checkWord long (w &&& 0x00000000#32) (.mulLo p (fld 3 22 w) (fld 5 17 w) (fld 5 12 w) (fld 5 7 w))
  | 0x1 => if p != Pre.none then .error .illegalFunction else checkWord long (w &&& 0x00000000#32) (.mulHi (fld 3 22 w) (fld 5 17 w) (fld 5 12 w) (fld 5 7 w))
  | 0x2 => if p != Pre.none then .error .illegalFunction else checkWord long (w &&& 0x00000000#32) (.mulHin (fld 3 22 w) (fld 5 17 w) (fld 5 12 w) (fld 5 7 w))
  | 0x3 => if p != Pre.none then .error .illegalFunction else checkWord long (w &&& 0x00000000#32) (.mulHisn (fld 3 22 w) (fld 5 17 w) (fld 5 12 w) (fld 5 7 w))
  | 0x4 => checkWord long (w &&& 0x00000000#32) (.mulW p (fld 3 22 w) (fld 5 17 w) (fld 5 12 w) (fld 5 7 w))
  | 0x5 => if p != Pre.none then .error .illegalFunction else checkWord long (w &&& 0x00000000#32) (.mulWn (fld 3 22 w) (fld 5 17 w) (fld 5 12 w) (fld 5 7 w))
  | _ => .error .illegalFunction

/-- OP 0x04, DIV (R107). -/
def decDiv (long : Bool) (p : Pre) (w : IWord) : Except Bad Instr :=
  if p != Pre.none then .error .illegalFunction else match (w &&& 0x7F#32).toNat with
  | 0x0 => checkWord long (w &&& 0x00000000#32) (.divQ (fld 3 22 w) (fld 5 17 w) (fld 5 12 w) (fld 5 7 w))
  | 0x1 => checkWord long (w &&& 0x00000000#32) (.divQn (fld 3 22 w) (fld 5 17 w) (fld 5 12 w) (fld 5 7 w))
  | 0x2 => checkWord long (w &&& 0x00000000#32) (.divRem (fld 3 22 w) (fld 5 17 w) (fld 5 12 w) (fld 5 7 w))
  | 0x3 => checkWord long (w &&& 0x00000000#32) (.divRemn (fld 3 22 w) (fld 5 17 w) (fld 5 12 w) (fld 5 7 w))
  | 0x4 => checkWord long (w &&& 0x00000000#32) (.divQw (fld 3 22 w) (fld 5 17 w) (fld 5 12 w) (fld 5 7 w))
  | 0x5 => checkWord long (w &&& 0x00000000#32) (.divQnw (fld 3 22 w) (fld 5 17 w) (fld 5 12 w) (fld 5 7 w))
  | 0x6 => checkWord long (w &&& 0x00000000#32) (.divRemw (fld 3 22 w) (fld 5 17 w) (fld 5 12 w) (fld 5 7 w))
  | 0x7 => checkWord long (w &&& 0x00000000#32) (.divRemnw (fld 3 22 w) (fld 5 17 w) (fld 5 12 w) (fld 5 7 w))
  | _ => .error .illegalFunction

/-- OP 0x05, BIT (R108). -/
def decBit (long : Bool) (p : Pre) (w : IWord) : Except Bad Instr :=
  if p != Pre.none then .error .illegalFunction else match (w &&& 0x7F#32).toNat with
  | 0x0 => checkWord long (w &&& 0x00000F80#32) (.bitClz (fld 3 22 w) (fld 5 17 w) (fld 5 12 w))
  | 0x1 => checkWord long (w &&& 0x00000F80#32) (.bitCtz (fld 3 22 w) (fld 5 17 w) (fld 5 12 w))
  | 0x2 => checkWord long (w &&& 0x00000F80#32) (.bitPopc (fld 3 22 w) (fld 5 17 w) (fld 5 12 w))
  | 0x3 => checkWord long (w &&& 0x00000F80#32) (.bitBrev (fld 3 22 w) (fld 5 17 w) (fld 5 12 w))
  | 0x4 => checkWord long (w &&& 0x00000F80#32) (.bitBswap (fld 3 22 w) (fld 5 17 w) (fld 5 12 w))
  | 0x5 => checkWord long (w &&& 0x00000F80#32) (.bitSext8 (fld 3 22 w) (fld 5 17 w) (fld 5 12 w))
  | 0x6 => checkWord long (w &&& 0x00000F80#32) (.bitSext16 (fld 3 22 w) (fld 5 17 w) (fld 5 12 w))
  | 0x7 => checkWord long (w &&& 0x00000F80#32) (.bitSext32 (fld 3 22 w) (fld 5 17 w) (fld 5 12 w))
  | 0x8 => checkWord long (w &&& 0x00000F80#32) (.bitZext8 (fld 3 22 w) (fld 5 17 w) (fld 5 12 w))
  | 0x9 => checkWord long (w &&& 0x00000F80#32) (.bitZext16 (fld 3 22 w) (fld 5 17 w) (fld 5 12 w))
  | 0xA => checkWord long (w &&& 0x00000F80#32) (.bitZext32 (fld 3 22 w) (fld 5 17 w) (fld 5 12 w))
  | 0xB => checkWord long (w &&& 0x00000000#32) (.bitExtr (fld 3 22 w) (fld 5 17 w) (fld 5 12 w) (fld 5 7 w))
  | 0xC => checkWord long (w &&& 0x00000000#32) (.bitExtrn (fld 3 22 w) (fld 5 17 w) (fld 5 12 w) (fld 5 7 w))
  | 0xD => checkWord long (w &&& 0x00000000#32) (.bitDep (fld 3 22 w) (fld 5 17 w) (fld 5 12 w) (fld 5 7 w))
  | _ => .error .illegalFunction

/-- OP 0x06, ADDI (R110). -/
def decAddi (long : Bool) (p : Pre) (w : IWord) : Except Bad Instr :=
  if p != Pre.none then .error .illegalFunction else checkWord long (w &&& 0x00000000#32) (.addi (fld 3 22 w) (fld 5 17 w) (fld 5 12 w) (fld 12 0 w))

/-- OP 0x07, ANDI (R110). -/
def decAndi (long : Bool) (p : Pre) (w : IWord) : Except Bad Instr :=
  if p != Pre.none then .error .illegalFunction else checkWord long (w &&& 0x00000000#32) (.andi (fld 3 22 w) (fld 5 17 w) (fld 5 12 w) (fld 12 0 w))

/-- OP 0x08, ORI (R110). -/
def decOri (long : Bool) (p : Pre) (w : IWord) : Except Bad Instr :=
  if p != Pre.none then .error .illegalFunction else checkWord long (w &&& 0x00000000#32) (.ori (fld 3 22 w) (fld 5 17 w) (fld 5 12 w) (fld 12 0 w))

/-- OP 0x09, XORI (R110). -/
def decXori (long : Bool) (p : Pre) (w : IWord) : Except Bad Instr :=
  if p != Pre.none then .error .illegalFunction else checkWord long (w &&& 0x00000000#32) (.xori (fld 3 22 w) (fld 5 17 w) (fld 5 12 w) (fld 12 0 w))

/-- OP 0x0A, SHI (R111). -/
def decShi (long : Bool) (p : Pre) (w : IWord) : Except Bad Instr :=
  if p != Pre.none then .error .illegalFunction else match (w &&& 0xC00#32).toNat with
  | 0x0 => checkWord long (w &&& 0x000001C0#32) (.shiShl (fld 3 22 w) (fld 5 17 w) (fld 5 12 w) (fld 1 9 w) (fld 6 0 w))
  | 0x400 => checkWord long (w &&& 0x000001C0#32) (.shiShr (fld 3 22 w) (fld 5 17 w) (fld 5 12 w) (fld 1 9 w) (fld 6 0 w))
  | 0x800 => checkWord long (w &&& 0x000001C0#32) (.shiSar (fld 3 22 w) (fld 5 17 w) (fld 5 12 w) (fld 1 9 w) (fld 6 0 w))
  | 0xC00 => checkWord long (w &&& 0x000001C0#32) (.shiRor (fld 3 22 w) (fld 5 17 w) (fld 5 12 w) (fld 1 9 w) (fld 6 0 w))
  | _ => .error .illegalFunction

/-- OP 0x0B, SLTI (R110). -/
def decSlti (long : Bool) (p : Pre) (w : IWord) : Except Bad Instr :=
  if p != Pre.none then .error .illegalFunction else checkWord long (w &&& 0x00000000#32) (.slti (fld 3 22 w) (fld 5 17 w) (fld 5 12 w) (fld 12 0 w))

/-- OP 0x0C, SLTIN (R110). -/
def decSltin (long : Bool) (p : Pre) (w : IWord) : Except Bad Instr :=
  if p != Pre.none then .error .illegalFunction else checkWord long (w &&& 0x00000000#32) (.sltin (fld 3 22 w) (fld 5 17 w) (fld 5 12 w) (fld 12 0 w))

/-- OP 0x0D, ADPC (R113). -/
def decAdpc (long : Bool) (p : Pre) (w : IWord) : Except Bad Instr :=
  if p != Pre.none then .error .illegalFunction else checkWord long (w &&& 0x00000000#32) (.adpc (fld 3 22 w) (fld 5 17 w) (fld 17 0 w))

/-- OP 0x0E, CMOV (R109). -/
def decCmov (long : Bool) (p : Pre) (w : IWord) : Except Bad Instr :=
  match (w &&& 0x7F#32).toNat with
  | 0x0 => checkWord long (w &&& 0x00000000#32) (.cmovNz p (fld 3 22 w) (fld 5 17 w) (fld 5 12 w) (fld 5 7 w))
  | 0x1 => checkWord long (w &&& 0x00000000#32) (.cmovZ p (fld 3 22 w) (fld 5 17 w) (fld 5 12 w) (fld 5 7 w))
  | 0x2 => checkWord long (w &&& 0x00000000#32) (.cmovLt p (fld 3 22 w) (fld 5 17 w) (fld 5 12 w) (fld 5 7 w))
  | 0x3 => checkWord long (w &&& 0x00000000#32) (.cmovGe p (fld 3 22 w) (fld 5 17 w) (fld 5 12 w) (fld 5 7 w))
  | _ => .error .illegalFunction

/-- OP 0x0F, LIL (R112). -/
def decLil (long : Bool) (p : Pre) (w : IWord) (lit : IWord) : Except Bad Instr :=
  if p != Pre.none then .error .illegalFunction else checkWord long (w &&& 0x0001FFFF#32) (.lil (fld 3 22 w) (fld 5 17 w) lit)

/-- OP 0x10, LIH (R112). -/
def decLih (long : Bool) (p : Pre) (w : IWord) (lit : IWord) : Except Bad Instr :=
  if p != Pre.none then .error .illegalFunction else checkWord long (w &&& 0x0001FFFF#32) (.lih (fld 3 22 w) (fld 5 17 w) lit)

/-- OP 0x11, BEQ (R114). -/
def decBeq (long : Bool) (p : Pre) (w : IWord) : Except Bad Instr :=
  if p != Pre.none then .error .illegalFunction else checkWord long (w &&& 0x00000000#32) (.beq (fld 3 22 w) (fld 5 17 w) (fld 5 12 w) (fld 12 0 w))

/-- OP 0x12, BNE (R114). -/
def decBne (long : Bool) (p : Pre) (w : IWord) : Except Bad Instr :=
  if p != Pre.none then .error .illegalFunction else checkWord long (w &&& 0x00000000#32) (.bne (fld 3 22 w) (fld 5 17 w) (fld 5 12 w) (fld 12 0 w))

/-- OP 0x13, BLT (R114). -/
def decBlt (long : Bool) (p : Pre) (w : IWord) : Except Bad Instr :=
  if p != Pre.none then .error .illegalFunction else checkWord long (w &&& 0x00000000#32) (.blt (fld 3 22 w) (fld 5 17 w) (fld 5 12 w) (fld 12 0 w))

/-- OP 0x14, BGE (R114). -/
def decBge (long : Bool) (p : Pre) (w : IWord) : Except Bad Instr :=
  if p != Pre.none then .error .illegalFunction else checkWord long (w &&& 0x00000000#32) (.bge (fld 3 22 w) (fld 5 17 w) (fld 5 12 w) (fld 12 0 w))

/-- OP 0x15, BLTN (R114). -/
def decBltn (long : Bool) (p : Pre) (w : IWord) : Except Bad Instr :=
  if p != Pre.none then .error .illegalFunction else checkWord long (w &&& 0x00000000#32) (.bltn (fld 3 22 w) (fld 5 17 w) (fld 5 12 w) (fld 12 0 w))

/-- OP 0x16, BGEN (R114). -/
def decBgen (long : Bool) (p : Pre) (w : IWord) : Except Bad Instr :=
  if p != Pre.none then .error .illegalFunction else checkWord long (w &&& 0x00000000#32) (.bgen (fld 3 22 w) (fld 5 17 w) (fld 5 12 w) (fld 12 0 w))

/-- OP 0x17, JAL (R116). -/
def decJal (long : Bool) (p : Pre) (w : IWord) : Except Bad Instr :=
  if p != Pre.none then .error .illegalFunction else checkWord long (w &&& 0x00000000#32) (.jal (fld 3 22 w) (fld 5 17 w) (fld 17 0 w))

/-- OP 0x18, JALR (R117). -/
def decJalr (long : Bool) (p : Pre) (w : IWord) : Except Bad Instr :=
  if p != Pre.none then .error .illegalFunction else checkWord long (w &&& 0x00000000#32) (.jalr (fld 3 22 w) (fld 5 17 w) (fld 5 12 w) (fld 12 0 w))

/-- OP 0x19, RPT (R118). -/
def decRpt (long : Bool) (p : Pre) (w : IWord) : Except Bad Instr :=
  if p != Pre.none then .error .illegalFunction else checkWord long (w &&& 0x00000000#32) (.rpt (fld 3 22 w) (fld 5 17 w) (fld 4 13 w) (fld 4 9 w) (fld 4 5 w) (fld 4 1 w) (fld 1 0 w))

/-- OP 0x1A, NOP (R120, R121, R122, R123). -/
def decNop (long : Bool) (p : Pre) (w : IWord) : Except Bad Instr :=
  if p != Pre.none then .error .illegalFunction else match (w &&& 0x7F#32).toNat with
  | 0x0 => checkWord long (w &&& 0x003FFF80#32) (.nop (fld 3 22 w))
  | 0x1 => checkWord long (w &&& 0x00000000#32) (.srd (fld 3 22 w) (fld 5 17 w) (fld 10 7 w))
  | 0x2 => checkWord long (w &&& 0x00000000#32) (.swr (fld 3 22 w) (fld 5 17 w) (fld 10 7 w))
  | 0x3 => checkWord long (w &&& 0x003E0000#32) (.trap (fld 3 22 w) (fld 10 7 w))
  | 0x4 => checkWord long (w &&& 0x003E0000#32) (.brk (fld 3 22 w) (fld 10 7 w))
  | 0x5 => checkWord long (w &&& 0x003FFF80#32) (.eret (fld 3 22 w))
  | 0x6 => checkWord long (w &&& 0x003FFF80#32) (.yield (fld 3 22 w))
  | 0x7 => checkWord long (w &&& 0x0001F000#32) (.getid (fld 3 22 w) (fld 5 17 w) (fld 5 7 w))
  | _ => .error .illegalFunction

/-- OP 0x1B, PUBF (R157). -/
def decPubf (long : Bool) (p : Pre) (w : IWord) : Except Bad Instr :=
  if p != Pre.none then .error .illegalFunction else match (w &&& 0x78#32).toNat with
  | 0x0 => checkWord long (w &&& 0x003E0000#32) (.pubf (fld 3 22 w) (fld 5 12 w) (fld 5 7 w) (fld 3 0 w))
  | _ => .error .illegalFunction

/-- OP 0x1C, LOOP (R115). -/
def decLoop (long : Bool) (p : Pre) (w : IWord) : Except Bad Instr :=
  if p != Pre.none then .error .illegalFunction else checkWord long (w &&& 0x00000000#32) (.loop (fld 3 22 w) (fld 5 17 w) (fld 5 12 w) (fld 12 0 w))

/-- OP 0x1D, DONE (R124). -/
def decDone (long : Bool) (p : Pre) (w : IWord) : Except Bad Instr :=
  if p != Pre.none then .error .illegalFunction else match (w &&& 0x7F#32).toNat with
  | 0x0 => checkWord long (w &&& 0x003FFF80#32) (.done (fld 3 22 w))
  | 0x1 => checkWord long (w &&& 0x003E0F80#32) (.doneDec (fld 3 22 w) (fld 5 12 w))
  | _ => .error .illegalFunction

/-- OP 0x1E, ACTQ (R125). -/
def decActq (long : Bool) (p : Pre) (w : IWord) : Except Bad Instr :=
  if p != Pre.none then .error .illegalFunction else match (w &&& 0x7F#32).toNat with
  | 0x0 => checkWord long (w &&& 0x0001FF80#32) (.actqEntry (fld 3 22 w) (fld 5 17 w))
  | 0x1 => checkWord long (w &&& 0x0001FF80#32) (.actqKind (fld 3 22 w) (fld 5 17 w))
  | 0x2 => checkWord long (w &&& 0x0001FF80#32) (.actqSendt (fld 3 22 w) (fld 5 17 w))
  | 0x3 => checkWord long (w &&& 0x0001FF80#32) (.actqArrt (fld 3 22 w) (fld 5 17 w))
  | 0x4 => checkWord long (w &&& 0x0001FF80#32) (.actqStartt (fld 3 22 w) (fld 5 17 w))
  | 0x5 => checkWord long (w &&& 0x00000F80#32) (.actqPend (fld 3 22 w) (fld 5 17 w) (fld 5 12 w))
  | 0x6 => checkWord long (w &&& 0x0001FF80#32) (.actqDeq (fld 3 22 w) (fld 5 17 w))
  | _ => .error .illegalFunction

/-- OP 0x20, VADDI (R133). -/
def decVaddi (long : Bool) (p : Pre) (w : IWord) : Except Bad Instr :=
  match (w &&& 0xF#32).toNat with
  | 0x0 => checkWord long (w &&& 0x00000000#32) (.vaddiAdd p (fld 3 22 w) (fld 5 17 w) (fld 5 12 w) (fld 5 7 w) (fld 3 4 w))
  | 0x1 => checkWord long (w &&& 0x00000000#32) (.vaddiSub p (fld 3 22 w) (fld 5 17 w) (fld 5 12 w) (fld 5 7 w) (fld 3 4 w))
  | 0x2 => checkWord long (w &&& 0x00000000#32) (.vaddiMin p (fld 3 22 w) (fld 5 17 w) (fld 5 12 w) (fld 5 7 w) (fld 3 4 w))
  | 0x3 => checkWord long (w &&& 0x00000000#32) (.vaddiMax p (fld 3 22 w) (fld 5 17 w) (fld 5 12 w) (fld 5 7 w) (fld 3 4 w))
  | 0x4 => checkWord long (w &&& 0x00000000#32) (.vaddiAbsd p (fld 3 22 w) (fld 5 17 w) (fld 5 12 w) (fld 5 7 w) (fld 3 4 w))
  | 0x5 => checkWord long (w &&& 0x00000000#32) (.vaddiAvg p (fld 3 22 w) (fld 5 17 w) (fld 5 12 w) (fld 5 7 w) (fld 3 4 w))
  | 0x6 => checkWord long (w &&& 0x00000F80#32) (.vaddiNeg p (fld 3 22 w) (fld 5 17 w) (fld 5 12 w) (fld 3 4 w))
  | 0x7 => checkWord long (w &&& 0x00000F80#32) (.vaddiAbs p (fld 3 22 w) (fld 5 17 w) (fld 5 12 w) (fld 3 4 w))
  | _ => .error .illegalFunction

/-- OP 0x21, VLOGI (R134). -/
def decVlogi (long : Bool) (p : Pre) (w : IWord) : Except Bad Instr :=
  match (w &&& 0xF#32).toNat with
  | 0x0 => checkWord long (w &&& 0x00000000#32) (.vlogiAnd p (fld 3 22 w) (fld 5 17 w) (fld 5 12 w) (fld 5 7 w) (fld 3 4 w))
  | 0x1 => checkWord long (w &&& 0x00000000#32) (.vlogiOr p (fld 3 22 w) (fld 5 17 w) (fld 5 12 w) (fld 5 7 w) (fld 3 4 w))
  | 0x2 => checkWord long (w &&& 0x00000000#32) (.vlogiXor p (fld 3 22 w) (fld 5 17 w) (fld 5 12 w) (fld 5 7 w) (fld 3 4 w))
  | 0x3 => checkWord long (w &&& 0x00000000#32) (.vlogiAndn p (fld 3 22 w) (fld 5 17 w) (fld 5 12 w) (fld 5 7 w) (fld 3 4 w))
  | 0x4 => checkWord long (w &&& 0x00000000#32) (.vlogiShl p (fld 3 22 w) (fld 5 17 w) (fld 5 12 w) (fld 5 7 w) (fld 3 4 w))
  | 0x5 => checkWord long (w &&& 0x00000000#32) (.vlogiShr p (fld 3 22 w) (fld 5 17 w) (fld 5 12 w) (fld 5 7 w) (fld 3 4 w))
  | 0x6 => checkWord long (w &&& 0x00000000#32) (.vlogiSar p (fld 3 22 w) (fld 5 17 w) (fld 5 12 w) (fld 5 7 w) (fld 3 4 w))
  | 0x7 => checkWord long (w &&& 0x00000000#32) (.vlogiRol p (fld 3 22 w) (fld 5 17 w) (fld 5 12 w) (fld 5 7 w) (fld 3 4 w))
  | 0x8 => checkWord long (w &&& 0x00000000#32) (.vlogiRor p (fld 3 22 w) (fld 5 17 w) (fld 5 12 w) (fld 5 7 w) (fld 3 4 w))
  | 0x9 => checkWord long (w &&& 0x00000F80#32) (.vlogiNot p (fld 3 22 w) (fld 5 17 w) (fld 5 12 w) (fld 3 4 w))
  | 0xA => checkWord long (w &&& 0x00000F80#32) (.vlogiPopc p (fld 3 22 w) (fld 5 17 w) (fld 5 12 w) (fld 3 4 w))
  | 0xB => checkWord long (w &&& 0x00000F80#32) (.vlogiClz p (fld 3 22 w) (fld 5 17 w) (fld 5 12 w) (fld 3 4 w))
  | _ => .error .illegalFunction

/-- OP 0x22, VMULI (R135). -/
def decVmuli (long : Bool) (p : Pre) (w : IWord) : Except Bad Instr :=
  match (w &&& 0xF#32).toNat with
  | 0x0 => checkWord long (w &&& 0x00000000#32) (.vmuliLo p (fld 3 22 w) (fld 5 17 w) (fld 5 12 w) (fld 5 7 w) (fld 3 4 w))
  | 0x1 => checkWord long (w &&& 0x00000000#32) (.vmuliHi p (fld 3 22 w) (fld 5 17 w) (fld 5 12 w) (fld 5 7 w) (fld 3 4 w))
  | 0x2 => checkWord long (w &&& 0x00000000#32) (.vmuliMac p (fld 3 22 w) (fld 5 17 w) (fld 5 12 w) (fld 5 7 w) (fld 3 4 w))
  | 0x3 => checkWord long (w &&& 0x00000000#32) (.vmuliMsb p (fld 3 22 w) (fld 5 17 w) (fld 5 12 w) (fld 5 7 w) (fld 3 4 w))
  | _ => .error .illegalFunction

/-- OP 0x23, VCMPI (R136). -/
def decVcmpi (long : Bool) (p : Pre) (w : IWord) : Except Bad Instr :=
  match (w &&& 0xF#32).toNat with
  | 0x0 => checkWord long (w &&& 0x00000000#32) (.vcmpiEq p (fld 3 22 w) (fld 5 17 w) (fld 5 12 w) (fld 5 7 w) (fld 3 4 w))
  | 0x1 => checkWord long (w &&& 0x00000000#32) (.vcmpiNe p (fld 3 22 w) (fld 5 17 w) (fld 5 12 w) (fld 5 7 w) (fld 3 4 w))
  | 0x2 => checkWord long (w &&& 0x00000000#32) (.vcmpiLt p (fld 3 22 w) (fld 5 17 w) (fld 5 12 w) (fld 5 7 w) (fld 3 4 w))
  | 0x3 => checkWord long (w &&& 0x00000000#32) (.vcmpiLe p (fld 3 22 w) (fld 5 17 w) (fld 5 12 w) (fld 5 7 w) (fld 3 4 w))
  | 0x4 => checkWord long (w &&& 0x00000000#32) (.vcmpiGt p (fld 3 22 w) (fld 5 17 w) (fld 5 12 w) (fld 5 7 w) (fld 3 4 w))
  | 0x5 => checkWord long (w &&& 0x00000000#32) (.vcmpiGe p (fld 3 22 w) (fld 5 17 w) (fld 5 12 w) (fld 5 7 w) (fld 3 4 w))
  | _ => .error .illegalFunction

/-- OP 0x24, VADDF (R137). -/
def decVaddf (long : Bool) (p : Pre) (w : IWord) : Except Bad Instr :=
  match (w &&& 0xF#32).toNat with
  | 0x0 => checkWord long (w &&& 0x00000000#32) (.vaddfAdd p (fld 3 22 w) (fld 5 17 w) (fld 5 12 w) (fld 5 7 w) (fld 3 4 w))
  | 0x1 => checkWord long (w &&& 0x00000000#32) (.vaddfSub p (fld 3 22 w) (fld 5 17 w) (fld 5 12 w) (fld 5 7 w) (fld 3 4 w))
  | 0x2 => checkWord long (w &&& 0x00000000#32) (.vaddfMin p (fld 3 22 w) (fld 5 17 w) (fld 5 12 w) (fld 5 7 w) (fld 3 4 w))
  | 0x3 => checkWord long (w &&& 0x00000000#32) (.vaddfMax p (fld 3 22 w) (fld 5 17 w) (fld 5 12 w) (fld 5 7 w) (fld 3 4 w))
  | _ => .error .illegalFunction

/-- OP 0x25, VMULF (R138). -/
def decVmulf (long : Bool) (p : Pre) (w : IWord) : Except Bad Instr :=
  match (w &&& 0xF#32).toNat with
  | 0x0 => checkWord long (w &&& 0x00000000#32) (.vmulfMul p (fld 3 22 w) (fld 5 17 w) (fld 5 12 w) (fld 5 7 w) (fld 3 4 w))
  | 0x1 => checkWord long (w &&& 0x00000000#32) (.vmulfFma p (fld 3 22 w) (fld 5 17 w) (fld 5 12 w) (fld 5 7 w) (fld 3 4 w))
  | 0x2 => checkWord long (w &&& 0x00000000#32) (.vmulfFms p (fld 3 22 w) (fld 5 17 w) (fld 5 12 w) (fld 5 7 w) (fld 3 4 w))
  | _ => .error .illegalFunction

/-- OP 0x26, VCMPF (R139). -/
def decVcmpf (long : Bool) (p : Pre) (w : IWord) : Except Bad Instr :=
  match (w &&& 0xF#32).toNat with
  | 0x0 => checkWord long (w &&& 0x00000000#32) (.vcmpfEq p (fld 3 22 w) (fld 5 17 w) (fld 5 12 w) (fld 5 7 w) (fld 3 4 w))
  | 0x1 => checkWord long (w &&& 0x00000000#32) (.vcmpfNe p (fld 3 22 w) (fld 5 17 w) (fld 5 12 w) (fld 5 7 w) (fld 3 4 w))
  | 0x2 => checkWord long (w &&& 0x00000000#32) (.vcmpfLt p (fld 3 22 w) (fld 5 17 w) (fld 5 12 w) (fld 5 7 w) (fld 3 4 w))
  | 0x3 => checkWord long (w &&& 0x00000000#32) (.vcmpfLe p (fld 3 22 w) (fld 5 17 w) (fld 5 12 w) (fld 5 7 w) (fld 3 4 w))
  | 0x4 => checkWord long (w &&& 0x00000000#32) (.vcmpfGt p (fld 3 22 w) (fld 5 17 w) (fld 5 12 w) (fld 5 7 w) (fld 3 4 w))
  | 0x5 => checkWord long (w &&& 0x00000000#32) (.vcmpfGe p (fld 3 22 w) (fld 5 17 w) (fld 5 12 w) (fld 5 7 w) (fld 3 4 w))
  | 0x6 => checkWord long (w &&& 0x00000000#32) (.vcmpfUn p (fld 3 22 w) (fld 5 17 w) (fld 5 12 w) (fld 5 7 w) (fld 3 4 w))
  | _ => .error .illegalFunction

/-- OP 0x27, VDOT (R140). -/
def decVdot (long : Bool) (p : Pre) (w : IWord) : Except Bad Instr :=
  match (w &&& 0xF#32).toNat with
  | 0x0 => checkWord long (w &&& 0x00000000#32) (.vdot p (fld 3 22 w) (fld 5 17 w) (fld 5 12 w) (fld 5 7 w) (fld 3 4 w))
  | 0x1 => checkWord long (w &&& 0x00000000#32) (.vdotAcc p (fld 3 22 w) (fld 5 17 w) (fld 5 12 w) (fld 5 7 w) (fld 3 4 w))
  | 0x2 => checkWord long (w &&& 0x00000070#32) (.vdotI8 p (fld 3 22 w) (fld 5 17 w) (fld 5 12 w) (fld 5 7 w))
  | 0x3 => checkWord long (w &&& 0x00000070#32) (.vdotAccI8 p (fld 3 22 w) (fld 5 17 w) (fld 5 12 w) (fld 5 7 w))
  | 0x4 => checkWord long (w &&& 0x00000070#32) (.vdotI4 p (fld 3 22 w) (fld 5 17 w) (fld 5 12 w) (fld 5 7 w))
  | 0x5 => checkWord long (w &&& 0x00000070#32) (.vdotAccI4 p (fld 3 22 w) (fld 5 17 w) (fld 5 12 w) (fld 5 7 w))
  | _ => .error .illegalFunction

/-- OP 0x28, VCVT (R142). -/
def decVcvt (long : Bool) (p : Pre) (w : IWord) : Except Bad Instr :=
  checkWord long (w &&& 0x00000004#32) (.vcvt p (fld 3 22 w) (fld 5 17 w) (fld 5 12 w) (fld 1 11 w) (fld 1 10 w) (fld 3 7 w) (fld 3 4 w) (fld 1 3 w) (fld 2 0 w))

/-- OP 0x29, VSFU (R143). -/
def decVsfu (long : Bool) (p : Pre) (w : IWord) : Except Bad Instr :=
  match (w &&& 0xF#32).toNat with
  | 0x0 => checkWord long (w &&& 0x00000F80#32) (.vsfuRcp p (fld 3 22 w) (fld 5 17 w) (fld 5 12 w) (fld 3 4 w))
  | 0x1 => checkWord long (w &&& 0x00000F80#32) (.vsfuRsqrt p (fld 3 22 w) (fld 5 17 w) (fld 5 12 w) (fld 3 4 w))
  | 0x2 => checkWord long (w &&& 0x00000F80#32) (.vsfuSqrt p (fld 3 22 w) (fld 5 17 w) (fld 5 12 w) (fld 3 4 w))
  | 0x3 => checkWord long (w &&& 0x00000F80#32) (.vsfuExp2 p (fld 3 22 w) (fld 5 17 w) (fld 5 12 w) (fld 3 4 w))
  | 0x4 => checkWord long (w &&& 0x00000F80#32) (.vsfuLog2 p (fld 3 22 w) (fld 5 17 w) (fld 5 12 w) (fld 3 4 w))
  | 0x5 => checkWord long (w &&& 0x00000F80#32) (.vsfuExp p (fld 3 22 w) (fld 5 17 w) (fld 5 12 w) (fld 3 4 w))
  | 0x6 => checkWord long (w &&& 0x00000F80#32) (.vsfuLn p (fld 3 22 w) (fld 5 17 w) (fld 5 12 w) (fld 3 4 w))
  | 0x7 => checkWord long (w &&& 0x00000F80#32) (.vsfuSinpi p (fld 3 22 w) (fld 5 17 w) (fld 5 12 w) (fld 3 4 w))
  | 0x8 => checkWord long (w &&& 0x00000F80#32) (.vsfuCospi p (fld 3 22 w) (fld 5 17 w) (fld 5 12 w) (fld 3 4 w))
  | 0x9 => checkWord long (w &&& 0x00000F80#32) (.vsfuTanh p (fld 3 22 w) (fld 5 17 w) (fld 5 12 w) (fld 3 4 w))
  | 0xA => checkWord long (w &&& 0x00000F80#32) (.vsfuSigm p (fld 3 22 w) (fld 5 17 w) (fld 5 12 w) (fld 3 4 w))
  | 0xB => checkWord long (w &&& 0x00000F80#32) (.vsfuSilu p (fld 3 22 w) (fld 5 17 w) (fld 5 12 w) (fld 3 4 w))
  | _ => .error .illegalFunction

/-- OP 0x2A, VRED (R144). -/
def decVred (long : Bool) (p : Pre) (w : IWord) : Except Bad Instr :=
  match (w &&& 0xF#32).toNat with
  | 0x0 => checkWord long (w &&& 0x00000F80#32) (.vredSum p (fld 3 22 w) (fld 5 17 w) (fld 5 12 w) (fld 3 4 w))
  | 0x1 => checkWord long (w &&& 0x00000F80#32) (.vredMax p (fld 3 22 w) (fld 5 17 w) (fld 5 12 w) (fld 3 4 w))
  | 0x2 => checkWord long (w &&& 0x00000F80#32) (.vredMin p (fld 3 22 w) (fld 5 17 w) (fld 5 12 w) (fld 3 4 w))
  | 0x3 => checkWord long (w &&& 0x00000C70#32) (.vredSumi p (fld 3 22 w) (fld 5 17 w) (fld 5 12 w) (fld 3 7 w))
  | 0x4 => checkWord long (w &&& 0x00000C70#32) (.vredMaxi p (fld 3 22 w) (fld 5 17 w) (fld 5 12 w) (fld 3 7 w))
  | 0x5 => checkWord long (w &&& 0x00000C70#32) (.vredMini p (fld 3 22 w) (fld 5 17 w) (fld 5 12 w) (fld 3 7 w))
  | 0x6 => checkWord long (w &&& 0x00000C70#32) (.vredAndi p (fld 3 22 w) (fld 5 17 w) (fld 5 12 w) (fld 3 7 w))
  | 0x7 => checkWord long (w &&& 0x00000C70#32) (.vredOri p (fld 3 22 w) (fld 5 17 w) (fld 5 12 w) (fld 3 7 w))
  | 0x8 => checkWord long (w &&& 0x00000C70#32) (.vredXori p (fld 3 22 w) (fld 5 17 w) (fld 5 12 w) (fld 3 7 w))
  | _ => .error .illegalFunction

/-- OP 0x2B, VPERM (R145). -/
def decVperm (long : Bool) (p : Pre) (w : IWord) : Except Bad Instr :=
  match (w &&& 0xF#32).toNat with
  | 0x0 => checkWord long (w &&& 0x00000000#32) (.vpermTbl p (fld 3 22 w) (fld 5 17 w) (fld 5 12 w) (fld 5 7 w) (fld 3 4 w))
  | 0x1 => checkWord long (w &&& 0x00000000#32) (.vpermTbl2 p (fld 3 22 w) (fld 5 17 w) (fld 5 12 w) (fld 5 7 w) (fld 3 4 w))
  | 0x2 => checkWord long (w &&& 0x00000000#32) (.vpermBcast p (fld 3 22 w) (fld 5 17 w) (fld 5 12 w) (fld 5 7 w) (fld 3 4 w))
  | 0x3 => checkWord long (w &&& 0x00000000#32) (.vpermSlup p (fld 3 22 w) (fld 5 17 w) (fld 5 12 w) (fld 5 7 w) (fld 3 4 w))
  | 0x4 => checkWord long (w &&& 0x00000000#32) (.vpermSldn p (fld 3 22 w) (fld 5 17 w) (fld 5 12 w) (fld 5 7 w) (fld 3 4 w))
  | 0x5 => checkWord long (w &&& 0x00000000#32) (.vpermZiplo p (fld 3 22 w) (fld 5 17 w) (fld 5 12 w) (fld 5 7 w) (fld 3 4 w))
  | 0x6 => checkWord long (w &&& 0x00000000#32) (.vpermZiphi p (fld 3 22 w) (fld 5 17 w) (fld 5 12 w) (fld 5 7 w) (fld 3 4 w))
  | 0x7 => checkWord long (w &&& 0x00000000#32) (.vpermUnze p (fld 3 22 w) (fld 5 17 w) (fld 5 12 w) (fld 5 7 w) (fld 3 4 w))
  | 0x8 => checkWord long (w &&& 0x00000000#32) (.vpermUnzo p (fld 3 22 w) (fld 5 17 w) (fld 5 12 w) (fld 5 7 w) (fld 3 4 w))
  | 0x9 => checkWord long (w &&& 0x00000F80#32) (.vpermRev p (fld 3 22 w) (fld 5 17 w) (fld 5 12 w) (fld 3 4 w))
  | 0xA => checkWord long (w &&& 0x00000F80#32) (.vpermCmpr p (fld 3 22 w) (fld 5 17 w) (fld 5 12 w) (fld 3 4 w))
  | _ => .error .illegalFunction

/-- OP 0x2C, VMOV (R146). -/
def decVmov (long : Bool) (p : Pre) (w : IWord) : Except Bad Instr :=
  match (w &&& 0xF#32).toNat with
  | 0x0 => checkWord long (w &&& 0x00000F80#32) (.vmov p (fld 3 22 w) (fld 5 17 w) (fld 5 12 w) (fld 3 4 w))
  | 0x1 => checkWord long (w &&& 0x00000F80#32) (.vmovBcg p (fld 3 22 w) (fld 5 17 w) (fld 5 12 w) (fld 3 4 w))
  | 0x2 => checkWord long (w &&& 0x00000000#32) (.vmovInsg p (fld 3 22 w) (fld 5 17 w) (fld 5 12 w) (fld 5 7 w) (fld 3 4 w))
  | 0x3 => checkWord long (w &&& 0x00000000#32) (.vmovExtg p (fld 3 22 w) (fld 5 17 w) (fld 5 12 w) (fld 5 7 w) (fld 3 4 w))
  | 0x4 => checkWord long (w &&& 0x00000F80#32) (.vmovGetv p (fld 3 22 w) (fld 5 17 w) (fld 5 12 w) (fld 3 4 w))
  | 0x5 => checkWord long (w &&& 0x00000F80#32) (.vmovSetv p (fld 3 22 w) (fld 5 17 w) (fld 5 12 w) (fld 3 4 w))
  | _ => .error .illegalFunction

/-- OP 0x2D, KMASK (R147). -/
def decKmask (long : Bool) (p : Pre) (w : IWord) : Except Bad Instr :=
  if p != Pre.none then .error .illegalFunction else match (w &&& 0xF#32).toNat with
  | 0x0 => checkWord long (w &&& 0x00000070#32) (.kmaskAnd (fld 3 22 w) (fld 5 17 w) (fld 5 12 w) (fld 5 7 w))
  | 0x1 => checkWord long (w &&& 0x00000070#32) (.kmaskOr (fld 3 22 w) (fld 5 17 w) (fld 5 12 w) (fld 5 7 w))
  | 0x2 => checkWord long (w &&& 0x00000070#32) (.kmaskXor (fld 3 22 w) (fld 5 17 w) (fld 5 12 w) (fld 5 7 w))
  | 0x3 => checkWord long (w &&& 0x00000070#32) (.kmaskAndn (fld 3 22 w) (fld 5 17 w) (fld 5 12 w) (fld 5 7 w))
  | 0x4 => checkWord long (w &&& 0x00000FF0#32) (.kmaskNot (fld 3 22 w) (fld 5 17 w) (fld 5 12 w))
  | 0x5 => checkWord long (w &&& 0x00000C70#32) (.kmaskFromg (fld 3 22 w) (fld 5 17 w) (fld 5 12 w) (fld 3 7 w))
  | 0x6 => checkWord long (w &&& 0x00000C70#32) (.kmaskTog (fld 3 22 w) (fld 5 17 w) (fld 5 12 w) (fld 3 7 w))
  | 0x7 => checkWord long (w &&& 0x00000F80#32) (.kmaskPopc (fld 3 22 w) (fld 5 17 w) (fld 5 12 w) (fld 3 4 w))
  | 0x8 => checkWord long (w &&& 0x00000F80#32) (.kmaskFirst (fld 3 22 w) (fld 5 17 w) (fld 5 12 w) (fld 3 4 w))
  | 0x9 => checkWord long (w &&& 0x00000F80#32) (.kmaskFill (fld 3 22 w) (fld 5 17 w) (fld 5 12 w) (fld 3 4 w))
  | 0xA => checkWord long (w &&& 0x00000FF0#32) (.kmaskMov (fld 3 22 w) (fld 5 17 w) (fld 5 12 w))
  | _ => .error .illegalFunction

/-- OP 0x2E, VMODE (R148). -/
def decVmode (long : Bool) (p : Pre) (w : IWord) : Except Bad Instr :=
  if p != Pre.none then .error .illegalFunction else match (w &&& 0xF#32).toNat with
  | 0x0 => checkWord long (w &&& 0x003FFFF0#32) (.vmodeShort (fld 3 22 w))
  | 0x1 => checkWord long (w &&& 0x003FFFF0#32) (.vmodeLong (fld 3 22 w))
  | _ => .error .illegalFunction

/-- OP 0x2F, VQNT (R149). -/
def decVqnt (long : Bool) (p : Pre) (w : IWord) : Except Bad Instr :=
  checkWord long (w &&& 0x00000F8C#32) (.vqnt p (fld 3 22 w) (fld 5 17 w) (fld 5 12 w) (fld 3 4 w) (fld 2 0 w))

/-- OP 0x30, LD (R126). -/
def decLd (long : Bool) (p : Pre) (w : IWord) : Except Bad Instr :=
  if p != Pre.none then .error .illegalFunction else checkWord long (w &&& 0x00000000#32) (.ld (fld 3 22 w) (fld 5 17 w) (fld 5 12 w) (fld 3 9 w) (fld 2 7 w) (fld 7 0 w))

/-- OP 0x31, ST (R127). -/
def decSt (long : Bool) (p : Pre) (w : IWord) : Except Bad Instr :=
  if p != Pre.none then .error .illegalFunction else checkWord long (w &&& 0x00000000#32) (.st (fld 3 22 w) (fld 5 17 w) (fld 5 12 w) (fld 3 9 w) (fld 2 7 w) (fld 7 0 w))

/-- OP 0x32, VLD (R150). -/
def decVld (long : Bool) (p : Pre) (w : IWord) : Except Bad Instr :=
  checkWord long (w &&& 0x00000000#32) (.vld p (fld 3 22 w) (fld 5 17 w) (fld 5 12 w) (fld 3 9 w) (fld 2 7 w) (fld 7 0 w))

/-- OP 0x33, VST (R150). -/
def decVst (long : Bool) (p : Pre) (w : IWord) : Except Bad Instr :=
  checkWord long (w &&& 0x00000000#32) (.vst p (fld 3 22 w) (fld 5 17 w) (fld 5 12 w) (fld 3 9 w) (fld 2 7 w) (fld 7 0 w))

/-- OP 0x34, VLDX (R200). -/
def decVldx (long : Bool) (p : Pre) (w : IWord) : Except Bad Instr :=
  if p != Pre.none then .error .illegalFunction else checkWord long (w &&& 0x00000000#32) (.vldx (fld 3 22 w) (fld 5 17 w) (fld 5 12 w) (fld 5 7 w) (fld 3 4 w) (fld 2 2 w) (fld 1 1 w) (fld 1 0 w))

/-- OP 0x35, VSTX (R200). -/
def decVstx (long : Bool) (p : Pre) (w : IWord) : Except Bad Instr :=
  if p != Pre.none then .error .illegalFunction else checkWord long (w &&& 0x00000000#32) (.vstx (fld 3 22 w) (fld 5 17 w) (fld 5 12 w) (fld 5 7 w) (fld 3 4 w) (fld 2 2 w) (fld 1 1 w) (fld 1 0 w))

/-- OP 0x36, LDT (R201). -/
def decLdt (long : Bool) (p : Pre) (w : IWord) : Except Bad Instr :=
  if p != Pre.none then .error .illegalFunction else if amFn w then .error .illegalFunction else checkWord long (w &&& 0x00000180#32) (.ldt (fld 3 22 w) (fld 5 17 w) (fld 5 12 w) (fld 3 9 w) (fld 7 0 w))

/-- OP 0x37, ACC (R202). -/
def decAcc (long : Bool) (p : Pre) (w : IWord) : Except Bad Instr :=
  if p != Pre.none then .error .illegalFunction else if amFn w then .error .illegalFunction else match (w &&& 0x800#32).toNat with
  | 0x0 => checkWord long (w &&& 0x00000180#32) (.acc (fld 3 22 w) (fld 5 17 w) (fld 5 12 w) (fld 2 9 w) (fld 7 0 w))
  | 0x800 => checkWord long (w &&& 0x00000180#32) (.accVec (fld 3 22 w) (fld 5 17 w) (fld 5 12 w) (fld 2 9 w) (fld 7 0 w))
  | _ => .error .illegalFunction

/-- OP 0x38, AMO (R203). -/
def decAmo (long : Bool) (p : Pre) (w : IWord) : Except Bad Instr :=
  if p != Pre.none then .error .illegalFunction else match (w &&& 0x6F#32).toNat with
  | 0x0 => checkWord long (w &&& 0x00000000#32) (.amoAdd (fld 3 22 w) (fld 5 17 w) (fld 5 12 w) (fld 5 7 w) (fld 1 4 w))
  | 0x1 => checkWord long (w &&& 0x00000000#32) (.amoMin (fld 3 22 w) (fld 5 17 w) (fld 5 12 w) (fld 5 7 w) (fld 1 4 w))
  | 0x2 => checkWord long (w &&& 0x00000000#32) (.amoMax (fld 3 22 w) (fld 5 17 w) (fld 5 12 w) (fld 5 7 w) (fld 1 4 w))
  | 0x3 => checkWord long (w &&& 0x00000000#32) (.amoMinn (fld 3 22 w) (fld 5 17 w) (fld 5 12 w) (fld 5 7 w) (fld 1 4 w))
  | 0x4 => checkWord long (w &&& 0x00000000#32) (.amoMaxn (fld 3 22 w) (fld 5 17 w) (fld 5 12 w) (fld 5 7 w) (fld 1 4 w))
  | 0x5 => checkWord long (w &&& 0x00000000#32) (.amoAnd (fld 3 22 w) (fld 5 17 w) (fld 5 12 w) (fld 5 7 w) (fld 1 4 w))
  | 0x6 => checkWord long (w &&& 0x00000000#32) (.amoOr (fld 3 22 w) (fld 5 17 w) (fld 5 12 w) (fld 5 7 w) (fld 1 4 w))
  | 0x7 => checkWord long (w &&& 0x00000000#32) (.amoXor (fld 3 22 w) (fld 5 17 w) (fld 5 12 w) (fld 5 7 w) (fld 1 4 w))
  | 0x8 => checkWord long (w &&& 0x00000000#32) (.amoSwap (fld 3 22 w) (fld 5 17 w) (fld 5 12 w) (fld 5 7 w) (fld 1 4 w))
  | 0x9 => checkWord long (w &&& 0x00000000#32) (.amoCas (fld 3 22 w) (fld 5 17 w) (fld 5 12 w) (fld 5 7 w) (fld 1 4 w))
  | 0xA => if w.getLsbD 4 then .error .illegalFunction else checkWord long (w &&& 0x00000000#32) (.amoFadd (fld 3 22 w) (fld 5 17 w) (fld 5 12 w) (fld 5 7 w))
  | 0xB => if w.getLsbD 4 then .error .illegalFunction else checkWord long (w &&& 0x00000000#32) (.amoFmin (fld 3 22 w) (fld 5 17 w) (fld 5 12 w) (fld 5 7 w))
  | _ => .error .illegalFunction

/-- OP 0x39, AMSG (R204). -/
def decAmsg (long : Bool) (p : Pre) (w : IWord) : Except Bad Instr :=
  if p != Pre.none then .error .illegalFunction else match (w &&& 0x78#32).toNat with
  | 0x0 => checkWord long (w &&& 0x00000000#32) (.amsg (fld 3 22 w) (fld 5 17 w) (fld 5 12 w) (fld 5 7 w) (fld 3 0 w))
  | _ => .error .illegalFunction

/-- OP 0x3A, FENCE (R206). -/
def decFence (long : Bool) (p : Pre) (w : IWord) : Except Bad Instr :=
  if p != Pre.none then .error .illegalFunction else match (w &&& 0x78#32).toNat with
  | 0x0 => checkWord long (w &&& 0x003FFF87#32) (.fence (fld 3 22 w))
  | 0x8 => checkWord long (w &&& 0x003FFF80#32) (.fenceDrain (fld 3 22 w) (fld 3 0 w))
  | 0x10 => checkWord long (w &&& 0x003FFF87#32) (.fenceEng (fld 3 22 w))
  | _ => .error .illegalFunction

/-- OP 0x3B, HINT (R207). -/
def chkHint (_long : Bool) (p : Pre) (w : IWord) : Option Bad :=
  if p != Pre.none then some .illegalFunction else if amFn w then some .illegalFunction else match (w &&& 0xE00#32).toNat with
  | 0x0 => chk (w &&& 0x003E0180#32) false false false
  | 0x200 => chk (w &&& 0x003E0180#32) false false false
  | 0x400 => chk (w &&& 0x003E0180#32) false false false
  | 0x600 => chk (w &&& 0x003E0180#32) false false false
  | 0x800 => chk (w &&& 0x003E0180#32) false false false
  | 0xA00 => chk (w &&& 0x0001F1FF#32) false false false
  | _ => some .illegalFunction
/-- Its instruction, when the word decodes. -/
noncomputable def buildHint (w : IWord) : Instr :=
  match (w &&& 0xE00#32).toNat with
  | 0x0 => .hintL1 (fld 3 22 w) (fld 5 12 w) (fld 7 0 w)
  | 0x200 => .hintClu (fld 3 22 w) (fld 5 12 w) (fld 7 0 w)
  | 0x400 => .hintMsc (fld 3 22 w) (fld 5 12 w) (fld 7 0 w)
  | 0x600 => .hintCrate (fld 3 22 w) (fld 5 12 w) (fld 7 0 w)
  | 0x800 => .hintLast (fld 3 22 w) (fld 5 12 w) (fld 7 0 w)
  | _ => .hintCnt (fld 3 22 w) (fld 5 17 w)

/-- OP 0x3C, RANGE (R210, R211). -/
def chkRange (_long : Bool) (p : Pre) (w : IWord) : Option Bad :=
  if p != Pre.none then some .illegalFunction else match (w &&& 0x7F#32).toNat with
  | 0x0 => chk (w &&& 0x00000F80#32) false false false
  | 0x1 => chk (w &&& 0x003E0000#32) false false false
  | 0x2 => chk (w &&& 0x003E0F80#32) false false false
  | 0x3 => chk (w &&& 0x003E0F80#32) false false false
  | _ => some .illegalFunction
/-- Its instruction, when the word decodes. -/
noncomputable def buildRange (w : IWord) : Instr :=
  match (w &&& 0x7F#32).toNat with
  | 0x0 => .rangeDecl (fld 3 22 w) (fld 5 17 w) (fld 5 12 w)
  | 0x1 => .rangeBound (fld 3 22 w) (fld 5 12 w) (fld 5 7 w)
  | 0x2 => .rangeDrain (fld 3 22 w) (fld 5 12 w)
  | _ => .rangeFree (fld 3 22 w) (fld 5 12 w)

/-- OP 0x3D, XFER (R213, R214, R215). -/
def chkXfer (_long : Bool) (p : Pre) (w : IWord) : Option Bad :=
  if p != Pre.none then some .illegalFunction else match (w &&& 0x7F#32).toNat with
  | 0x0 => chk (w &&& 0x00000000#32) (decide (28 < (fld 5 12 w).toNat)) false false
  | 0x1 => chk (w &&& 0x00000000#32) (decide (28 < (fld 5 12 w).toNat)) false false
  | 0x2 => chk (w &&& 0x00000000#32) (decide (28 < (fld 5 12 w).toNat)) false false
  | 0x3 => chk (w &&& 0x00000000#32) (decide (28 < (fld 5 12 w).toNat)) false false
  | 0x4 => chk (w &&& 0x00000000#32) (decide (28 < (fld 5 12 w).toNat)) false false
  | 0x5 => chk (w &&& 0x00000000#32) (decide (28 < (fld 5 12 w).toNat)) false false
  | _ => some .illegalFunction
/-- Its instruction, when the word decodes. -/
noncomputable def buildXfer (w : IWord) : Instr :=
  match (w &&& 0x7F#32).toNat with
  | 0x0 => .xferCopy (fld 3 22 w) (fld 5 17 w) (fld 5 12 w) (fld 5 7 w)
  | 0x1 => .xferGather (fld 3 22 w) (fld 5 17 w) (fld 5 12 w) (fld 5 7 w)
  | 0x2 => .xferScatter (fld 3 22 w) (fld 5 17 w) (fld 5 12 w) (fld 5 7 w)
  | 0x3 => .xferFill (fld 3 22 w) (fld 5 17 w) (fld 5 12 w) (fld 5 7 w)
  | 0x4 => .xferQcopy (fld 3 22 w) (fld 5 17 w) (fld 5 12 w) (fld 5 7 w)
  | _ => .xferRgather (fld 3 22 w) (fld 5 17 w) (fld 5 12 w) (fld 5 7 w)

/-- OP 0x3E, XWAIT (R217). -/
def chkXwait (_long : Bool) (p : Pre) (w : IWord) : Option Bad :=
  if p != Pre.none then some .illegalFunction else match (w &&& 0x7F#32).toNat with
  | 0x0 => chk (w &&& 0x003E0000#32) false false false
  | 0x1 => chk (w &&& 0x003FF000#32) false false false
  | 0x2 => chk (w &&& 0x00000000#32) false false false
  | _ => some .illegalFunction
/-- Its instruction, when the word decodes. -/
noncomputable def buildXwait (w : IWord) : Instr :=
  match (w &&& 0x7F#32).toNat with
  | 0x0 => .xwaitOne (fld 3 22 w) (fld 5 12 w) (fld 5 7 w)
  | 0x1 => .xwaitAll (fld 3 22 w) (fld 5 7 w)
  | _ => .xwaitTest (fld 3 22 w) (fld 5 17 w) (fld 5 12 w) (fld 5 7 w)

/-- OP 0x3F, PAGE (R218, R219). -/
def chkPage (_long : Bool) (p : Pre) (w : IWord) : Option Bad :=
  if p != Pre.none then some .illegalFunction else match (w &&& 0x7F#32).toNat with
  | 0x0 => chk (w &&& 0x00000000#32) false false false
  | 0x1 => chk (w &&& 0x0001F000#32) false false false
  | 0x2 => chk (w &&& 0x0001FF80#32) false false false
  | 0x3 => chk (w &&& 0x00000000#32) false false false
  | 0x4 => chk (w &&& 0x00000000#32) false false false
  | 0x5 => chk (w &&& 0x0001F000#32) false false false
  | _ => some .illegalFunction
/-- Its instruction, when the word decodes. -/
noncomputable def buildPage (w : IWord) : Instr :=
  match (w &&& 0x7F#32).toNat with
  | 0x0 => .pageInvp (fld 3 22 w) (fld 5 17 w) (fld 5 12 w) (fld 5 7 w)
  | 0x1 => .pageInvk (fld 3 22 w) (fld 5 17 w) (fld 5 7 w)
  | 0x2 => .pageInva (fld 3 22 w) (fld 5 17 w)
  | 0x3 => .pageBias (fld 3 22 w) (fld 5 17 w) (fld 5 12 w) (fld 5 7 w)
  | 0x4 => .pageResume (fld 3 22 w) (fld 5 17 w) (fld 5 12 w) (fld 5 7 w)
  | _ => .pageKret (fld 3 22 w) (fld 5 17 w) (fld 5 7 w)

/-- OP 0x40, MLSE (R265). -/
def chkMlse (_long : Bool) (p : Pre) (w : IWord) : Option Bad :=
  if p != Pre.none then some .illegalFunction else match (w &&& 0x7F#32).toNat with
  | 0x0 => chk (w &&& 0x003FFF80#32) false false false
  | 0x1 => chk (w &&& 0x0001FF80#32) false false false
  | 0x2 => chk (w &&& 0x003FFF80#32) false false false
  | 0x3 => chk (w &&& 0x00000F80#32) false false false
  | _ => some .illegalFunction
/-- Its instruction, when the word decodes. -/
noncomputable def buildMlse (w : IWord) : Instr :=
  match (w &&& 0x7F#32).toNat with
  | 0x0 => .mlseAcq (fld 3 22 w)
  | 0x1 => .mlseTry (fld 3 22 w) (fld 5 17 w)
  | 0x2 => .mlseRel (fld 3 22 w)
  | _ => .mlseJoin (fld 3 22 w) (fld 5 17 w) (fld 5 12 w)

/-- OP 0x41, TDEF (R264). -/
def chkTdef (_long : Bool) (p : Pre) (w : IWord) : Option Bad :=
  if p != Pre.none then some .illegalFunction else match (w &&& 0x7F#32).toNat with
  | 0x0 => chk (w &&& 0x00000000#32) false false false
  | 0x1 => chk (w &&& 0x003E0000#32) false false false
  | 0x2 => chk (w &&& 0x003FF000#32) false false false
  | _ => some .illegalFunction
/-- Its instruction, when the word decodes. -/
noncomputable def buildTdef (w : IWord) : Instr :=
  match (w &&& 0x7F#32).toNat with
  | 0x0 => .tdefSet (fld 3 22 w) (fld 5 17 w) (fld 5 12 w) (fld 5 7 w)
  | 0x1 => .tdefGet (fld 3 22 w) (fld 5 12 w) (fld 5 7 w)
  | _ => .tdefClr (fld 3 22 w) (fld 5 7 w)

/-- OP 0x42, MMA (R269). -/
def chkMma (_long : Bool) (p : Pre) (w : IWord) : Option Bad :=
  if p != Pre.none then some .illegalFunction else match (w &&& 0x7E#32).toNat with
  | 0x0 => chk (w &&& 0x003E0F80#32) (decide (29 < (fld 5 12 w).toNat)) false false
  | 0x2 => chk (w &&& 0x003E0F80#32) (decide (29 < (fld 5 12 w).toNat)) false false
  | _ => some .illegalFunction
/-- Its instruction, when the word decodes. -/
noncomputable def buildMma (w : IWord) : Instr :=
  match (w &&& 0x7E#32).toNat with
  | 0x0 => .mmaNew (fld 3 22 w) (fld 5 12 w) (fld 1 0 w)
  | _ => .mmaAcc (fld 3 22 w) (fld 5 12 w) (fld 1 0 w)

/-- OP 0x43, MMAQ (R270). -/
def chkMmaq (_long : Bool) (p : Pre) (w : IWord) : Option Bad :=
  if p != Pre.none then some .illegalFunction else match (w &&& 0x7E#32).toNat with
  | 0x0 => chk (w &&& 0x003E0F80#32) (decide (29 < (fld 5 12 w).toNat)) false false
  | 0x2 => chk (w &&& 0x003E0F80#32) (decide (29 < (fld 5 12 w).toNat)) false false
  | _ => some .illegalFunction
/-- Its instruction, when the word decodes. -/
noncomputable def buildMmaq (w : IWord) : Instr :=
  match (w &&& 0x7E#32).toNat with
  | 0x0 => .mmaqNew (fld 3 22 w) (fld 5 12 w) (fld 1 0 w)
  | _ => .mmaqAcc (fld 3 22 w) (fld 5 12 w) (fld 1 0 w)

/-- OP 0x44, MACC (R271). -/
def chkMacc (_long : Bool) (p : Pre) (w : IWord) : Option Bad :=
  if p != Pre.none then some .illegalFunction else match (w &&& 0x76#32).toNat with
  | 0x0 => chk (w &&& 0x003E0F80#32) (decide (30 < (fld 5 12 w).toNat)) false false
  | 0x2 => chk (w &&& 0x003E0F80#32) (decide (30 < (fld 5 12 w).toNat)) false false
  | _ => some .illegalFunction
/-- Its instruction, when the word decodes. -/
noncomputable def buildMacc (w : IWord) : Instr :=
  match (w &&& 0x76#32).toNat with
  | 0x0 => .maccSt (fld 3 22 w) (fld 5 12 w) (fld 1 3 w) (fld 1 0 w)
  | _ => .maccDrain (fld 3 22 w) (fld 5 12 w) (fld 1 3 w) (fld 1 0 w)

/-- OP 0x45, MGANG (R266). -/
def chkMgang (_long : Bool) (p : Pre) (w : IWord) : Option Bad :=
  if p != Pre.none then some .illegalFunction else match (w &&& 0x7F#32).toNat with
  | 0x0 => chk (w &&& 0x00000F80#32) false false false
  | 0x1 => chk (w &&& 0x0001FF80#32) false false false
  | _ => some .illegalFunction
/-- Its instruction, when the word decodes. -/
noncomputable def buildMgang (w : IWord) : Instr :=
  match (w &&& 0x7F#32).toNat with
  | 0x0 => .mgangForm (fld 3 22 w) (fld 5 17 w) (fld 5 12 w)
  | _ => .mgangDiss (fld 3 22 w) (fld 5 17 w)

/-- OP 0x46, MSTAT (R275). -/
def chkMstat (_long : Bool) (p : Pre) (w : IWord) : Option Bad :=
  if p != Pre.none then some .illegalFunction else match (w &&& 0x7F#32).toNat with
  | 0x0 => chk (w &&& 0x0001FF80#32) false false false
  | 0x1 => chk (w &&& 0x0001FF80#32) false false false
  | _ => some .illegalFunction
/-- Its instruction, when the word decodes. -/
noncomputable def buildMstat (w : IWord) : Instr :=
  match (w &&& 0x7F#32).toNat with
  | 0x0 => .mstat (fld 3 22 w) (fld 5 17 w)
  | _ => .mstatWait (fld 3 22 w) (fld 5 17 w)

/-- OP 0x47, XEXP (R273). -/
def chkXexp (_long : Bool) (p : Pre) (w : IWord) : Option Bad :=
  if p != Pre.none then some .illegalFunction else match (w &&& 0x70#32).toNat with
  | 0x0 => chk (w &&& 0x003E0F80#32) (decide (29 < (fld 5 12 w).toNat) || (fld 2 1 w) == 3#2) false false
  | _ => some .illegalFunction
/-- Its instruction, when the word decodes. -/
noncomputable def buildXexp (w : IWord) : Instr :=
  .xexp (fld 3 22 w) (fld 5 12 w) (fld 1 3 w) (fld 2 1 w) (fld 1 0 w)

/-- OP 0x48, MBAR (R274). -/
def chkMbar (_long : Bool) (p : Pre) (w : IWord) : Option Bad :=
  if p != Pre.none then some .illegalFunction else match (w &&& 0x7F#32).toNat with
  | 0x0 => chk (w &&& 0x003FFF80#32) false false false
  | _ => some .illegalFunction
/-- Its instruction, when the word decodes. -/
noncomputable def buildMbar (w : IWord) : Instr :=
  .mbar (fld 3 22 w)

/-- OP 0x49, MHND (R272). -/
def chkMhnd (_long : Bool) (p : Pre) (w : IWord) : Option Bad :=
  if p != Pre.none then some .illegalFunction else match (w &&& 0x7F#32).toNat with
  | 0x0 => chk (w &&& 0x003E0000#32) false false false
  | 0x1 => chk (w &&& 0x003FFF80#32) false false false
  | _ => some .illegalFunction
/-- Its instruction, when the word decodes. -/
noncomputable def buildMhnd (w : IWord) : Instr :=
  match (w &&& 0x7F#32).toNat with
  | 0x0 => .mhndSet (fld 3 22 w) (fld 5 12 w) (fld 5 7 w)
  | _ => .mhndClr (fld 3 22 w)

/-- OP 0x4A, MCFG (R267). -/
def chkMcfg (_long : Bool) (p : Pre) (w : IWord) : Option Bad :=
  if p != Pre.none then some .illegalFunction else match (w &&& 0x7F#32).toNat with
  | 0x0 => chk (w &&& 0x0001FF80#32) false false false
  | 0x1 => chk (w &&& 0x00000F80#32) false false false
  | _ => some .illegalFunction
/-- Its instruction, when the word decodes. -/
noncomputable def buildMcfg (w : IWord) : Instr :=
  match (w &&& 0x7F#32).toNat with
  | 0x0 => .mcfgGet (fld 3 22 w) (fld 5 17 w)
  | _ => .mcfgRun (fld 3 22 w) (fld 5 17 w) (fld 5 12 w)

/-- OP 0x50, CTX (R307). -/
def chkCtx (_long : Bool) (p : Pre) (w : IWord) : Option Bad :=
  if p != Pre.none then some .illegalFunction else match (w &&& 0x7F#32).toNat with
  | 0x0 => chk (w &&& 0x00000F80#32) false false false
  | 0x1 => chk (w &&& 0x00000F80#32) false false false
  | 0x2 => chk (w &&& 0x003E0F80#32) false false false
  | 0x3 => chk (w &&& 0x00000F80#32) false false false
  | _ => some .illegalFunction
/-- Its instruction, when the word decodes. -/
noncomputable def buildCtx (w : IWord) : Instr :=
  match (w &&& 0x7F#32).toNat with
  | 0x0 => .ctxNew (fld 3 22 w) (fld 5 17 w) (fld 5 12 w)
  | 0x1 => .ctxFork (fld 3 22 w) (fld 5 17 w) (fld 5 12 w)
  | 0x2 => .ctxFree (fld 3 22 w) (fld 5 12 w)
  | _ => .ctxInfo (fld 3 22 w) (fld 5 17 w) (fld 5 12 w)

/-- OP 0x51, EDIT (R308). -/
def chkEdit (_long : Bool) (p : Pre) (w : IWord) : Option Bad :=
  if p != Pre.none then some .illegalFunction else match (w &&& 0x7F#32).toNat with
  | 0x0 => chk (w &&& 0x00000000#32) ((fld 5 12 w) == 31#5) false false
  | 0x1 => chk (w &&& 0x00000F80#32) ((fld 5 12 w) == 31#5) false false
  | 0x2 => chk (w &&& 0x00000000#32) ((fld 5 12 w) == 31#5) false false
  | _ => some .illegalFunction
/-- Its instruction, when the word decodes. -/
noncomputable def buildEdit (w : IWord) : Instr :=
  match (w &&& 0x7F#32).toNat with
  | 0x0 => .editIns (fld 3 22 w) (fld 5 17 w) (fld 5 12 w) (fld 5 7 w)
  | 0x1 => .editDel (fld 3 22 w) (fld 5 17 w) (fld 5 12 w)
  | _ => .editRep (fld 3 22 w) (fld 5 17 w) (fld 5 12 w) (fld 5 7 w)

/-- OP 0x52, WALK (R310). -/
def chkWalk (_long : Bool) (p : Pre) (w : IWord) : Option Bad :=
  if p != Pre.none then some .illegalFunction else match (w &&& 0x7F#32).toNat with
  | 0x0 => chk (w &&& 0x00000F80#32) (decide (29 < (fld 5 17 w).toNat)) false false
  | _ => some .illegalFunction
/-- Its instruction, when the word decodes. -/
noncomputable def buildWalk (w : IWord) : Instr :=
  .walk (fld 3 22 w) (fld 5 17 w) (fld 5 12 w)

/-- OP 0x53, DMAP (R311). -/
def chkDmap (_long : Bool) (p : Pre) (w : IWord) : Option Bad :=
  if p != Pre.none then some .illegalFunction else match (w &&& 0x7F#32).toNat with
  | 0x0 => chk (w &&& 0x00000F80#32) false false false
  | 0x1 => chk (w &&& 0x003E0000#32) false false false
  | 0x2 => chk (w &&& 0x00000F80#32) false false false
  | _ => some .illegalFunction
/-- Its instruction, when the word decodes. -/
noncomputable def buildDmap (w : IWord) : Instr :=
  match (w &&& 0x7F#32).toNat with
  | 0x0 => .dmapGet (fld 3 22 w) (fld 5 17 w) (fld 5 12 w)
  | 0x1 => .dmapThr (fld 3 22 w) (fld 5 12 w) (fld 5 7 w)
  | _ => .dmapCnt (fld 3 22 w) (fld 5 17 w) (fld 5 12 w)

/-- OP 0x54, SETTLE (R316). -/
def chkSettle (_long : Bool) (p : Pre) (w : IWord) : Option Bad :=
  if p != Pre.none then some .illegalFunction else match (w &&& 0x7F#32).toNat with
  | 0x0 => chk (w &&& 0x003E0000#32) false false false
  | 0x1 => chk (w &&& 0x00000000#32) false false false
  | _ => some .illegalFunction
/-- Its instruction, when the word decodes. -/
noncomputable def buildSettle (w : IWord) : Instr :=
  match (w &&& 0x7F#32).toNat with
  | 0x0 => .settle (fld 3 22 w) (fld 5 12 w) (fld 5 7 w)
  | _ => .settleTry (fld 3 22 w) (fld 5 17 w) (fld 5 12 w) (fld 5 7 w)

/-- OP 0x55, VLDW (R297). -/
def chkVldw (long : Bool) (p : Pre) (w : IWord) : Option Bad :=
  if p != Pre.none then some .illegalFunction else match (w &&& 0x7B#32).toNat with
  | 0x0 => chk (w &&& 0x00000000#32) ((fld 5 12 w) == 31#5) false ((long && decide (15 < (fld 5 17 w).toNat)))
  | 0x1 => chk (w &&& 0x00000000#32) ((fld 5 12 w) == 31#5) false ((long && decide (15 < (fld 5 17 w).toNat)))
  | 0x2 => chk (w &&& 0x00000000#32) ((fld 5 12 w) == 31#5) false ((long && decide (15 < (fld 5 17 w).toNat)))
  | _ => some .illegalFunction
/-- Its instruction, when the word decodes. -/
noncomputable def buildVldw (w : IWord) : Instr :=
  match (w &&& 0x7B#32).toNat with
  | 0x0 => .vldwSnap (fld 3 22 w) (fld 5 17 w) (fld 5 12 w) (fld 5 7 w) (fld 1 2 w)
  | 0x1 => .vldwCur (fld 3 22 w) (fld 5 17 w) (fld 5 12 w) (fld 5 7 w) (fld 1 2 w)
  | _ => .vldwSettled (fld 3 22 w) (fld 5 17 w) (fld 5 12 w) (fld 5 7 w) (fld 1 2 w)

/-- OP 0x56, VSTW (R313). -/
def chkVstw (long : Bool) (p : Pre) (w : IWord) : Option Bad :=
  if p != Pre.none then some .illegalFunction else match (w &&& 0x7B#32).toNat with
  | 0x0 => chk (w &&& 0x00000F80#32) ((fld 5 12 w) == 31#5) false ((long && decide (15 < (fld 5 17 w).toNat)))
  | _ => some .illegalFunction
/-- Its instruction, when the word decodes. -/
noncomputable def buildVstw (w : IWord) : Instr :=
  .vstw (fld 3 22 w) (fld 5 17 w) (fld 5 12 w) (fld 1 2 w)

/-- OP 0x57, WAVE (R312). -/
def chkWave (_long : Bool) (p : Pre) (w : IWord) : Option Bad :=
  if p != Pre.none then some .illegalFunction else match (w &&& 0x7F#32).toNat with
  | 0x0 => chk (w &&& 0x00000000#32) false false false
  | 0x1 => chk (w &&& 0x00000000#32) ((fld 5 7 w) == 0#5) false false
  | _ => some .illegalFunction
/-- Its instruction, when the word decodes. -/
noncomputable def buildWave (w : IWord) : Instr :=
  match (w &&& 0x7F#32).toNat with
  | 0x0 => .waveBind (fld 3 22 w) (fld 5 17 w) (fld 5 12 w) (fld 5 7 w)
  | _ => .waveNext (fld 3 22 w) (fld 5 17 w) (fld 5 12 w) (fld 5 7 w)

/-- OP 0x58, DELTA (R315). -/
def chkDelta (_long : Bool) (p : Pre) (w : IWord) : Option Bad :=
  if p != Pre.none then some .illegalFunction else match (w &&& 0x7F#32).toNat with
  | 0x0 => chk (w &&& 0x0001FF80#32) false false false
  | _ => some .illegalFunction
/-- Its instruction, when the word decodes. -/
noncomputable def buildDelta (w : IWord) : Instr :=
  .delta (fld 3 22 w) (fld 5 17 w)

/-- OP 0x59, KVAP (R309). -/
def chkKvap (_long : Bool) (p : Pre) (w : IWord) : Option Bad :=
  if p != Pre.none then some .illegalFunction else match (w &&& 0x7F#32).toNat with
  | 0x0 => chk (w &&& 0x00000000#32) false false false
  | 0x1 => chk (w &&& 0x00000000#32) false false false
  | _ => some .illegalFunction
/-- Its instruction, when the word decodes. -/
noncomputable def buildKvap (w : IWord) : Instr :=
  match (w &&& 0x7F#32).toNat with
  | 0x0 => .kvapPool (fld 3 22 w) (fld 5 17 w) (fld 5 12 w) (fld 5 7 w)
  | _ => .kvapApp (fld 3 22 w) (fld 5 17 w) (fld 5 12 w) (fld 5 7 w)

/-- OP 0x60, SEND (R342). -/
def chkSend (_long : Bool) (p : Pre) (w : IWord) : Option Bad :=
  if p != Pre.none then some .illegalFunction else match (w &&& 0x70#32).toNat with
  | 0x0 => chk (w &&& 0x00000000#32) (decide (8 < (fld 4 0 w).toNat) || ((fld 4 0 w) != 0#4 && decide (32 < (fld 5 7 w).toNat + (fld 4 0 w).toNat)) || (fld 5 12 w) == 31#5) (((fld 4 0 w) == 0#4 && (fld 5 7 w) != 0#5)) false
  | 0x10 => chk (w &&& 0x00000000#32) (decide (8 < (fld 4 0 w).toNat) || ((fld 4 0 w) != 0#4 && decide (32 < (fld 5 7 w).toNat + (fld 4 0 w).toNat)) || (fld 5 12 w) == 31#5) (((fld 4 0 w) == 0#4 && (fld 5 7 w) != 0#5)) false
  | _ => some .illegalFunction
/-- Its instruction, when the word decodes. -/
noncomputable def buildSend (w : IWord) : Instr :=
  match (w &&& 0x70#32).toNat with
  | 0x0 => .send (fld 3 22 w) (fld 5 17 w) (fld 5 12 w) (fld 5 7 w) (fld 4 0 w)
  | _ => .sendB (fld 3 22 w) (fld 5 17 w) (fld 5 12 w) (fld 5 7 w) (fld 4 0 w)

/-- OP 0x61, HOP (R343). -/
def chkHop (_long : Bool) (p : Pre) (w : IWord) : Option Bad :=
  if p != Pre.none then some .illegalFunction else match (w &&& 0x7F#32).toNat with
  | 0x0 => chk (w &&& 0x003E0000#32) false false false
  | _ => some .illegalFunction
/-- Its instruction, when the word decodes. -/
noncomputable def buildHop (w : IWord) : Instr :=
  .hop (fld 3 22 w) (fld 5 12 w) (fld 5 7 w)

/-- OP 0x62, FORK (R344). -/
def chkFork (_long : Bool) (p : Pre) (w : IWord) : Option Bad :=
  if p != Pre.none then some .illegalFunction else chk (w &&& 0x00000000#32) (decide (8 < (fld 4 0 w).toNat) || ((fld 4 0 w) != 0#4 && decide (32 < (fld 5 7 w).toNat + (fld 4 0 w).toNat)) || decide (4 < (fld 3 4 w).toNat)) (((fld 4 0 w) == 0#4 && (fld 5 7 w) != 0#5)) false
/-- Its instruction, when the word decodes. -/
noncomputable def buildFork (w : IWord) : Instr :=
  .fork (fld 3 22 w) (fld 5 17 w) (fld 5 12 w) (fld 5 7 w) (fld 3 4 w) (fld 4 0 w)

/-- OP 0x63, JOIN (R346). -/
def chkJoin (_long : Bool) (p : Pre) (w : IWord) : Option Bad :=
  if p != Pre.none then some .illegalFunction else match (w &&& 0x7F#32).toNat with
  | 0x0 => chk (w &&& 0x00000000#32) false false false
  | _ => some .illegalFunction
/-- Its instruction, when the word decodes. -/
noncomputable def buildJoin (w : IWord) : Instr :=
  .join (fld 3 22 w) (fld 5 17 w) (fld 5 12 w) (fld 5 7 w)

/-- OP 0x64, TASK (R347). -/
def chkTask (_long : Bool) (p : Pre) (w : IWord) : Option Bad :=
  if p != Pre.none then some .illegalFunction else match (w &&& 0x70#32).toNat with
  | 0x0 => chk (w &&& 0x00000000#32) (decide (8 < (fld 4 0 w).toNat) || ((fld 4 0 w) != 0#4 && decide (32 < (fld 5 7 w).toNat + (fld 4 0 w).toNat)) || decide (29 < (fld 5 12 w).toNat)) (((fld 4 0 w) == 0#4 && (fld 5 7 w) != 0#5)) false
  | _ => some .illegalFunction
/-- Its instruction, when the word decodes. -/
noncomputable def buildTask (w : IWord) : Instr :=
  .task (fld 3 22 w) (fld 5 17 w) (fld 5 12 w) (fld 5 7 w) (fld 4 0 w)

/-- OP 0x65, WAIT (R348). -/
def chkWait (_long : Bool) (p : Pre) (w : IWord) : Option Bad :=
  if p != Pre.none then some .illegalFunction else match (w &&& 0x7F#32).toNat with
  | 0x0 => chk (w &&& 0x00000F80#32) false false false
  | _ => some .illegalFunction
/-- Its instruction, when the word decodes. -/
noncomputable def buildWait (w : IWord) : Instr :=
  .wait (fld 3 22 w) (fld 5 17 w) (fld 5 12 w)

/-- OP 0x66, BAR (R350). -/
def chkBar (_long : Bool) (p : Pre) (w : IWord) : Option Bad :=
  if p != Pre.none then some .illegalFunction else match (w &&& 0x7F#32).toNat with
  | 0x0 => chk (w &&& 0x00000000#32) false false false
  | 0x1 => chk (w &&& 0x00000F80#32) false false false
  | 0x2 => chk (w &&& 0x00000000#32) false false false
  | 0x3 => chk (w &&& 0x00000F80#32) false false false
  | _ => some .illegalFunction
/-- Its instruction, when the word decodes. -/
noncomputable def buildBar (w : IWord) : Instr :=
  match (w &&& 0x7F#32).toNat with
  | 0x0 => .barInit (fld 3 22 w) (fld 5 17 w) (fld 5 12 w) (fld 5 7 w)
  | 0x1 => .barArr (fld 3 22 w) (fld 5 17 w) (fld 5 12 w)
  | 0x2 => .barWait (fld 3 22 w) (fld 5 17 w) (fld 5 12 w) (fld 5 7 w)
  | _ => .barSync (fld 3 22 w) (fld 5 17 w) (fld 5 12 w)

/-- OP 0x67, LAUNCH (R351). -/
def chkLaunch (_long : Bool) (p : Pre) (w : IWord) : Option Bad :=
  if p != Pre.none then some .illegalFunction else match (w &&& 0x70#32).toNat with
  | 0x0 => chk (w &&& 0x00000000#32) (decide (8 < (fld 4 0 w).toNat) || ((fld 4 0 w) != 0#4 && decide (32 < (fld 5 7 w).toNat + (fld 4 0 w).toNat)) || decide (28 < (fld 5 12 w).toNat)) (((fld 4 0 w) == 0#4 && (fld 5 7 w) != 0#5)) false
  | 0x10 => chk (w &&& 0x00000000#32) (decide (8 < (fld 4 0 w).toNat) || ((fld 4 0 w) != 0#4 && decide (32 < (fld 5 7 w).toNat + (fld 4 0 w).toNat)) || decide (28 < (fld 5 12 w).toNat)) (((fld 4 0 w) == 0#4 && (fld 5 7 w) != 0#5)) false
  | _ => some .illegalFunction
/-- Its instruction, when the word decodes. -/
noncomputable def buildLaunch (w : IWord) : Instr :=
  match (w &&& 0x70#32).toNat with
  | 0x0 => .launch (fld 3 22 w) (fld 5 17 w) (fld 5 12 w) (fld 5 7 w) (fld 4 0 w)
  | _ => .launchAt (fld 3 22 w) (fld 5 17 w) (fld 5 12 w) (fld 5 7 w) (fld 4 0 w)

/-- OP 0x68, STEAL (R345). -/
def chkSteal (_long : Bool) (p : Pre) (w : IWord) : Option Bad :=
  if p != Pre.none then some .illegalFunction else match (w &&& 0x7F#32).toNat with
  | 0x0 => chk (w &&& 0x00000F80#32) false false false
  | _ => some .illegalFunction
/-- Its instruction, when the word decodes. -/
noncomputable def buildSteal (w : IWord) : Instr :=
  .steal (fld 3 22 w) (fld 5 17 w) (fld 5 12 w)

/-- OP 0x69, RSRV (R352). -/
def chkRsrv (_long : Bool) (p : Pre) (w : IWord) : Option Bad :=
  if p != Pre.none then some .illegalFunction else match (w &&& 0x70#32).toNat with
  | 0x0 => chk (w &&& 0x00000000#32) ((fld 4 0 w) != 0#4) ((fld 5 7 w) != 0#5) false
  | 0x10 => chk (w &&& 0x00000000#32) ((fld 4 0 w) != 0#4) ((fld 5 7 w) != 0#5) false
  | 0x20 => chk (w &&& 0x00000000#32) (decide (8 < (fld 4 0 w).toNat) || (fld 4 0 w) == 0#4 || ((fld 4 0 w) != 0#4 && decide (32 < (fld 5 7 w).toNat + (fld 4 0 w).toNat))) false false
  | _ => some .illegalFunction
/-- Its instruction, when the word decodes. -/
noncomputable def buildRsrv (w : IWord) : Instr :=
  match (w &&& 0x70#32).toNat with
  | 0x0 => .rsrvPin (fld 3 22 w) (fld 5 17 w) (fld 5 12 w) (fld 5 7 w)
  | 0x10 => .rsrvUnpin (fld 3 22 w) (fld 5 17 w) (fld 5 12 w) (fld 5 7 w)
  | _ => .rsrvPut (fld 3 22 w) (fld 5 17 w) (fld 5 12 w) (fld 5 7 w) (fld 4 0 w)

/-- OP 0x6A, ORDQ (R353). -/
def chkOrdq (_long : Bool) (p : Pre) (w : IWord) : Option Bad :=
  if p != Pre.none then some .illegalFunction else match (w &&& 0x7F#32).toNat with
  | 0x0 => chk (w &&& 0x0001FF80#32) false false false
  | 0x1 => chk (w &&& 0x0001FF80#32) false false false
  | 0x2 => chk (w &&& 0x0001FF80#32) false false false
  | 0x3 => chk (w &&& 0x0001FF80#32) false false false
  | 0x4 => chk (w &&& 0x0001FF80#32) false false false
  | _ => some .illegalFunction
/-- Its instruction, when the word decodes. -/
noncomputable def buildOrdq (w : IWord) : Instr :=
  match (w &&& 0x7F#32).toNat with
  | 0x0 => .ordqVt (fld 3 22 w) (fld 5 17 w)
  | 0x1 => .ordqLen (fld 3 22 w) (fld 5 17 w)
  | 0x2 => .ordqHead (fld 3 22 w) (fld 5 17 w)
  | 0x3 => .ordqSpec (fld 3 22 w) (fld 5 17 w)
  | _ => .ordqRset (fld 3 22 w) (fld 5 17 w)

/-- OP 0x6B, PRI (R354). -/
def chkPri (_long : Bool) (p : Pre) (w : IWord) : Option Bad :=
  if p != Pre.none then some .illegalFunction else match (w &&& 0x7F#32).toNat with
  | 0x0 => chk (w &&& 0x00000F80#32) false false false
  | _ => some .illegalFunction
/-- Its instruction, when the word decodes. -/
noncomputable def buildPri (w : IWord) : Instr :=
  .pri (fld 3 22 w) (fld 5 17 w) (fld 5 12 w)

/-- A later opcode's word checked: there is no instruction to answer with yet. -/
def lateShape : Option Bad → Except Bad (Option Instr)
  | some b => .error b
  | none => .ok none

/-- A base word with its prefixes, checked; the trailing literal of an L-format word is `lit` (R25, R41). The answer holds the instruction
but for later opcodes, which `buildLate` builds. -/
def decodeShape (long : Bool) (p : Pre) (w lit : IWord) : Except Bad (Option Instr) :=
  match (fld 7 25 w).toNat with
  | 0x01 => (decAlu long p w).map some
  | 0x02 => (decAluw long p w).map some
  | 0x03 => (decMul long p w).map some
  | 0x04 => (decDiv long p w).map some
  | 0x05 => (decBit long p w).map some
  | 0x06 => (decAddi long p w).map some
  | 0x07 => (decAndi long p w).map some
  | 0x08 => (decOri long p w).map some
  | 0x09 => (decXori long p w).map some
  | 0x0A => (decShi long p w).map some
  | 0x0B => (decSlti long p w).map some
  | 0x0C => (decSltin long p w).map some
  | 0x0D => (decAdpc long p w).map some
  | 0x0E => (decCmov long p w).map some
  | 0x0F => (decLil long p w lit).map some
  | 0x10 => (decLih long p w lit).map some
  | 0x11 => (decBeq long p w).map some
  | 0x12 => (decBne long p w).map some
  | 0x13 => (decBlt long p w).map some
  | 0x14 => (decBge long p w).map some
  | 0x15 => (decBltn long p w).map some
  | 0x16 => (decBgen long p w).map some
  | 0x17 => (decJal long p w).map some
  | 0x18 => (decJalr long p w).map some
  | 0x19 => (decRpt long p w).map some
  | 0x1A => (decNop long p w).map some
  | 0x1B => (decPubf long p w).map some
  | 0x1C => (decLoop long p w).map some
  | 0x1D => (decDone long p w).map some
  | 0x1E => (decActq long p w).map some
  | 0x20 => (decVaddi long p w).map some
  | 0x21 => (decVlogi long p w).map some
  | 0x22 => (decVmuli long p w).map some
  | 0x23 => (decVcmpi long p w).map some
  | 0x24 => (decVaddf long p w).map some
  | 0x25 => (decVmulf long p w).map some
  | 0x26 => (decVcmpf long p w).map some
  | 0x27 => (decVdot long p w).map some
  | 0x28 => (decVcvt long p w).map some
  | 0x29 => (decVsfu long p w).map some
  | 0x2A => (decVred long p w).map some
  | 0x2B => (decVperm long p w).map some
  | 0x2C => (decVmov long p w).map some
  | 0x2D => (decKmask long p w).map some
  | 0x2E => (decVmode long p w).map some
  | 0x2F => (decVqnt long p w).map some
  | 0x30 => (decLd long p w).map some
  | 0x31 => (decSt long p w).map some
  | 0x32 => (decVld long p w).map some
  | 0x33 => (decVst long p w).map some
  | 0x34 => (decVldx long p w).map some
  | 0x35 => (decVstx long p w).map some
  | 0x36 => (decLdt long p w).map some
  | 0x37 => (decAcc long p w).map some
  | 0x38 => (decAmo long p w).map some
  | 0x39 => (decAmsg long p w).map some
  | 0x3A => (decFence long p w).map some
  | 0x3B => lateShape (chkHint long p w)
  | 0x3C => lateShape (chkRange long p w)
  | 0x3D => lateShape (chkXfer long p w)
  | 0x3E => lateShape (chkXwait long p w)
  | 0x3F => lateShape (chkPage long p w)
  | 0x40 => lateShape (chkMlse long p w)
  | 0x41 => lateShape (chkTdef long p w)
  | 0x42 => lateShape (chkMma long p w)
  | 0x43 => lateShape (chkMmaq long p w)
  | 0x44 => lateShape (chkMacc long p w)
  | 0x45 => lateShape (chkMgang long p w)
  | 0x46 => lateShape (chkMstat long p w)
  | 0x47 => lateShape (chkXexp long p w)
  | 0x48 => lateShape (chkMbar long p w)
  | 0x49 => lateShape (chkMhnd long p w)
  | 0x4A => lateShape (chkMcfg long p w)
  | 0x50 => lateShape (chkCtx long p w)
  | 0x51 => lateShape (chkEdit long p w)
  | 0x52 => lateShape (chkWalk long p w)
  | 0x53 => lateShape (chkDmap long p w)
  | 0x54 => lateShape (chkSettle long p w)
  | 0x55 => lateShape (chkVldw long p w)
  | 0x56 => lateShape (chkVstw long p w)
  | 0x57 => lateShape (chkWave long p w)
  | 0x58 => lateShape (chkDelta long p w)
  | 0x59 => lateShape (chkKvap long p w)
  | 0x60 => lateShape (chkSend long p w)
  | 0x61 => lateShape (chkHop long p w)
  | 0x62 => lateShape (chkFork long p w)
  | 0x63 => lateShape (chkJoin long p w)
  | 0x64 => lateShape (chkTask long p w)
  | 0x65 => lateShape (chkWait long p w)
  | 0x66 => lateShape (chkBar long p w)
  | 0x67 => lateShape (chkLaunch long p w)
  | 0x68 => lateShape (chkSteal long p w)
  | 0x69 => lateShape (chkRsrv long p w)
  | 0x6A => lateShape (chkOrdq long p w)
  | 0x6B => lateShape (chkPri long p w)
  | 0x7E => .error .illegalFunction
  | _ => .error .illegalOpcode

/-- The instruction of a word of a later opcode that decodes. -/
noncomputable def buildLate (w : IWord) : Instr :=
  match (fld 7 25 w).toNat with
  | 0x3B => buildHint w
  | 0x3C => buildRange w
  | 0x3D => buildXfer w
  | 0x3E => buildXwait w
  | 0x3F => buildPage w
  | 0x40 => buildMlse w
  | 0x41 => buildTdef w
  | 0x42 => buildMma w
  | 0x43 => buildMmaq w
  | 0x44 => buildMacc w
  | 0x45 => buildMgang w
  | 0x46 => buildMstat w
  | 0x47 => buildXexp w
  | 0x48 => buildMbar w
  | 0x49 => buildMhnd w
  | 0x4A => buildMcfg w
  | 0x50 => buildCtx w
  | 0x51 => buildEdit w
  | 0x52 => buildWalk w
  | 0x53 => buildDmap w
  | 0x54 => buildSettle w
  | 0x55 => buildVldw w
  | 0x56 => buildVstw w
  | 0x57 => buildWave w
  | 0x58 => buildDelta w
  | 0x59 => buildKvap w
  | 0x60 => buildSend w
  | 0x61 => buildHop w
  | 0x62 => buildFork w
  | 0x63 => buildJoin w
  | 0x64 => buildTask w
  | 0x65 => buildWait w
  | 0x66 => buildBar w
  | 0x67 => buildLaunch w
  | 0x68 => buildSteal w
  | 0x69 => buildRsrv w
  | 0x6A => buildOrdq w
  | _ => buildPri w

/-- A base word with its prefixes decoded. -/
noncomputable def decodeBase (long : Bool) (p : Pre) (w lit : IWord) : Except Bad Instr :=
  match decodeShape long p w lit with
  | .error b => .error b
  | .ok (some i) => .ok i
  | .ok none => .ok (buildLate w)

/-- A word that is the mask prefix KMASK.NEXT (R39). -/
def isMaskWord (w : IWord) : Bool := fld 7 25 w == 0x2D#7 && fld 4 0 w == 0xF#4
/-- A word that is a MOD prefix (R36). -/
def isModWord (w : IWord) : Bool := fld 7 25 w == 0x7E#7
/-- V-format arithmetic: every V-format opcode but KMASK and VMODE (R37, R39). -/
def isVArith (w : IWord) : Bool :=
  let op := (fld 7 25 w).toNat
  decide (0x20 ≤ op) && decide (op ≤ 0x2F) && op != 0x2D && op != 0x2E
/-- The base words a mask prefix may stand before (R39). -/
def maskTakes (w : IWord) : Bool :=
  isVArith w || (fld 7 25 w) == 0x32#7 || (fld 7 25 w) == 0x33#7

/-- The fields of a MOD prefix word (R36). -/
def modOf (w lit : IWord) : Mod :=
  let c := fld 2 20 w
  { sat := w.getLsbD 24, neg := w.getLsbD 23, abs := w.getLsbD 22, clamp := c, scale := fld 5 15 w,
    nega := w.getLsbD 14, negb := w.getLsbD 13, absa := w.getLsbD 12, absb := w.getLsbD 11,
    lit := if c = 3#2 then lit else 0#32 }

/-- The number of words of a unit (R21). -/
def Instr.words (i : Instr) : Nat :=
  match i with
  | .lil _ _ _ => 2
  | .lih _ _ _ => 2
  | i => 1 + i.pre.words

/-- What the decoder answers for the words read so far. -/
inductive Decoded where
  | ok (i : Instr)
  | bad (b : Bad) (pos : Nat) (w : IWord)
  | more
  deriving DecidableEq, Repr

/-- The same before a later opcode's instruction is built: its base word stands for it. -/
inductive Shape where
  | ok (i : Option Instr) (w : IWord)
  | bad (b : Bad) (pos : Nat) (w : IWord)
  | more
  deriving DecidableEq, Repr

/-- The words of a unit that has been checked: one, for a later opcode. -/
def shapeWords : Option Instr → Nat
  | some i => i.words
  | none => 1

/-- The base word at position `pos` decoded, and its trailing word asked for when it has one (R21, R44). -/
def shapeAt (long : Bool) (p : Pre) (pos : Nat) (w : IWord) (rest : List IWord) : Shape :=
  match decodeShape long p w (rest.headD 0#32) with
  | .error b => .bad b pos w
  | .ok i =>
    let needs := fld 7 25 w == 0x0F#7 || fld 7 25 w == 0x10#7 || (match p.mod with | some m => m.clamp == 3#2 | none => false)
    if needs && rest.isEmpty then .more else .ok i w

/-- A MOD prefix at position `pos` and the words after it (R36, R37). -/
def shapeMod (long : Bool) (mask : Option (BitVec 3)) (pos : Nat) (m : IWord) : List IWord → Shape
  | [] => .more
  | w :: rest =>
    if fld 11 0 m != 0#11 then .bad .reservedField pos m
    else shapeAt long { mask := mask, mod := some (modOf m (rest.headD 0#32)) } (pos + 1) w rest

/-- Decode and check one instruction unit from its words, lowest address first (R21 to R44). `more` asks for the next word, which is fetched
only then (R44). -/
def shapeUnit (long : Bool) : List IWord → Shape
  | [] => .more
  | w :: rest =>
    if isMaskWord w then
      match rest with
      | [] => .more
      | w1 :: rest1 =>
        if isModWord w1 && rest1.isEmpty then .more
        else if fld 10 15 w != 0#10 || fld 5 4 w != 0#5 || fld 3 9 w != 0#3 then .bad .reservedField 0 w
        else if isModWord w1 then
          if isVArith (rest1.headD 0#32) then shapeMod long (some (fld 3 12 w)) 1 w1 rest1
          else .bad .illegalFunction 1 w1
        else
          match shapeAt long { mask := some (fld 3 12 w), mod := none } 1 w1 rest1 with
          | .bad .illegalOpcode pos x => .bad .illegalOpcode pos x
          | r => if maskTakes w1 then r else .bad .illegalFunction 1 w1
    else if isModWord w then shapeMod long none 0 w rest
    else shapeAt long Pre.none 0 w rest

/-- Decode one instruction unit from its words. -/
noncomputable def decodeUnit (long : Bool) (ws : List IWord) : Decoded :=
  match shapeUnit long ws with
  | .ok (some i) _ => .ok i
  | .ok none w => .ok (buildLate w)
  | .bad b pos w => .bad b pos w
  | .more => .more

/-- The words of an unsigned number, lowest first: how the opcode table numbers the bits of an instruction. -/
def wordsOf : Nat → Nat → List IWord
  | 0, _ => []
  | n + 1, w => BitVec.ofNat 32 w :: wordsOf n (w / 2 ^ 32)

/-- The instruction the decoder reads from a unit whose bits are `w` as the opcode table numbers them; bits above `nbits` are 0. -/
noncomputable def decodeTableWord (nbits w : Nat) : Option Instr :=
  match decodeUnit false (wordsOf 4 (w % 2 ^ nbits)) with
  | .ok i => some i
  | _ => match decodeUnit true (wordsOf 4 (w % 2 ^ nbits)) with
    | .ok i => some i
    | _ => none

/-- The base word of an instruction, from the encoding line of its entry; 0 for a step that has no word. -/
def encodeBase : Instr → IWord
  | .aluAdd _ s d a b => 1#7 ++ s ++ d ++ a ++ b ++ 0#7
  | .aluSub _ s d a b => 1#7 ++ s ++ d ++ a ++ b ++ 1#7
  | .aluAnd s d a b => 1#7 ++ s ++ d ++ a ++ b ++ 2#7
  | .aluOr s d a b => 1#7 ++ s ++ d ++ a ++ b ++ 3#7
  | .aluXor s d a b => 1#7 ++ s ++ d ++ a ++ b ++ 4#7
  | .aluAndn s d a b => 1#7 ++ s ++ d ++ a ++ b ++ 5#7
  | .aluOrn s d a b => 1#7 ++ s ++ d ++ a ++ b ++ 6#7
  | .aluXnor s d a b => 1#7 ++ s ++ d ++ a ++ b ++ 7#7
  | .aluShl s d a b => 1#7 ++ s ++ d ++ a ++ b ++ 8#7
  | .aluShr s d a b => 1#7 ++ s ++ d ++ a ++ b ++ 9#7
  | .aluSar s d a b => 1#7 ++ s ++ d ++ a ++ b ++ 10#7
  | .aluRol s d a b => 1#7 ++ s ++ d ++ a ++ b ++ 11#7
  | .aluRor s d a b => 1#7 ++ s ++ d ++ a ++ b ++ 12#7
  | .aluSlt s d a b => 1#7 ++ s ++ d ++ a ++ b ++ 13#7
  | .aluSltn s d a b => 1#7 ++ s ++ d ++ a ++ b ++ 14#7
  | .aluMin s d a b => 1#7 ++ s ++ d ++ a ++ b ++ 15#7
  | .aluMax s d a b => 1#7 ++ s ++ d ++ a ++ b ++ 16#7
  | .aluMinn s d a b => 1#7 ++ s ++ d ++ a ++ b ++ 17#7
  | .aluMaxn s d a b => 1#7 ++ s ++ d ++ a ++ b ++ 18#7
  | .aluAbsd _ s d a b => 1#7 ++ s ++ d ++ a ++ b ++ 19#7
  | .aluwAdd _ s d a b => 2#7 ++ s ++ d ++ a ++ b ++ 0#7
  | .aluwSub _ s d a b => 2#7 ++ s ++ d ++ a ++ b ++ 1#7
  | .aluwAnd s d a b => 2#7 ++ s ++ d ++ a ++ b ++ 2#7
  | .aluwOr s d a b => 2#7 ++ s ++ d ++ a ++ b ++ 3#7
  | .aluwXor s d a b => 2#7 ++ s ++ d ++ a ++ b ++ 4#7
  | .aluwAndn s d a b => 2#7 ++ s ++ d ++ a ++ b ++ 5#7
  | .aluwOrn s d a b => 2#7 ++ s ++ d ++ a ++ b ++ 6#7
  | .aluwXnor s d a b => 2#7 ++ s ++ d ++ a ++ b ++ 7#7
  | .aluwShl s d a b => 2#7 ++ s ++ d ++ a ++ b ++ 8#7
  | .aluwShr s d a b => 2#7 ++ s ++ d ++ a ++ b ++ 9#7
  | .aluwSar s d a b => 2#7 ++ s ++ d ++ a ++ b ++ 10#7
  | .aluwRol s d a b => 2#7 ++ s ++ d ++ a ++ b ++ 11#7
  | .aluwRor s d a b => 2#7 ++ s ++ d ++ a ++ b ++ 12#7
  | .aluwSlt s d a b => 2#7 ++ s ++ d ++ a ++ b ++ 13#7
  | .aluwSltn s d a b => 2#7 ++ s ++ d ++ a ++ b ++ 14#7
  | .aluwMin s d a b => 2#7 ++ s ++ d ++ a ++ b ++ 15#7
  | .aluwMax s d a b => 2#7 ++ s ++ d ++ a ++ b ++ 16#7
  | .aluwMinn s d a b => 2#7 ++ s ++ d ++ a ++ b ++ 17#7
  | .aluwMaxn s d a b => 2#7 ++ s ++ d ++ a ++ b ++ 18#7
  | .aluwAbsd _ s d a b => 2#7 ++ s ++ d ++ a ++ b ++ 19#7
  | .mulLo _ s d a b => 3#7 ++ s ++ d ++ a ++ b ++ 0#7
  | .mulHi s d a b => 3#7 ++ s ++ d ++ a ++ b ++ 1#7
  | .mulHin s d a b => 3#7 ++ s ++ d ++ a ++ b ++ 2#7
  | .mulHisn s d a b => 3#7 ++ s ++ d ++ a ++ b ++ 3#7
  | .mulW _ s d a b => 3#7 ++ s ++ d ++ a ++ b ++ 4#7
  | .mulWn s d a b => 3#7 ++ s ++ d ++ a ++ b ++ 5#7
  | .divQ s d a b => 4#7 ++ s ++ d ++ a ++ b ++ 0#7
  | .divQn s d a b => 4#7 ++ s ++ d ++ a ++ b ++ 1#7
  | .divRem s d a b => 4#7 ++ s ++ d ++ a ++ b ++ 2#7
  | .divRemn s d a b => 4#7 ++ s ++ d ++ a ++ b ++ 3#7
  | .divQw s d a b => 4#7 ++ s ++ d ++ a ++ b ++ 4#7
  | .divQnw s d a b => 4#7 ++ s ++ d ++ a ++ b ++ 5#7
  | .divRemw s d a b => 4#7 ++ s ++ d ++ a ++ b ++ 6#7
  | .divRemnw s d a b => 4#7 ++ s ++ d ++ a ++ b ++ 7#7
  | .bitClz s d a => 5#7 ++ s ++ d ++ a ++ 0#12
  | .bitCtz s d a => 5#7 ++ s ++ d ++ a ++ 1#12
  | .bitPopc s d a => 5#7 ++ s ++ d ++ a ++ 2#12
  | .bitBrev s d a => 5#7 ++ s ++ d ++ a ++ 3#12
  | .bitBswap s d a => 5#7 ++ s ++ d ++ a ++ 4#12
  | .bitSext8 s d a => 5#7 ++ s ++ d ++ a ++ 5#12
  | .bitSext16 s d a => 5#7 ++ s ++ d ++ a ++ 6#12
  | .bitSext32 s d a => 5#7 ++ s ++ d ++ a ++ 7#12
  | .bitZext8 s d a => 5#7 ++ s ++ d ++ a ++ 8#12
  | .bitZext16 s d a => 5#7 ++ s ++ d ++ a ++ 9#12
  | .bitZext32 s d a => 5#7 ++ s ++ d ++ a ++ 10#12
  | .bitExtr s d a b => 5#7 ++ s ++ d ++ a ++ b ++ 11#7
  | .bitExtrn s d a b => 5#7 ++ s ++ d ++ a ++ b ++ 12#7
  | .bitDep s d a b => 5#7 ++ s ++ d ++ a ++ b ++ 13#7
  | .cmovNz _ s d a b => 14#7 ++ s ++ d ++ a ++ b ++ 0#7
  | .cmovZ _ s d a b => 14#7 ++ s ++ d ++ a ++ b ++ 1#7
  | .cmovLt _ s d a b => 14#7 ++ s ++ d ++ a ++ b ++ 2#7
  | .cmovGe _ s d a b => 14#7 ++ s ++ d ++ a ++ b ++ 3#7
  | .addi s d a i => 6#7 ++ s ++ d ++ a ++ i
  | .andi s d a i => 7#7 ++ s ++ d ++ a ++ i
  | .ori s d a i => 8#7 ++ s ++ d ++ a ++ i
  | .xori s d a i => 9#7 ++ s ++ d ++ a ++ i
  | .slti s d a i => 11#7 ++ s ++ d ++ a ++ i
  | .sltin s d a i => 12#7 ++ s ++ d ++ a ++ i
  | .shiShl s d a w h => 10#7 ++ s ++ d ++ a ++ 0#2 ++ w ++ 0#3 ++ h
  | .shiShr s d a w h => 10#7 ++ s ++ d ++ a ++ 1#2 ++ w ++ 0#3 ++ h
  | .shiSar s d a w h => 10#7 ++ s ++ d ++ a ++ 2#2 ++ w ++ 0#3 ++ h
  | .shiRor s d a w h => 10#7 ++ s ++ d ++ a ++ 3#2 ++ w ++ 0#3 ++ h
  | .lil s d _ => 15#7 ++ s ++ d ++ 0#17
  | .lih s d _ => 16#7 ++ s ++ d ++ 0#17
  | .adpc s d o => 13#7 ++ s ++ d ++ o
  | .beq s a b o => 17#7 ++ s ++ a ++ b ++ o
  | .bne s a b o => 18#7 ++ s ++ a ++ b ++ o
  | .blt s a b o => 19#7 ++ s ++ a ++ b ++ o
  | .bge s a b o => 20#7 ++ s ++ a ++ b ++ o
  | .bltn s a b o => 21#7 ++ s ++ a ++ b ++ o
  | .bgen s a b o => 22#7 ++ s ++ a ++ b ++ o
  | .loop s a b o => 28#7 ++ s ++ a ++ b ++ o
  | .jal s d o => 23#7 ++ s ++ d ++ o
  | .jalr s d a i => 24#7 ++ s ++ d ++ a ++ i
  | .rpt s a l d p b w => 25#7 ++ s ++ a ++ l ++ d ++ p ++ b ++ w
  | .nop s => 26#7 ++ s ++ 0#22
  | .srd s d n => 26#7 ++ s ++ d ++ n ++ 1#7
  | .swr s d n => 26#7 ++ s ++ d ++ n ++ 2#7
  | .trap s c => 26#7 ++ s ++ 0#5 ++ c ++ 3#7
  | .brk s c => 26#7 ++ s ++ 0#5 ++ c ++ 4#7
  | .eret s => 26#7 ++ s ++ 5#22
  | .yield s => 26#7 ++ s ++ 6#22
  | .getid s d x => 26#7 ++ s ++ d ++ 0#5 ++ x ++ 7#7
  | .pubf s a b c => 27#7 ++ s ++ 0#5 ++ a ++ b ++ 0#4 ++ c
  | .done s => 29#7 ++ s ++ 0#22
  | .doneDec s a => 29#7 ++ s ++ 0#5 ++ a ++ 1#12
  | .actqEntry s d => 30#7 ++ s ++ d ++ 0#17
  | .actqKind s d => 30#7 ++ s ++ d ++ 1#17
  | .actqSendt s d => 30#7 ++ s ++ d ++ 2#17
  | .actqArrt s d => 30#7 ++ s ++ d ++ 3#17
  | .actqStartt s d => 30#7 ++ s ++ d ++ 4#17
  | .actqPend s d a => 30#7 ++ s ++ d ++ a ++ 5#12
  | .actqDeq s d => 30#7 ++ s ++ d ++ 6#17
  | .ld s t a z m o => 48#7 ++ s ++ t ++ a ++ z ++ m ++ o
  | .st s t a z m o => 49#7 ++ s ++ t ++ a ++ z ++ m ++ o
  | .vaddiAdd _ s d a b e => 32#7 ++ s ++ d ++ a ++ b ++ e ++ 0#4
  | .vaddiSub _ s d a b e => 32#7 ++ s ++ d ++ a ++ b ++ e ++ 1#4
  | .vaddiMin _ s d a b e => 32#7 ++ s ++ d ++ a ++ b ++ e ++ 2#4
  | .vaddiMax _ s d a b e => 32#7 ++ s ++ d ++ a ++ b ++ e ++ 3#4
  | .vaddiAbsd _ s d a b e => 32#7 ++ s ++ d ++ a ++ b ++ e ++ 4#4
  | .vaddiAvg _ s d a b e => 32#7 ++ s ++ d ++ a ++ b ++ e ++ 5#4
  | .vaddiNeg _ s d a e => 32#7 ++ s ++ d ++ a ++ 0#5 ++ e ++ 6#4
  | .vaddiAbs _ s d a e => 32#7 ++ s ++ d ++ a ++ 0#5 ++ e ++ 7#4
  | .vlogiAnd _ s d a b e => 33#7 ++ s ++ d ++ a ++ b ++ e ++ 0#4
  | .vlogiOr _ s d a b e => 33#7 ++ s ++ d ++ a ++ b ++ e ++ 1#4
  | .vlogiXor _ s d a b e => 33#7 ++ s ++ d ++ a ++ b ++ e ++ 2#4
  | .vlogiAndn _ s d a b e => 33#7 ++ s ++ d ++ a ++ b ++ e ++ 3#4
  | .vlogiShl _ s d a b e => 33#7 ++ s ++ d ++ a ++ b ++ e ++ 4#4
  | .vlogiShr _ s d a b e => 33#7 ++ s ++ d ++ a ++ b ++ e ++ 5#4
  | .vlogiSar _ s d a b e => 33#7 ++ s ++ d ++ a ++ b ++ e ++ 6#4
  | .vlogiRol _ s d a b e => 33#7 ++ s ++ d ++ a ++ b ++ e ++ 7#4
  | .vlogiRor _ s d a b e => 33#7 ++ s ++ d ++ a ++ b ++ e ++ 8#4
  | .vlogiNot _ s d a e => 33#7 ++ s ++ d ++ a ++ 0#5 ++ e ++ 9#4
  | .vlogiPopc _ s d a e => 33#7 ++ s ++ d ++ a ++ 0#5 ++ e ++ 10#4
  | .vlogiClz _ s d a e => 33#7 ++ s ++ d ++ a ++ 0#5 ++ e ++ 11#4
  | .vmuliLo _ s d a b e => 34#7 ++ s ++ d ++ a ++ b ++ e ++ 0#4
  | .vmuliHi _ s d a b e => 34#7 ++ s ++ d ++ a ++ b ++ e ++ 1#4
  | .vmuliMac _ s d a b e => 34#7 ++ s ++ d ++ a ++ b ++ e ++ 2#4
  | .vmuliMsb _ s d a b e => 34#7 ++ s ++ d ++ a ++ b ++ e ++ 3#4
  | .vcmpiEq _ s d a b e => 35#7 ++ s ++ d ++ a ++ b ++ e ++ 0#4
  | .vcmpiNe _ s d a b e => 35#7 ++ s ++ d ++ a ++ b ++ e ++ 1#4
  | .vcmpiLt _ s d a b e => 35#7 ++ s ++ d ++ a ++ b ++ e ++ 2#4
  | .vcmpiLe _ s d a b e => 35#7 ++ s ++ d ++ a ++ b ++ e ++ 3#4
  | .vcmpiGt _ s d a b e => 35#7 ++ s ++ d ++ a ++ b ++ e ++ 4#4
  | .vcmpiGe _ s d a b e => 35#7 ++ s ++ d ++ a ++ b ++ e ++ 5#4
  | .vaddfAdd _ s d a b e => 36#7 ++ s ++ d ++ a ++ b ++ e ++ 0#4
  | .vaddfSub _ s d a b e => 36#7 ++ s ++ d ++ a ++ b ++ e ++ 1#4
  | .vaddfMin _ s d a b e => 36#7 ++ s ++ d ++ a ++ b ++ e ++ 2#4
  | .vaddfMax _ s d a b e => 36#7 ++ s ++ d ++ a ++ b ++ e ++ 3#4
  | .vmulfMul _ s d a b e => 37#7 ++ s ++ d ++ a ++ b ++ e ++ 0#4
  | .vmulfFma _ s d a b e => 37#7 ++ s ++ d ++ a ++ b ++ e ++ 1#4
  | .vmulfFms _ s d a b e => 37#7 ++ s ++ d ++ a ++ b ++ e ++ 2#4
  | .vcmpfEq _ s d a b e => 38#7 ++ s ++ d ++ a ++ b ++ e ++ 0#4
  | .vcmpfNe _ s d a b e => 38#7 ++ s ++ d ++ a ++ b ++ e ++ 1#4
  | .vcmpfLt _ s d a b e => 38#7 ++ s ++ d ++ a ++ b ++ e ++ 2#4
  | .vcmpfLe _ s d a b e => 38#7 ++ s ++ d ++ a ++ b ++ e ++ 3#4
  | .vcmpfGt _ s d a b e => 38#7 ++ s ++ d ++ a ++ b ++ e ++ 4#4
  | .vcmpfGe _ s d a b e => 38#7 ++ s ++ d ++ a ++ b ++ e ++ 5#4
  | .vcmpfUn _ s d a b e => 38#7 ++ s ++ d ++ a ++ b ++ e ++ 6#4
  | .vdot _ s d a b e => 39#7 ++ s ++ d ++ a ++ b ++ e ++ 0#4
  | .vdotAcc _ s d a b e => 39#7 ++ s ++ d ++ a ++ b ++ e ++ 1#4
  | .vdotI8 _ s d a b => 39#7 ++ s ++ d ++ a ++ b ++ 2#7
  | .vdotAccI8 _ s d a b => 39#7 ++ s ++ d ++ a ++ b ++ 3#7
  | .vdotI4 _ s d a b => 39#7 ++ s ++ d ++ a ++ b ++ 4#7
  | .vdotAccI4 _ s d a b => 39#7 ++ s ++ d ++ a ++ b ++ 5#7
  | .vcvt _ s d a x y t e i m => 40#7 ++ s ++ d ++ a ++ x ++ y ++ t ++ e ++ i ++ 0#1 ++ m
  | .vsfuRcp _ s d a e => 41#7 ++ s ++ d ++ a ++ 0#5 ++ e ++ 0#4
  | .vsfuRsqrt _ s d a e => 41#7 ++ s ++ d ++ a ++ 0#5 ++ e ++ 1#4
  | .vsfuSqrt _ s d a e => 41#7 ++ s ++ d ++ a ++ 0#5 ++ e ++ 2#4
  | .vsfuExp2 _ s d a e => 41#7 ++ s ++ d ++ a ++ 0#5 ++ e ++ 3#4
  | .vsfuLog2 _ s d a e => 41#7 ++ s ++ d ++ a ++ 0#5 ++ e ++ 4#4
  | .vsfuExp _ s d a e => 41#7 ++ s ++ d ++ a ++ 0#5 ++ e ++ 5#4
  | .vsfuLn _ s d a e => 41#7 ++ s ++ d ++ a ++ 0#5 ++ e ++ 6#4
  | .vsfuSinpi _ s d a e => 41#7 ++ s ++ d ++ a ++ 0#5 ++ e ++ 7#4
  | .vsfuCospi _ s d a e => 41#7 ++ s ++ d ++ a ++ 0#5 ++ e ++ 8#4
  | .vsfuTanh _ s d a e => 41#7 ++ s ++ d ++ a ++ 0#5 ++ e ++ 9#4
  | .vsfuSigm _ s d a e => 41#7 ++ s ++ d ++ a ++ 0#5 ++ e ++ 10#4
  | .vsfuSilu _ s d a e => 41#7 ++ s ++ d ++ a ++ 0#5 ++ e ++ 11#4
  | .vredSum _ s d a e => 42#7 ++ s ++ d ++ a ++ 0#5 ++ e ++ 0#4
  | .vredMax _ s d a e => 42#7 ++ s ++ d ++ a ++ 0#5 ++ e ++ 1#4
  | .vredMin _ s d a e => 42#7 ++ s ++ d ++ a ++ 0#5 ++ e ++ 2#4
  | .vredSumi _ s d a t => 42#7 ++ s ++ d ++ a ++ 0#2 ++ t ++ 3#7
  | .vredMaxi _ s d a t => 42#7 ++ s ++ d ++ a ++ 0#2 ++ t ++ 4#7
  | .vredMini _ s d a t => 42#7 ++ s ++ d ++ a ++ 0#2 ++ t ++ 5#7
  | .vredAndi _ s d a t => 42#7 ++ s ++ d ++ a ++ 0#2 ++ t ++ 6#7
  | .vredOri _ s d a t => 42#7 ++ s ++ d ++ a ++ 0#2 ++ t ++ 7#7
  | .vredXori _ s d a t => 42#7 ++ s ++ d ++ a ++ 0#2 ++ t ++ 8#7
  | .vpermTbl _ s d a b e => 43#7 ++ s ++ d ++ a ++ b ++ e ++ 0#4
  | .vpermTbl2 _ s d a b e => 43#7 ++ s ++ d ++ a ++ b ++ e ++ 1#4
  | .vpermBcast _ s d a c e => 43#7 ++ s ++ d ++ a ++ c ++ e ++ 2#4
  | .vpermSlup _ s d a c e => 43#7 ++ s ++ d ++ a ++ c ++ e ++ 3#4
  | .vpermSldn _ s d a c e => 43#7 ++ s ++ d ++ a ++ c ++ e ++ 4#4
  | .vpermZiplo _ s d a b e => 43#7 ++ s ++ d ++ a ++ b ++ e ++ 5#4
  | .vpermZiphi _ s d a b e => 43#7 ++ s ++ d ++ a ++ b ++ e ++ 6#4
  | .vpermUnze _ s d a b e => 43#7 ++ s ++ d ++ a ++ b ++ e ++ 7#4
  | .vpermUnzo _ s d a b e => 43#7 ++ s ++ d ++ a ++ b ++ e ++ 8#4
  | .vpermRev _ s d a e => 43#7 ++ s ++ d ++ a ++ 0#5 ++ e ++ 9#4
  | .vpermCmpr _ s d a e => 43#7 ++ s ++ d ++ a ++ 0#5 ++ e ++ 10#4
  | .vmov _ s d a e => 44#7 ++ s ++ d ++ a ++ 0#5 ++ e ++ 0#4
  | .vmovBcg _ s d a e => 44#7 ++ s ++ d ++ a ++ 0#5 ++ e ++ 1#4
  | .vmovInsg _ s d a c e => 44#7 ++ s ++ d ++ a ++ c ++ e ++ 2#4
  | .vmovExtg _ s d a c e => 44#7 ++ s ++ d ++ a ++ c ++ e ++ 3#4
  | .vmovGetv _ s d a e => 44#7 ++ s ++ d ++ a ++ 0#5 ++ e ++ 4#4
  | .vmovSetv _ s d a e => 44#7 ++ s ++ d ++ a ++ 0#5 ++ e ++ 5#4
  | .kmaskAnd s d a b => 45#7 ++ s ++ d ++ a ++ b ++ 0#7
  | .kmaskOr s d a b => 45#7 ++ s ++ d ++ a ++ b ++ 1#7
  | .kmaskXor s d a b => 45#7 ++ s ++ d ++ a ++ b ++ 2#7
  | .kmaskAndn s d a b => 45#7 ++ s ++ d ++ a ++ b ++ 3#7
  | .kmaskNot s d a => 45#7 ++ s ++ d ++ a ++ 4#12
  | .kmaskFromg s d a p => 45#7 ++ s ++ d ++ a ++ 0#2 ++ p ++ 5#7
  | .kmaskTog s d a p => 45#7 ++ s ++ d ++ a ++ 0#2 ++ p ++ 6#7
  | .kmaskPopc s d a e => 45#7 ++ s ++ d ++ a ++ 0#5 ++ e ++ 7#4
  | .kmaskFirst s d a e => 45#7 ++ s ++ d ++ a ++ 0#5 ++ e ++ 8#4
  | .kmaskFill s d a e => 45#7 ++ s ++ d ++ a ++ 0#5 ++ e ++ 9#4
  | .kmaskMov s d a => 45#7 ++ s ++ d ++ a ++ 10#12
  | .vmodeShort s => 46#7 ++ s ++ 0#22
  | .vmodeLong s => 46#7 ++ s ++ 1#22
  | .vqnt _ s d a e g => 47#7 ++ s ++ d ++ a ++ 0#5 ++ e ++ 0#2 ++ g
  | .vld _ s t a z m o => 50#7 ++ s ++ t ++ a ++ z ++ m ++ o
  | .vst _ s t a z m o => 51#7 ++ s ++ t ++ a ++ z ++ m ++ o
  | .vldx s d a b k c g w => 52#7 ++ s ++ d ++ a ++ b ++ k ++ c ++ g ++ w
  | .vstx s d a b k c g w => 53#7 ++ s ++ d ++ a ++ b ++ k ++ c ++ g ++ w
  | .ldt s t a z o => 54#7 ++ s ++ t ++ a ++ z ++ 0#2 ++ o
  | .acc s t a z o => 55#7 ++ s ++ t ++ a ++ 0#1 ++ z ++ 0#2 ++ o
  | .accVec s t a z o => 55#7 ++ s ++ t ++ a ++ 1#1 ++ z ++ 0#2 ++ o
  | .amoAdd s d a b w => 56#7 ++ s ++ d ++ a ++ b ++ 0#2 ++ w ++ 0#4
  | .amoMin s d a b w => 56#7 ++ s ++ d ++ a ++ b ++ 0#2 ++ w ++ 1#4
  | .amoMax s d a b w => 56#7 ++ s ++ d ++ a ++ b ++ 0#2 ++ w ++ 2#4
  | .amoMinn s d a b w => 56#7 ++ s ++ d ++ a ++ b ++ 0#2 ++ w ++ 3#4
  | .amoMaxn s d a b w => 56#7 ++ s ++ d ++ a ++ b ++ 0#2 ++ w ++ 4#4
  | .amoAnd s d a b w => 56#7 ++ s ++ d ++ a ++ b ++ 0#2 ++ w ++ 5#4
  | .amoOr s d a b w => 56#7 ++ s ++ d ++ a ++ b ++ 0#2 ++ w ++ 6#4
  | .amoXor s d a b w => 56#7 ++ s ++ d ++ a ++ b ++ 0#2 ++ w ++ 7#4
  | .amoSwap s d a b w => 56#7 ++ s ++ d ++ a ++ b ++ 0#2 ++ w ++ 8#4
  | .amoCas s d a b w => 56#7 ++ s ++ d ++ a ++ b ++ 0#2 ++ w ++ 9#4
  | .amoFadd s d a b => 56#7 ++ s ++ d ++ a ++ b ++ 10#7
  | .amoFmin s d a b => 56#7 ++ s ++ d ++ a ++ b ++ 11#7
  | .amsg s d a b c => 57#7 ++ s ++ d ++ a ++ b ++ 0#4 ++ c
  | .fence s => 58#7 ++ s ++ 0#22
  | .fenceDrain s c => 58#7 ++ s ++ 1#19 ++ c
  | .fenceEng s => 58#7 ++ s ++ 16#22
  | .hintL1 s a o => 59#7 ++ s ++ 0#5 ++ a ++ 0#5 ++ o
  | .hintClu s a o => 59#7 ++ s ++ 0#5 ++ a ++ 4#5 ++ o
  | .hintMsc s a o => 59#7 ++ s ++ 0#5 ++ a ++ 8#5 ++ o
  | .hintCrate s a o => 59#7 ++ s ++ 0#5 ++ a ++ 12#5 ++ o
  | .hintLast s a o => 59#7 ++ s ++ 0#5 ++ a ++ 16#5 ++ o
  | .hintCnt s t => 59#7 ++ s ++ t ++ 2560#17
  | .rangeDecl s d a => 60#7 ++ s ++ d ++ a ++ 0#12
  | .rangeBound s a b => 60#7 ++ s ++ 0#5 ++ a ++ b ++ 1#7
  | .rangeDrain s a => 60#7 ++ s ++ 0#5 ++ a ++ 2#12
  | .rangeFree s a => 60#7 ++ s ++ 0#5 ++ a ++ 3#12
  | .xferCopy s d a b => 61#7 ++ s ++ d ++ a ++ b ++ 0#7
  | .xferGather s d a b => 61#7 ++ s ++ d ++ a ++ b ++ 1#7
  | .xferScatter s d a b => 61#7 ++ s ++ d ++ a ++ b ++ 2#7
  | .xferFill s d a b => 61#7 ++ s ++ d ++ a ++ b ++ 3#7
  | .xferQcopy s d a b => 61#7 ++ s ++ d ++ a ++ b ++ 4#7
  | .xferRgather s d a b => 61#7 ++ s ++ d ++ a ++ b ++ 5#7
  | .xwaitOne s a b => 62#7 ++ s ++ 0#5 ++ a ++ b ++ 0#7
  | .xwaitAll s b => 62#7 ++ s ++ 0#10 ++ b ++ 1#7
  | .xwaitTest s d a b => 62#7 ++ s ++ d ++ a ++ b ++ 2#7
  | .pageInvp s d a b => 63#7 ++ s ++ d ++ a ++ b ++ 0#7
  | .pageInvk s d b => 63#7 ++ s ++ d ++ 0#5 ++ b ++ 1#7
  | .pageInva s d => 63#7 ++ s ++ d ++ 2#17
  | .pageBias s d a b => 63#7 ++ s ++ d ++ a ++ b ++ 3#7
  | .pageResume s d a b => 63#7 ++ s ++ d ++ a ++ b ++ 4#7
  | .pageKret s d b => 63#7 ++ s ++ d ++ 0#5 ++ b ++ 5#7
  | .mlseAcq s => 64#7 ++ s ++ 0#22
  | .mlseTry s d => 64#7 ++ s ++ d ++ 1#17
  | .mlseRel s => 64#7 ++ s ++ 2#22
  | .mlseJoin s d a => 64#7 ++ s ++ d ++ a ++ 3#12
  | .tdefSet s d a b => 65#7 ++ s ++ d ++ a ++ b ++ 0#7
  | .tdefGet s a b => 65#7 ++ s ++ 0#5 ++ a ++ b ++ 1#7
  | .tdefClr s b => 65#7 ++ s ++ 0#10 ++ b ++ 2#7
  | .mmaNew s a p => 66#7 ++ s ++ 0#5 ++ a ++ 0#11 ++ p
  | .mmaAcc s a p => 66#7 ++ s ++ 0#5 ++ a ++ 1#11 ++ p
  | .mmaqNew s a p => 67#7 ++ s ++ 0#5 ++ a ++ 0#11 ++ p
  | .mmaqAcc s a p => 67#7 ++ s ++ 0#5 ++ a ++ 1#11 ++ p
  | .maccSt s a x p => 68#7 ++ s ++ 0#5 ++ a ++ 0#8 ++ x ++ 0#2 ++ p
  | .maccDrain s a x p => 68#7 ++ s ++ 0#5 ++ a ++ 0#8 ++ x ++ 1#2 ++ p
  | .mgangForm s d a => 69#7 ++ s ++ d ++ a ++ 0#12
  | .mgangDiss s d => 69#7 ++ s ++ d ++ 1#17
  | .mstat s d => 70#7 ++ s ++ d ++ 0#17
  | .mstatWait s d => 70#7 ++ s ++ d ++ 1#17
  | .xexp s a n f p => 71#7 ++ s ++ 0#5 ++ a ++ 0#8 ++ n ++ f ++ p
  | .mbar s => 72#7 ++ s ++ 0#22
  | .mhndSet s a b => 73#7 ++ s ++ 0#5 ++ a ++ b ++ 0#7
  | .mhndClr s => 73#7 ++ s ++ 1#22
  | .mcfgGet s d => 74#7 ++ s ++ d ++ 0#17
  | .mcfgRun s d a => 74#7 ++ s ++ d ++ a ++ 1#12
  | .ctxNew s d a => 80#7 ++ s ++ d ++ a ++ 0#12
  | .ctxFork s d a => 80#7 ++ s ++ d ++ a ++ 1#12
  | .ctxFree s a => 80#7 ++ s ++ 0#5 ++ a ++ 2#12
  | .ctxInfo s d a => 80#7 ++ s ++ d ++ a ++ 3#12
  | .editIns s d a b => 81#7 ++ s ++ d ++ a ++ b ++ 0#7
  | .editDel s d a => 81#7 ++ s ++ d ++ a ++ 1#12
  | .editRep s d a b => 81#7 ++ s ++ d ++ a ++ b ++ 2#7
  | .walk s d a => 82#7 ++ s ++ d ++ a ++ 0#12
  | .dmapGet s d a => 83#7 ++ s ++ d ++ a ++ 0#12
  | .dmapThr s a b => 83#7 ++ s ++ 0#5 ++ a ++ b ++ 1#7
  | .dmapCnt s d a => 83#7 ++ s ++ d ++ a ++ 2#12
  | .settle s a b => 84#7 ++ s ++ 0#5 ++ a ++ b ++ 0#7
  | .settleTry s d a b => 84#7 ++ s ++ d ++ a ++ b ++ 1#7
  | .vldwSnap s d a b y => 85#7 ++ s ++ d ++ a ++ b ++ 0#4 ++ y ++ 0#2
  | .vldwCur s d a b y => 85#7 ++ s ++ d ++ a ++ b ++ 0#4 ++ y ++ 1#2
  | .vldwSettled s d a b y => 85#7 ++ s ++ d ++ a ++ b ++ 0#4 ++ y ++ 2#2
  | .vstw s d a y => 86#7 ++ s ++ d ++ a ++ 0#9 ++ y ++ 0#2
  | .waveBind s d a b => 87#7 ++ s ++ d ++ a ++ b ++ 0#7
  | .waveNext s d a b => 87#7 ++ s ++ d ++ a ++ b ++ 1#7
  | .delta s d => 88#7 ++ s ++ d ++ 0#17
  | .kvapPool s d a b => 89#7 ++ s ++ d ++ a ++ b ++ 0#7
  | .kvapApp s d a b => 89#7 ++ s ++ d ++ a ++ b ++ 1#7
  | .send s d a b c => 96#7 ++ s ++ d ++ a ++ b ++ 0#3 ++ c
  | .sendB s d a b c => 96#7 ++ s ++ d ++ a ++ b ++ 1#3 ++ c
  | .hop s a b => 97#7 ++ s ++ 0#5 ++ a ++ b ++ 0#7
  | .fork s d a b x c => 98#7 ++ s ++ d ++ a ++ b ++ x ++ c
  | .join s d a b => 99#7 ++ s ++ d ++ a ++ b ++ 0#7
  | .task s d a b c => 100#7 ++ s ++ d ++ a ++ b ++ 0#3 ++ c
  | .wait s d a => 101#7 ++ s ++ d ++ a ++ 0#12
  | .barInit s d a b => 102#7 ++ s ++ d ++ a ++ b ++ 0#7
  | .barArr s d a => 102#7 ++ s ++ d ++ a ++ 1#12
  | .barWait s d a b => 102#7 ++ s ++ d ++ a ++ b ++ 2#7
  | .barSync s d a => 102#7 ++ s ++ d ++ a ++ 3#12
  | .launch s d a b c => 103#7 ++ s ++ d ++ a ++ b ++ 0#3 ++ c
  | .launchAt s d a b c => 103#7 ++ s ++ d ++ a ++ b ++ 1#3 ++ c
  | .steal s d a => 104#7 ++ s ++ d ++ a ++ 0#12
  | .rsrvPin s d a b => 105#7 ++ s ++ d ++ a ++ b ++ 0#7
  | .rsrvUnpin s d a b => 105#7 ++ s ++ d ++ a ++ b ++ 16#7
  | .rsrvPut s d a b c => 105#7 ++ s ++ d ++ a ++ b ++ 2#3 ++ c
  | .ordqVt s d => 106#7 ++ s ++ d ++ 0#17
  | .ordqLen s d => 106#7 ++ s ++ d ++ 1#17
  | .ordqHead s d => 106#7 ++ s ++ d ++ 2#17
  | .ordqSpec s d => 106#7 ++ s ++ d ++ 3#17
  | .ordqRset s d => 106#7 ++ s ++ d ++ 4#17
  | .pri s d a => 107#7 ++ s ++ d ++ a ++ 0#12
  | _ => 0#32

/-- A Bool as one bit. -/
def bit (b : Bool) : BitVec 1 := if b then 1#1 else 0#1

/-- The MOD prefix word (R36). -/
def encodeMod (m : Mod) : IWord :=
  0x7E#7 ++ bit m.sat ++ bit m.neg ++ bit m.abs ++ m.clamp ++ m.scale ++ bit m.nega ++ bit m.negb ++ bit m.absa ++ bit m.absb ++ 0#11

/-- The mask prefix word naming k(m) (R39). -/
def encodeMask (m : BitVec 3) : IWord := 0x2D#7 ++ 0#10 ++ m ++ 0#8 ++ 0xF#4

/-- The prefix words of a unit. -/
def encodePre (p : Pre) : List IWord :=
  (match p.mask with | some m => [encodeMask m] | none => []) ++ (match p.mod with | some m => [encodeMod m] | none => [])

/-- The trailing word of a unit: an L-format literal or a clamp literal (R21). -/
def encodeLit (i : Instr) : List IWord :=
  match i with
  | .lil _ _ lit => [lit]
  | .lih _ _ lit => [lit]
  | i => match i.pre.mod with
    | some m => if m.clamp = 3#2 then [m.lit] else []
    | none => []

/-- The words of a well-formed instruction unit, lowest address first. -/
def encode (i : Instr) : List IWord := encodePre i.pre ++ encodeBase i :: encodeLit i

/-- TRAPVAL of a decode fault: the offending word and its position in the unit (R44). -/
def decodeVal (pos : Nat) (w : IWord) : Word := (w.setWidth 64) ||| (BitVec.ofNat 64 (pos % 4) <<< 32)

/-- The stall count of a unit (R25): bits 24 to 22 of its base word. -/
def Instr.stl (i : Instr) : Nat := (fld 3 22 (encodeBase i)).toNat

end Sys2Proof
end

