-- ==== Sys2Proof/Machine/Fetch.lean ====
section
/-! DEFINITION. Instruction fetch and repeat frames (08_core_fetch, R151 to R155; 05_core_model, R94; 06_core_scalar, R118 and R119). -/
namespace Sys2Proof.Machine
open Sys2Proof

/-- A fetched word, or why there is none: a fault with its TRAPVAL, or a wait. -/
inductive FetchWord where
  | word (w : IWord) (s : State)
  | fault (cause : Byte) (val : Word)
  | wait (r : Res)

/-- A fetched and decoded unit, or why there is none; of a later opcode, only its word (see Decode). -/
inductive FetchUnit where
  | unit (i : Option Instr) (w : IWord) (s : State)
  | fault (cause : Byte) (val : Word)
  | wait (r : Res)

namespace State

/-- One word of a unit at `va` (R151, R152): PAGE_INVALID, EXEC_PERMISSION, HALFPUB, MEMERR, EXTENT_GONE, in that order; an absent page
parks and a reserved line waits. Of a line of a commutative range it reads the stored bytes, and forces no sharer: R190 and R221 name no fetch among the
loads of a range (DESIGN CHOICE, log entry 111). -/
def fetchWord (s : State) (va j : Nat) : FetchWord :=
  let a := BitVec.ofNat 64 (va % 2 ^ 56)
  match s.headFault s.me 0 a 1 with
  | some c => .fault c a
  | none =>
    match s.place s.me .fetch 0 a.toNat (64 + j) with
    | .fault c => .fault c a
    | .busy => .wait s.hold
    | .absent k p =>
      if s.waitNow.parked = some (k, p) then .wait s.hold
      else .wait (s.parkCtx k p 2 a)
    | .at loc tr =>
      if s.lineHeld (lineOf loc) then .wait s.hold
      else if s.openFor (lineOf loc) s.site then .fault 0x0B#8 a
      else match s.mediaFault true [(loc, 4)] with
        | some (_, c) => .fault c a
        | none => .word (BitVec.ofNat 32 (bytesToNat (s.rdN loc 4))) ((s.keepLeaves s.ctx.ask.toNat tr.toList).touch [lineOf loc])

/-- Words of the unit at `va` until the decoder has enough; `ws` are the words so far and `n` bounds those to come. -/
def fetchMore (s : State) (va : Nat) (ws : List IWord) : Nat → FetchUnit
  | 0 => .wait s.hold
  | n + 1 =>
    match s.fetchWord (va + 4 * ws.length) ws.length with
    | .fault c v => .fault c v
    | .wait r => .wait r
    | .word w s =>
      match shapeUnit s.ctx.long (ws ++ [w]) with
      | .ok i x => .unit i x s
      | .bad b pos x => .fault b.cause (decodeVal pos x)
      | .more => fetchMore s va (ws ++ [w]) n

/-- Fetch and decode the unit at `va` (R21, R44, R153). The fetch is an event (R69): it waits for the core's voluntary drains (R224). -/
def fetchUnit (s : State) (va : Nat) : FetchUnit := if s.drainsOut then .wait s.hold else s.fetchMore va [] 6

end State

/-! ## Repeat frames -/

/-- Fields d, a and b of a base word. -/
def withFields (w : IWord) (d a b : Nat) : IWord :=
  BitVec.ofNat 32 (w.toNat / 2 ^ 22 * 2 ^ 22 + d % 32 * 2 ^ 17 + a % 32 * 2 ^ 12 + b % 32 * 2 ^ 7 + w.toNat % 2 ^ 7)
/-- The fields of a captured unit on pass p, before wrapping (R94). -/
def passFields (f : Frame) (p : Nat) (w : IWord) : Nat × Nat × Nat :=
  ((fld 5 17 w).toNat + p * f.sd.toNat, (fld 5 12 w).toNat + p * f.sa.toNat, (fld 5 7 w).toNat + p * f.sb.toNat)
/-- The captured unit as pass p issues it, decoded (R94). -/
def stagger (long : Bool) (f : Frame) (p : Nat) (i : Instr) : Except Bad (Option Instr) :=
  let w := encodeBase i
  let (d, a, b) := passFields f p w
  decodeShape long i.pre (withFields w d a b) 0#32

/-- A base word that may stand in a frame (R119, check 3): G-format or V-format arithmetic. -/
def frameUnit (w : IWord) : Bool :=
  let op := (fld 7 25 w).toNat
  isVArith w || (decide (1 ≤ op) && decide (op ≤ 5)) || op == 0x0E

/-- Check 4 of R119 on one unit and pass: the fault's cause and reason. The order of the fields, and what a field b that becomes a type or mode VCVT
does not take raises, are the model's choice (log entry 86). -/
def passFault (long : Bool) (f : Frame) (p : Nat) (i : Instr) : Option (Byte × Nat) :=
  let w := encodeBase i
  let (d, a, b) := passFields f p w
  if !f.wrap && decide (31 < d) then some (0x05#8, 2)
  else
    let w1 := withFields w d (fld 5 12 w).toNat (fld 5 7 w).toNat
    match decodeShape long i.pre w1 0#32 with
    | .error e => some (e.cause, 2)
    | .ok _ =>
      if !f.wrap && decide (31 < a) then some (0x05#8, 3)
      else match decodeShape long i.pre (withFields w d a (fld 5 7 w).toNat) 0#32 with
        | .error e => some (e.cause, 3)
        | .ok _ =>
          if !f.wrap && decide (31 < b) then some (0x05#8, 4)
          else match decodeShape long i.pre (withFields w d a b) 0#32 with
            | .error e => some (e.cause, 4)
            | .ok _ => none

/-- TRAPVAL of checks 3 and 4: the unit's index and the reason. -/
def frameVal (idx reason : Nat) : Word := BitVec.ofNat 64 (idx % 16 + reason * 16)

/-- The first unit that may not stand in a frame. -/
def check3 : Nat → List (Option Instr × IWord) → Option (Byte × Word)
  | _, [] => none
  | k, u :: us => if frameUnit u.2 then check3 (k + 1) us else some (0x05#8, frameVal k 1)
/-- The first fault of the units on one pass. -/
def check4 (long : Bool) (f : Frame) (p : Nat) : Nat → List Instr → Option (Byte × Word)
  | _, [] => none
  | k, i :: is => match passFault long f p i with
    | some (c, r) => some (c, frameVal k r)
    | none => check4 long f p (k + 1) is
/-- The first fault of `n` passes from pass p on. -/
def checkPasses (long : Bool) (f : Frame) (us : List Instr) (p : Nat) : Nat → Option (Byte × Word)
  | 0 => none
  | n + 1 => match check4 long f p 0 us with | some x => some x | none => checkPasses long f us (p + 1) n

/-- Fetched units, or why there are none. -/
inductive Fetched where
  | units (us : List (Option Instr × IWord)) (next : Nat) (s : State)
  /-- With the addresses of the units up to the one at fault. -/
  | fault (cause : Byte) (val : Word) (reached : List Nat)
  | wait (r : Res)

/-- Captured units, or why there are none. -/
inductive Captured where
  | units (us : List Instr) (next : Nat) (s : State)
  | fault (cause : Byte) (val : Word) (reached : List Nat)
  | wait (r : Res)

/-- The addresses of units that end at `next`, and `next`. -/
def starts (next : Nat) (us : List (Option Instr × IWord)) : List Nat :=
  us.foldr (fun u as => (as.headD next - 4 * shapeWords u.1) :: as) [next]

namespace State

/-- Fetch and decode `n` units from `va` on (R118, R119 checks 1 and 2); bits 37–34 of a decode fault's TRAPVAL hold the unit's index. -/
def capture (s : State) (va k : Nat) (us : List (Option Instr × IWord)) : Nat → Fetched
  | 0 => .units us va s
  | n + 1 =>
    match s.fetchUnit va with
    | .wait r => .wait r
    | .fault c v =>
      if c = 0x01#8 ∨ c = 0x02#8 ∨ c = 0x03#8 ∨ c = 0x0D#8 then .fault c (v ||| BitVec.ofNat 64 (k % 16 * 2 ^ 34)) (starts va us) else .fault c v (starts va us)
    | .unit i w s => capture s (va + 4 * shapeWords i) (k + 1) (us ++ [(i, w)]) n

/-- Capture and check the frame of `f` at `va`; check 4 covers the passes from `p` on (no pass after the 33rd can bring a first fault). -/
def captureFrame (s : State) (f : Frame) (va p passes : Nat) : Captured :=
  match s.capture va 0 [] (f.len.toNat + 1) with
  | .fault c v as => .fault c v as
  | .wait r => .wait r
  | .units us next t =>
    match check3 0 us with
    | some (c, v) => .fault c v (starts next us)
    | none =>
      let is := us.filterMap (·.1)
      match checkPasses s.ctx.long f is p (min passes 33) with
      | some (c, v) => .fault c v (starts next us)
      | none => .units is next t

end State

/-- The address of captured unit `k`. -/
def unitAddr (base : Nat) : Nat → List Instr → Nat
  | 0, _ => base
  | _, [] => base
  | k + 1, i :: is => unitAddr (base + 4 * i.words) k is

end Sys2Proof.Machine
end

