-- ==== Sys2Proof/Machine/Control.lean ====
section
/-! DEFINITION. Control transfer: the branches, LOOP, JAL, JALR and RPT (06_core_scalar, R114 to R119). -/
namespace Sys2Proof.Machine
open Sys2Proof
namespace State

/-- PC + 4 × SignExtend(off). -/
def target {n : Nat} (s : State) (o : BitVec n) : BitVec 56 := s.ctx.pc + o.signExtend 56 * 4#56
/-- The link value, PC + 4. -/
def link (s : State) : Word := (s.after 1).setWidth 64

/-- A conditional branch (R114). -/
def branch (s : State) (taken : Word → Word → Bool) (stl : BitVec 3) (a b : BitVec 5) (o : BitVec 12) : Host.Outcome State Fault Refusal :=
  s.unit 1 stl [(.g, a.toNat), (.g, b.toNat)] fun s =>
    if taken (s.rg 0 a) (s.rg 1 b) then .jump s (s.target o) else .ok s

end State

/-- BEQ. -/
def execBeq (stl : BitVec 3) (a b : BitVec 5) (o : BitVec 12) (s : State) : Host.Outcome State Fault Refusal := s.branch (fun x y => x == y) stl a b o
/-- BNE. -/
def execBne (stl : BitVec 3) (a b : BitVec 5) (o : BitVec 12) (s : State) : Host.Outcome State Fault Refusal := s.branch (fun x y => x != y) stl a b o
/-- BLT. -/
def execBlt (stl : BitVec 3) (a b : BitVec 5) (o : BitVec 12) (s : State) : Host.Outcome State Fault Refusal := s.branch BitVec.slt stl a b o
/-- BGE. -/
def execBge (stl : BitVec 3) (a b : BitVec 5) (o : BitVec 12) (s : State) : Host.Outcome State Fault Refusal :=
  s.branch (fun x y => !x.slt y) stl a b o
/-- BLTN. -/
def execBltn (stl : BitVec 3) (a b : BitVec 5) (o : BitVec 12) (s : State) : Host.Outcome State Fault Refusal := s.branch BitVec.ult stl a b o
/-- BGEN. -/
def execBgen (stl : BitVec 3) (a b : BitVec 5) (o : BitVec 12) (s : State) : Host.Outcome State Fault Refusal :=
  s.branch (fun x y => !x.ult y) stl a b o

/-- LOOP (R115): b is read before the write; the scoreboard tracks the write. -/
def execLoop (stl : BitVec 3) (a b : BitVec 5) (o : BitVec 12) (s : State) : Host.Outcome State Fault Refusal :=
  s.unit 1 stl [(.g, a.toNat), (.g, b.toNat)] fun s =>
    let n := s.rg 0 a - 1#64
    if n = s.rg 1 b then .ok (s.putG a n) else .jump (s.putG a n) (s.target o)

/-- JAL (R116). -/
def execJal (stl : BitVec 3) (d : BitVec 5) (o : BitVec 17) (s : State) : Host.Outcome State Fault Refusal :=
  s.unit 1 stl [] fun s => .jump (s.putG d s.link 1) (s.target o)

/-- JALR (R117). -/
def execJalr (stl : BitVec 3) (d a : BitVec 5) (i : BitVec 12) (s : State) : Host.Outcome State Fault Refusal :=
  s.unit 1 stl [(.g, a.toNat)] fun s =>
    let t := s.rg 0 a + sext64 i
    if t.toNat % 4 ≠ 0 ∨ t.toNat / 2 ^ 56 ≠ 0 then .trap 0x06#8 t else .jump (s.putG d s.link 1) (t.setWidth 56)

/-- RPT (R118, R119): the frame of `l` + 1 units, strides `d`, `p` and `b` of fields d, a and b, is captured and checked; its passes
follow, with every fixed-latency result complete (R34). -/
def execRpt (stl : BitVec 3) (a : BitVec 5) (l d p b : BitVec 4) (w : BitVec 1) (s : State) : Host.Outcome State Fault Refusal :=
  s.unit 1 stl [(.g, a.toNat)] fun s =>
    let count := low32 (s.rg 0 a)
    let f : Frame := { act := true, wrap := w == 1#1, sb := b, sa := p, sd := d, len := l, pidx := 0#5, uidx := 0#4, left := count }
    let base := s.after 1
    match s.captureFrame f base.toNat 0 count.toNat with
    | .wait r => r
    | .fault c v _ => .trap c v
    | .units us next t =>
      if count = 0#32 then .jump t (BitVec.ofNat 56 next)
      else .jump (t.setCtx { t.ctx with frm := f, frmbase := base.setWidth 64, buf := us, susp := false, pend := [] }) base

end Sys2Proof.Machine
end

