-- ==== Sys2Proof/Machine/VecInt.lean ====
section
/-! DEFINITION. Integer lane instructions: VADDI, VLOGI, VMULI, VCMPI (07_core_vector, R129 to R136). -/
namespace Sys2Proof.Machine
open Sys2Proof
namespace State

/-- The current value of a vector register, which inactive lanes keep (R130). -/
def vcur (s : State) (d : BitVec 5) : BitVec 4096 := if s.ctx.long then s.w d else (s.v d).setWidth 4096
/-- Vector sources for the ready test (R33). -/
def vsrc (s : State) (rs : List (BitVec 5)) : List (File × Nat) := rs.map fun r => (s.vf, r.toNat)

/-- One integer lane: the exact function of the lanes read by signedness, then R38 or the wrap (R131). -/
def intLane {b : Nat} (sg : Bool) (m : Option Mod) (f : Int → Int → Int → Int) (x y d : BitVec b) : BitVec b :=
  match m with
  | none => BitVec.ofInt b (f (readInt sg x) (readInt sg y) (readInt sg d))
  | some md => modInt sg b m (f (modSrcInt md.absa md.nega (readInt sg x)) (modSrcInt md.absb md.negb (readInt sg y)) (readInt sg d))

/-- An integer lane instruction with exact lane function `f` of a, b and the old d; `srcs` are the registers it reads (R133, R135). -/
def vint (s : State) (f : Nat → Int → Int → Int → Int) (p : Pre) (stl : BitVec 3) (d a b : BitVec 5) (e : BitVec 3) (srcs : List (BitVec 5))
    (short long : Nat) : Host.Outcome State Fault Refusal :=
  s.unit (1 + p.words) stl (s.vsrc srcs ++ maskSrc p) fun s =>
    let n := intBits e
    let va := s.rv 0 a
    let vb := s.rv 1 b
    let vd := s.rv 2 d
    let r := laneOp (s.maskOf p) n (s.lanes n) (s.vcur d) fun i =>
      (intLane (intSigned e) p.mod (f n) (lane n va i) (lane n vb i) (lane n vd i), 0#5)
    .ok (s.putV d r.1 (s.vlat p short long))

/-- A bitwise lane instruction (R134): patterns in, pattern out. -/
def vlogi (s : State) (f : (n : Nat) → BitVec n → BitVec n → BitVec n) (p : Pre) (stl : BitVec 3) (d a b : BitVec 5) (e : BitVec 3)
    (srcs : List (BitVec 5)) : Host.Outcome State Fault Refusal :=
  s.unit (1 + p.words) stl (s.vsrc srcs ++ maskSrc p) fun s =>
    let n := intBits e
    let va := s.rv 0 a
    let vb := s.rv 1 b
    let r := laneOp (s.maskOf p) n (s.lanes n) (s.vcur d) fun i => (f n (lane n va i) (lane n vb i), 0#5)
    .ok (s.putV d r.1 (s.vlat p 2 6))

/-- An integer lane comparison into k[vd] (R136). -/
def vcmpi (s : State) (f : CmpFn) (p : Pre) (stl : BitVec 3) (d a b : BitVec 5) (e : BitVec 3) : Host.Outcome State Fault Refusal :=
  s.unit (1 + p.words) stl (s.vsrc [a, b] ++ maskSrc p) fun s =>
    let n := intBits e
    let va := s.rv 0 a
    let vb := s.rv 1 b
    .ok (s.putK d.toNat (maskBits (s.maskOf p) (s.k d.toNat) (s.lanes n) fun i =>
      cmpInt f (readInt (intSigned e) (lane n va i)) (readInt (intSigned e) (lane n vb i))) (s.vlat p 2 6))
end State

/-- VADDI.ADD (R133). -/
def execVaddiAdd (p : Pre) (stl : BitVec 3) (d a b : BitVec 5) (e : BitVec 3) (s : State) : Host.Outcome State Fault Refusal := s.vint (fun _ x y _ => x + y) p stl d a b e [a, b] 2 6
/-- VADDI.SUB (R133). -/
def execVaddiSub (p : Pre) (stl : BitVec 3) (d a b : BitVec 5) (e : BitVec 3) (s : State) : Host.Outcome State Fault Refusal := s.vint (fun _ x y _ => x - y) p stl d a b e [a, b] 2 6
/-- VADDI.MIN (R133). -/
def execVaddiMin (p : Pre) (stl : BitVec 3) (d a b : BitVec 5) (e : BitVec 3) (s : State) : Host.Outcome State Fault Refusal := s.vint (fun _ x y _ => min x y) p stl d a b e [a, b] 2 6
/-- VADDI.MAX (R133). -/
def execVaddiMax (p : Pre) (stl : BitVec 3) (d a b : BitVec 5) (e : BitVec 3) (s : State) : Host.Outcome State Fault Refusal := s.vint (fun _ x y _ => max x y) p stl d a b e [a, b] 2 6
/-- VADDI.ABSD (R133). -/
def execVaddiAbsd (p : Pre) (stl : BitVec 3) (d a b : BitVec 5) (e : BitVec 3) (s : State) : Host.Outcome State Fault Refusal := s.vint (fun _ x y _ => ((x - y).natAbs : Int)) p stl d a b e [a, b] 2 6
/-- VADDI.AVG (R133). -/
def execVaddiAvg (p : Pre) (stl : BitVec 3) (d a b : BitVec 5) (e : BitVec 3) (s : State) : Host.Outcome State Fault Refusal := s.vint (fun _ x y _ => (x + y + 1) / 2) p stl d a b e [a, b] 2 6
/-- VADDI.NEG (R133). -/
def execVaddiNeg (p : Pre) (stl : BitVec 3) (d a : BitVec 5) (e : BitVec 3) (s : State) : Host.Outcome State Fault Refusal := s.vint (fun _ x _ _ => -x) p stl d a 0#5 e [a] 2 6
/-- VADDI.ABS (R133). -/
def execVaddiAbs (p : Pre) (stl : BitVec 3) (d a : BitVec 5) (e : BitVec 3) (s : State) : Host.Outcome State Fault Refusal := s.vint (fun _ x _ _ => (x.natAbs : Int)) p stl d a 0#5 e [a] 2 6
/-- VLOGI.AND (R134). -/
def execVlogiAnd (p : Pre) (stl : BitVec 3) (d a b : BitVec 5) (e : BitVec 3) (s : State) : Host.Outcome State Fault Refusal := s.vlogi (fun _ x y => aluVal .and x y) p stl d a b e [a, b]
/-- VLOGI.OR (R134). -/
def execVlogiOr (p : Pre) (stl : BitVec 3) (d a b : BitVec 5) (e : BitVec 3) (s : State) : Host.Outcome State Fault Refusal := s.vlogi (fun _ x y => aluVal .or x y) p stl d a b e [a, b]
/-- VLOGI.XOR (R134). -/
def execVlogiXor (p : Pre) (stl : BitVec 3) (d a b : BitVec 5) (e : BitVec 3) (s : State) : Host.Outcome State Fault Refusal := s.vlogi (fun _ x y => aluVal .xor x y) p stl d a b e [a, b]
/-- VLOGI.ANDN (R134). -/
def execVlogiAndn (p : Pre) (stl : BitVec 3) (d a b : BitVec 5) (e : BitVec 3) (s : State) : Host.Outcome State Fault Refusal := s.vlogi (fun _ x y => aluVal .andn x y) p stl d a b e [a, b]
/-- VLOGI.SHL (R134). -/
def execVlogiShl (p : Pre) (stl : BitVec 3) (d a b : BitVec 5) (e : BitVec 3) (s : State) : Host.Outcome State Fault Refusal := s.vlogi (fun _ x y => aluVal .shl x y) p stl d a b e [a, b]
/-- VLOGI.SHR (R134). -/
def execVlogiShr (p : Pre) (stl : BitVec 3) (d a b : BitVec 5) (e : BitVec 3) (s : State) : Host.Outcome State Fault Refusal := s.vlogi (fun _ x y => aluVal .shr x y) p stl d a b e [a, b]
/-- VLOGI.SAR (R134). -/
def execVlogiSar (p : Pre) (stl : BitVec 3) (d a b : BitVec 5) (e : BitVec 3) (s : State) : Host.Outcome State Fault Refusal := s.vlogi (fun _ x y => aluVal .sar x y) p stl d a b e [a, b]
/-- VLOGI.ROL (R134). -/
def execVlogiRol (p : Pre) (stl : BitVec 3) (d a b : BitVec 5) (e : BitVec 3) (s : State) : Host.Outcome State Fault Refusal := s.vlogi (fun _ x y => aluVal .rol x y) p stl d a b e [a, b]
/-- VLOGI.ROR (R134). -/
def execVlogiRor (p : Pre) (stl : BitVec 3) (d a b : BitVec 5) (e : BitVec 3) (s : State) : Host.Outcome State Fault Refusal := s.vlogi (fun _ x y => aluVal .ror x y) p stl d a b e [a, b]
/-- VLOGI.NOT (R134). -/
def execVlogiNot (p : Pre) (stl : BitVec 3) (d a : BitVec 5) (e : BitVec 3) (s : State) : Host.Outcome State Fault Refusal := s.vlogi (fun _ x _ => ~~~x) p stl d a 0#5 e [a]
/-- VLOGI.POPC (R134). -/
def execVlogiPopc (p : Pre) (stl : BitVec 3) (d a : BitVec 5) (e : BitVec 3) (s : State) : Host.Outcome State Fault Refusal := s.vlogi (fun n x _ => BitVec.ofNat n (popc x)) p stl d a 0#5 e [a]
/-- VLOGI.CLZ (R134). -/
def execVlogiClz (p : Pre) (stl : BitVec 3) (d a : BitVec 5) (e : BitVec 3) (s : State) : Host.Outcome State Fault Refusal := s.vlogi (fun n x _ => BitVec.ofNat n (clz x)) p stl d a 0#5 e [a]
/-- VMULI.LO (R135). -/
def execVmuliLo (p : Pre) (stl : BitVec 3) (d a b : BitVec 5) (e : BitVec 3) (s : State) : Host.Outcome State Fault Refusal := s.vint (fun _ x y _ => x * y) p stl d a b e [a, b] 4 8
/-- VMULI.HI (R135). -/
def execVmuliHi (p : Pre) (stl : BitVec 3) (d a b : BitVec 5) (e : BitVec 3) (s : State) : Host.Outcome State Fault Refusal := s.vint (fun n x y _ => x * y / (2 ^ n : Nat)) p stl d a b e [a, b] 4 8
/-- VMULI.MAC (R135). -/
def execVmuliMac (p : Pre) (stl : BitVec 3) (d a b : BitVec 5) (e : BitVec 3) (s : State) : Host.Outcome State Fault Refusal := s.vint (fun _ x y d => d + x * y) p stl d a b e [a, b, d] 4 8
/-- VMULI.MSB (R135). -/
def execVmuliMsb (p : Pre) (stl : BitVec 3) (d a b : BitVec 5) (e : BitVec 3) (s : State) : Host.Outcome State Fault Refusal := s.vint (fun _ x y d => d - x * y) p stl d a b e [a, b, d] 4 8
/-- VCMPI.EQ (R136). -/
def execVcmpiEq (p : Pre) (stl : BitVec 3) (d a b : BitVec 5) (e : BitVec 3) (s : State) : Host.Outcome State Fault Refusal := s.vcmpi .eq p stl d a b e
/-- VCMPI.NE (R136). -/
def execVcmpiNe (p : Pre) (stl : BitVec 3) (d a b : BitVec 5) (e : BitVec 3) (s : State) : Host.Outcome State Fault Refusal := s.vcmpi .ne p stl d a b e
/-- VCMPI.LT (R136). -/
def execVcmpiLt (p : Pre) (stl : BitVec 3) (d a b : BitVec 5) (e : BitVec 3) (s : State) : Host.Outcome State Fault Refusal := s.vcmpi .lt p stl d a b e
/-- VCMPI.LE (R136). -/
def execVcmpiLe (p : Pre) (stl : BitVec 3) (d a b : BitVec 5) (e : BitVec 3) (s : State) : Host.Outcome State Fault Refusal := s.vcmpi .le p stl d a b e
/-- VCMPI.GT (R136). -/
def execVcmpiGt (p : Pre) (stl : BitVec 3) (d a b : BitVec 5) (e : BitVec 3) (s : State) : Host.Outcome State Fault Refusal := s.vcmpi .gt p stl d a b e
/-- VCMPI.GE (R136). -/
def execVcmpiGe (p : Pre) (stl : BitVec 3) (d a b : BitVec 5) (e : BitVec 3) (s : State) : Host.Outcome State Fault Refusal := s.vcmpi .ge p stl d a b e
end Sys2Proof.Machine
end

