-- ==== Sys2Proof/Machine/VecFloat.lean ====
section
/-! DEFINITION. Floating-point lane instructions: VADDF, VMULF, VCMPF, VDOT, VCVT, VSFU, VRED, VQNT (07_core_vector, R137 to R144, R149). -/
namespace Sys2Proof.Machine
open Sys2Proof

/-- The format an et code names; codes that the entry does not accept are refused at decode (R28, R43). -/
def fmtOf (e : BitVec 3) : Fmt := (Fmt.ofEt e).getD .f32

/-- The value of lane i of a format. -/
def fval (f : Fmt) (x : BitVec 4096) (i : Nat) : Ex := f.dec (lane f.width x i).toNat

/-- A rounded result as a lane. -/
def asLane (b : Nat) (r : Nat × Flags) : BitVec b × Flags := (BitVec.ofNat b r.1, r.2)

/-- The exact functions of VADDF and VMULF (R137, R138): a and b after the MOD source steps, d the old lane. -/
inductive FltFn where
  | add
  | sub
  | min
  | max
  | mul
  | fma
  | fms
  deriving DecidableEq, Repr
def fltFn (f : FltFn) (x y d : Ex) : Ex :=
  match f with
  | .add => x.add y
  | .sub => x.add y.neg
  | .min => x.min2 y
  | .max => x.max2 y
  | .mul => x.mul y
  | .fma => x.fma y d
  | .fms => x.fma y d.neg

namespace State
/-- VADDF and VMULF: each active lane R38 of the exact function, rounded once (R137, R138). -/
def vflt (s : State) (f : FltFn) (p : Pre) (stl : BitVec 3) (d a b : BitVec 5) (e : BitVec 3) (srcs : List (BitVec 5)) :
    Host.Outcome State Fault Refusal :=
  s.unit (1 + p.words) stl (s.vsrc srcs ++ maskSrc p) fun s =>
    let t := fmtOf e
    let va := s.rv 0 a
    let vb := s.rv 1 b
    let vd := s.rv 2 d
    let srcA := fun x => match p.mod with | some m => modSrc m.absa m.nega x | none => x
    let srcB := fun x => match p.mod with | some m => modSrc m.absb m.negb x | none => x
    .ok (s.putVF d (laneOp (s.maskOf p) t.width (s.lanes t.width) (s.vcur d) fun i =>
      asLane t.width (modFloat t p.mod (fltFn f (srcA (fval t va i)) (srcB (fval t vb i)) (fval t vd i)))) (s.vlat p 4 8))

/-- VCMPF: lane results into k[vd], by bytes for E2M1; the events of active lanes (R139). -/
def vcmpf (s : State) (f : CmpFn) (p : Pre) (stl : BitVec 3) (d a b : BitVec 5) (e : BitVec 3) : Host.Outcome State Fault Refusal :=
  s.unit (1 + p.words) stl (s.vsrc [a, b] ++ maskSrc p) fun s =>
    let t := fmtOf e
    let m := s.maskOf p
    let va := s.rv 0 a
    let vb := s.rv 1 b
    let cmp := fun i => cmpFloat f (fval t va i) (fval t vb i)
    let n := s.lanes t.width
    let one := fun i => if t = .e2m1 then (cmp (2 * i)).1 && (cmp (2 * i + 1)).1 else (cmp i).1
    let fl := (upto 0 n).foldl (fun a i => if activeLane m t.width i then a ||| (cmp i).2 else a) 0#5
    .ok ((s.putK d.toNat (maskBits m (s.k d.toNat) (if t = .e2m1 then n / 2 else n) one) (s.vlat p 4 8)).raise fl)

/-- VDOT on float sources: the exact sum of g products, with the old lane in the accumulating form, rounded once to FP32 (R140, R67). -/
def vdotF (s : State) (acc : Bool) (p : Pre) (stl : BitVec 3) (d a b : BitVec 5) (e : BitVec 3) : Host.Outcome State Fault Refusal :=
  s.unit (1 + p.words) stl (s.vsrc (if acc then [a, b, d] else [a, b]) ++ maskSrc p) fun s =>
    let t := fmtOf e
    let g := 32 / t.width
    let va := s.rv 0 a
    let vb := s.rv 1 b
    let vd := s.rv 2 d
    .ok (s.putVF d (laneOp (s.maskOf p) 32 (s.lanes 32) (s.vcur d) fun j =>
      let ps := (upto 0 g).map fun k => (fval t va (j * g + k)).mul (fval t vb (j * g + k))
      asLane 32 (modFloat .f32 p.mod (Ex.sum (if acc then ps ++ [fval .f32 vd j] else ps)))) (s.vlat p 5 10))

/-- VDOT on INT8 or INT4 sources (R140). -/
def vdotI (s : State) (w : Nat) (acc : Bool) (p : Pre) (stl : BitVec 3) (d a b : BitVec 5) : Host.Outcome State Fault Refusal :=
  s.unit (1 + p.words) stl (s.vsrc (if acc then [a, b, d] else [a, b]) ++ maskSrc p) fun s =>
    let g := 32 / w
    let va := s.rv 0 a
    let vb := s.rv 1 b
    let vd := s.rv 2 d
    let r := laneOp (s.maskOf p) 32 (s.lanes 32) (s.vcur d) fun j =>
      let x := (upto 0 g).foldl (fun t k => t + (lane w va (j * g + k)).toInt * (lane w vb (j * g + k)).toInt) 0
      (modInt true 32 p.mod (if acc then x + (lane 32 vd j).toInt else x), 0#5)
    .ok (s.putV d r.1 (s.vlat p 5 10))
end State

/-! ## Conversion (R141, R142) -/

/-- One side of VCVT: a float format or an integer type. -/
inductive CvtTy where
  | flt (f : Fmt)
  | int (signed : Bool) (w : Nat)
  deriving DecidableEq, Repr
def CvtTy.of (int : BitVec 1) (t : BitVec 3) : CvtTy := if int = 1#1 then .int (intSigned t) (intBits t) else .flt (fmtOf t)
def CvtTy.width : CvtTy → Nat
  | .flt f => f.width
  | .int _ w => w
/-- The rounding mode of the MODE field. -/
def cvtMode (m : BitVec 2) : Rm := match m.toNat with | 0 => .rne | 1 => .rz | 2 => .ru | _ => .rd

/-- Convert one element's pattern, scaled by 2^e, to the destination type (R58 to R60, R142). -/
def convert (src dst : CvtTy) (m : Rm) (sat : Bool) (e : Int) (x : Nat) : Nat × Flags :=
  match src, dst with
  | .flt f, .flt g => roundEx g m sat ((f.dec x).scale e)
  | .flt f, .int sg w => let r := toIntDest m sg w ((f.dec x).scale e); (r.1.toNat, r.2)
  | .int sg w, .flt g => roundEx g m sat ((Ex.ofInt (readInt sg (BitVec.ofNat w x))).scale e)
  | .int sg w, .int sg' w' =>
    let y := scaleInt e (readInt sg (BitVec.ofNat w x))
    ((BitVec.ofInt w' (if sat then saturate sg' w' y else y)).toNat, 0#5)

/-- VCVT (R141, R142). -/
def execVcvt (p : Pre) (stl : BitVec 3) (d a : BitVec 5) (x y : BitVec 1) (t e : BitVec 3) (i : BitVec 1) (m : BitVec 2) (s : State) :
    Host.Outcome State Fault Refusal :=
  s.unit (1 + p.words) stl (s.vsrc [a] ++ State.maskSrc p) fun s =>
    let src := CvtTy.of y t
    let dst := CvtTy.of i e
    let n := s.vbits / max src.width dst.width
    let k := match p.mod with | some md => md.scale.toInt | none => 0
    let va := s.rv 0 a
    let mk := s.maskOf p
    let both4 := src.width = 4 ∧ dst.width = 4
    let old := s.vcur d
    let rs := (upto 0 n).map fun j =>
      if (if both4 then mk.getLsbD (j / 2) else mk.getLsbD j) then
        asLane dst.width (convert src dst (cvtMode m) (x == 1#1) k (lane src.width va j).toNat)
      else (lane dst.width old j, 0#5)
    .ok (s.putVF d (ofLanes dst.width (rs.map (·.1)), rs.foldl (fun f r => f ||| r.2) 0#5) (s.vlat p 3 7))

/-! ## Special functions and reductions -/

namespace State
/-- VSFU on the lanes of a format (R143). -/
def vsfu (s : State) (f : Sfu) (p : Pre) (stl : BitVec 3) (d a : BitVec 5) (e : BitVec 3) : Host.Outcome State Fault Refusal :=
  s.unit (1 + p.words) stl (s.vsrc [a] ++ maskSrc p) fun s =>
    let t := fmtOf e
    let va := s.rv 0 a
    .ok (s.putVF d (laneOp (s.maskOf p) t.width (s.lanes t.width) (s.vcur d) fun i =>
      asLane t.width (sfuLane f t p.mod (lane t.width va i).toNat)) (s.vlat p 10 16))

/-- A float reduction: leaves widened to FP32, the tree, then the MOD result fields before the rounding to et (R68, R144). -/
def vredF (s : State) (op : Ex → Ex → Ex) (ident : BitVec 32) (p : Pre) (stl : BitVec 3) (d a : BitVec 5) (e : BitVec 3) :
    Host.Outcome State Fault Refusal :=
  s.unit (1 + p.words) stl (s.vsrc [a] ++ maskSrc p) fun s =>
    let t := fmtOf e
    let m := s.maskOf p
    let va := s.rv 0 a
    let leaf := fun i => if !activeLane m t.width i then (ident, 0#5)
      else if t = .f32 then (lane 32 va i, 0#5) else asLane 32 (roundEx .f32 .rne false (fval t va i))
    let ls := (upto 0 (s.lanes t.width)).map leaf
    let root := treeRoot op (ls.map (·.1))
    let r := modFloat t p.mod (f32Val root.1)
    .ok ((s.putG d (BitVec.ofNat 64 r.1) (s.vlat p 6 12)).raise (ls.foldl (fun f l => f ||| l.2) 0#5 ||| root.2 ||| r.2))

/-- An integer reduction, independent of order (R68, R144). -/
def vredI (s : State) (op : Int → Int → Int) (ident : Bool → Nat → Int) (p : Pre) (stl : BitVec 3) (d a : BitVec 5) (t : BitVec 3) :
    Host.Outcome State Fault Refusal :=
  s.unit (1 + p.words) stl (s.vsrc [a] ++ maskSrc p) fun s =>
    let n := intBits t
    let sg := intSigned t
    let m := s.maskOf p
    let va := s.rv 0 a
    let x := (upto 0 (s.lanes n)).foldl (fun x i => if m.getLsbD i then op x (readInt sg (lane n va i)) else x) (ident sg n)
    let r := modInt sg n p.mod x
    .ok (s.putG d (if sg then r.signExtend 64 else r.setWidth 64) (s.vlat p 6 12))
end State

/-- Bitwise functions of two integers read at width w, as integers of the same signedness. -/
def bitInt (w : Nat) (sg : Bool) (f : BitVec w → BitVec w → BitVec w) (x y : Int) : Int := readInt sg (f (BitVec.ofInt w x) (BitVec.ofInt w y))

/-! ## Quantisation (R149) -/

/-- x / y for a finite x and a positive finite y. -/
def exOver (x y : Ex) : Ex :=
  match x, y with
  | .fin n a d e, .fin _ b c k => .fin n (a * c) (d * b) (e - k)
  | x, _ => x

/-- One group: the FP16 scale, the zero point, the codes and the events. Elements are given with whether they are active (R149). -/
def quantGroup (q : Nat) (xs : List (Bool × Ex)) : Nat × Nat × List Nat × Flags :=
  let live := (xs.filter (·.1)).map (·.2)
  let special := live.any fun x => match x with | .fin _ _ _ _ => false | _ => true
  if special then (0x7E00, 0, xs.map fun _ => 0, Flags.nv)
  else
    let zero := Ex.fin false 0 1 0
    let lo := live.foldl (fun m x => if Ex.cmp x m == .lt then x else m) zero
    let hi := live.foldl (fun m x => if Ex.cmp m x == .lt then x else m) zero
    let r := roundEx .f16 .rne true (exOver (hi.add lo.neg) (.fin false q 1 0))
    if r.1 = 0 then (0, 0, xs.map fun _ => 0, r.2)
    else
      let sc := Fmt.f16.dec r.1
      let clampQ := fun (x : Int) => (max 0 (min (q : Int) x)).toNat
      let zr := roundIntRne (exOver lo.neg sc)
      let z := clampQ zr.1
      let cs := xs.map fun x =>
        if x.1 then let c := roundIntRne (exOver x.2 sc); (clampQ ((z : Int) + c.1), flagIf (!c.2) Flags.nx) else (z, 0#5)
      (r.1, z, cs.map (·.1), cs.foldl (fun f c => f ||| c.2) (r.2 ||| flagIf (!zr.2) Flags.nx))

/-- Codes packed in element order: a byte each for q8, two to a byte for q4 (R55, R149). -/
def packCodes (w : Nat) (cs : List Nat) : Nat := packLanes w (cs.map fun c => BitVec.ofNat w c)

/-- VQNT (R149). -/
def execVqnt (p : Pre) (stl : BitVec 3) (d a : BitVec 5) (e : BitVec 3) (g : BitVec 2) (s : State) : Host.Outcome State Fault Refusal :=
  s.unit (1 + p.words) stl (s.vsrc [a] ++ State.maskSrc p) fun s =>
    let size := 32 * 2 ^ g.toNat
    let w := if e = 6#3 then 8 else 4
    let m := s.maskOf p
    let va := s.rv 0 a
    let gs := (upto 0 (128 / size)).map fun j =>
      quantGroup (2 ^ w - 1) ((upto (j * size) size).map fun i => (m.getLsbD i, fval .f32 va i))
    let codes := packCodes w ((gs.map (·.2.2.1)).flatten)
    let scales := packLanes 16 (gs.map fun t => BitVec.ofNat 16 t.1)
    let zeros := packLanes 8 (gs.map fun t => BitVec.ofNat 8 t.2.1)
    .ok (s.putVF d (BitVec.ofNat 4096 (codes + scales * 2 ^ 2048 + zeros * 2 ^ 2112), gs.foldl (fun f t => f ||| t.2.2.2) 0#5) (s.vlat p 6 12))

/-- VADDF.ADD (R137). -/
def execVaddfAdd (p : Pre) (stl : BitVec 3) (d a b : BitVec 5) (e : BitVec 3) (s : State) : Host.Outcome State Fault Refusal := s.vflt .add p stl d a b e [a, b]
/-- VADDF.SUB (R137). -/
def execVaddfSub (p : Pre) (stl : BitVec 3) (d a b : BitVec 5) (e : BitVec 3) (s : State) : Host.Outcome State Fault Refusal := s.vflt .sub p stl d a b e [a, b]
/-- VADDF.MIN (R137). -/
def execVaddfMin (p : Pre) (stl : BitVec 3) (d a b : BitVec 5) (e : BitVec 3) (s : State) : Host.Outcome State Fault Refusal := s.vflt .min p stl d a b e [a, b]
/-- VADDF.MAX (R137). -/
def execVaddfMax (p : Pre) (stl : BitVec 3) (d a b : BitVec 5) (e : BitVec 3) (s : State) : Host.Outcome State Fault Refusal := s.vflt .max p stl d a b e [a, b]
/-- VMULF.MUL (R138). -/
def execVmulfMul (p : Pre) (stl : BitVec 3) (d a b : BitVec 5) (e : BitVec 3) (s : State) : Host.Outcome State Fault Refusal := s.vflt .mul p stl d a b e [a, b]
/-- VMULF.FMA (R138). -/
def execVmulfFma (p : Pre) (stl : BitVec 3) (d a b : BitVec 5) (e : BitVec 3) (s : State) : Host.Outcome State Fault Refusal := s.vflt .fma p stl d a b e [a, b, d]
/-- VMULF.FMS (R138). -/
def execVmulfFms (p : Pre) (stl : BitVec 3) (d a b : BitVec 5) (e : BitVec 3) (s : State) : Host.Outcome State Fault Refusal := s.vflt .fms p stl d a b e [a, b, d]
/-- VCMPF.EQ (R139). -/
def execVcmpfEq (p : Pre) (stl : BitVec 3) (d a b : BitVec 5) (e : BitVec 3) (s : State) : Host.Outcome State Fault Refusal := s.vcmpf .eq p stl d a b e
/-- VCMPF.NE (R139). -/
def execVcmpfNe (p : Pre) (stl : BitVec 3) (d a b : BitVec 5) (e : BitVec 3) (s : State) : Host.Outcome State Fault Refusal := s.vcmpf .ne p stl d a b e
/-- VCMPF.LT (R139). -/
def execVcmpfLt (p : Pre) (stl : BitVec 3) (d a b : BitVec 5) (e : BitVec 3) (s : State) : Host.Outcome State Fault Refusal := s.vcmpf .lt p stl d a b e
/-- VCMPF.LE (R139). -/
def execVcmpfLe (p : Pre) (stl : BitVec 3) (d a b : BitVec 5) (e : BitVec 3) (s : State) : Host.Outcome State Fault Refusal := s.vcmpf .le p stl d a b e
/-- VCMPF.GT (R139). -/
def execVcmpfGt (p : Pre) (stl : BitVec 3) (d a b : BitVec 5) (e : BitVec 3) (s : State) : Host.Outcome State Fault Refusal := s.vcmpf .gt p stl d a b e
/-- VCMPF.GE (R139). -/
def execVcmpfGe (p : Pre) (stl : BitVec 3) (d a b : BitVec 5) (e : BitVec 3) (s : State) : Host.Outcome State Fault Refusal := s.vcmpf .ge p stl d a b e
/-- VCMPF.UN (R139). -/
def execVcmpfUn (p : Pre) (stl : BitVec 3) (d a b : BitVec 5) (e : BitVec 3) (s : State) : Host.Outcome State Fault Refusal := s.vcmpf .un p stl d a b e
/-- VDOT and VDOT.ACC (R140). -/
def execVdot (p : Pre) (stl : BitVec 3) (d a b : BitVec 5) (e : BitVec 3) (s : State) : Host.Outcome State Fault Refusal := s.vdotF false p stl d a b e
def execVdotAcc (p : Pre) (stl : BitVec 3) (d a b : BitVec 5) (e : BitVec 3) (s : State) : Host.Outcome State Fault Refusal := s.vdotF true p stl d a b e
/-- VDOT.I8, VDOT.I4 and their accumulating forms (R140). -/
def execVdotI8 (p : Pre) (stl : BitVec 3) (d a b : BitVec 5) (s : State) : Host.Outcome State Fault Refusal := s.vdotI 8 false p stl d a b
def execVdotAccI8 (p : Pre) (stl : BitVec 3) (d a b : BitVec 5) (s : State) : Host.Outcome State Fault Refusal := s.vdotI 8 true p stl d a b
def execVdotI4 (p : Pre) (stl : BitVec 3) (d a b : BitVec 5) (s : State) : Host.Outcome State Fault Refusal := s.vdotI 4 false p stl d a b
def execVdotAccI4 (p : Pre) (stl : BitVec 3) (d a b : BitVec 5) (s : State) : Host.Outcome State Fault Refusal := s.vdotI 4 true p stl d a b
/-- VSFU.RCP (R143). -/
def execVsfuRcp (p : Pre) (stl : BitVec 3) (d a : BitVec 5) (e : BitVec 3) (s : State) : Host.Outcome State Fault Refusal := s.vsfu .rcp p stl d a e
/-- VSFU.RSQRT (R143). -/
def execVsfuRsqrt (p : Pre) (stl : BitVec 3) (d a : BitVec 5) (e : BitVec 3) (s : State) : Host.Outcome State Fault Refusal := s.vsfu .rsqrt p stl d a e
/-- VSFU.SQRT (R143). -/
def execVsfuSqrt (p : Pre) (stl : BitVec 3) (d a : BitVec 5) (e : BitVec 3) (s : State) : Host.Outcome State Fault Refusal := s.vsfu .sqrt p stl d a e
/-- VSFU.EXP2 (R143). -/
def execVsfuExp2 (p : Pre) (stl : BitVec 3) (d a : BitVec 5) (e : BitVec 3) (s : State) : Host.Outcome State Fault Refusal := s.vsfu .exp2 p stl d a e
/-- VSFU.LOG2 (R143). -/
def execVsfuLog2 (p : Pre) (stl : BitVec 3) (d a : BitVec 5) (e : BitVec 3) (s : State) : Host.Outcome State Fault Refusal := s.vsfu .log2 p stl d a e
/-- VSFU.EXP (R143). -/
def execVsfuExp (p : Pre) (stl : BitVec 3) (d a : BitVec 5) (e : BitVec 3) (s : State) : Host.Outcome State Fault Refusal := s.vsfu .exp p stl d a e
/-- VSFU.LN (R143). -/
def execVsfuLn (p : Pre) (stl : BitVec 3) (d a : BitVec 5) (e : BitVec 3) (s : State) : Host.Outcome State Fault Refusal := s.vsfu .ln p stl d a e
/-- VSFU.SINPI (R143). -/
def execVsfuSinpi (p : Pre) (stl : BitVec 3) (d a : BitVec 5) (e : BitVec 3) (s : State) : Host.Outcome State Fault Refusal := s.vsfu .sinpi p stl d a e
/-- VSFU.COSPI (R143). -/
def execVsfuCospi (p : Pre) (stl : BitVec 3) (d a : BitVec 5) (e : BitVec 3) (s : State) : Host.Outcome State Fault Refusal := s.vsfu .cospi p stl d a e
/-- VSFU.TANH (R143). -/
def execVsfuTanh (p : Pre) (stl : BitVec 3) (d a : BitVec 5) (e : BitVec 3) (s : State) : Host.Outcome State Fault Refusal := s.vsfu .tanh p stl d a e
/-- VSFU.SIGM (R143). -/
def execVsfuSigm (p : Pre) (stl : BitVec 3) (d a : BitVec 5) (e : BitVec 3) (s : State) : Host.Outcome State Fault Refusal := s.vsfu .sigm p stl d a e
/-- VSFU.SILU (R143). -/
def execVsfuSilu (p : Pre) (stl : BitVec 3) (d a : BitVec 5) (e : BitVec 3) (s : State) : Host.Outcome State Fault Refusal := s.vsfu .silu p stl d a e
/-- VRED.SUM, MAX and MIN on float lanes: identities −0, −∞, +∞ (R68, R144). -/
def execVredSum (p : Pre) (stl : BitVec 3) (d a : BitVec 5) (e : BitVec 3) (s : State) : Host.Outcome State Fault Refusal := s.vredF Ex.add 0x80000000#32 p stl d a e
def execVredMax (p : Pre) (stl : BitVec 3) (d a : BitVec 5) (e : BitVec 3) (s : State) : Host.Outcome State Fault Refusal := s.vredF Ex.max2 0xFF800000#32 p stl d a e
def execVredMin (p : Pre) (stl : BitVec 3) (d a : BitVec 5) (e : BitVec 3) (s : State) : Host.Outcome State Fault Refusal := s.vredF Ex.min2 0x7F800000#32 p stl d a e
/-- VRED on integer lanes (R144). -/
def execVredSumi (p : Pre) (stl : BitVec 3) (d a : BitVec 5) (t : BitVec 3) (s : State) : Host.Outcome State Fault Refusal :=
  s.vredI ((· + ·)) (fun _ _ => 0) p stl d a t
def execVredMaxi (p : Pre) (stl : BitVec 3) (d a : BitVec 5) (t : BitVec 3) (s : State) : Host.Outcome State Fault Refusal :=
  s.vredI (max) (fun sg n => if sg then -(2 ^ (n - 1) : Nat) else 0) p stl d a t
def execVredMini (p : Pre) (stl : BitVec 3) (d a : BitVec 5) (t : BitVec 3) (s : State) : Host.Outcome State Fault Refusal :=
  s.vredI (min) (fun sg n => if sg then (2 ^ (n - 1) : Nat) - 1 else (2 ^ n : Nat) - 1) p stl d a t
def execVredAndi (p : Pre) (stl : BitVec 3) (d a : BitVec 5) (t : BitVec 3) (s : State) : Host.Outcome State Fault Refusal :=
  s.vredI (bitInt (intBits t) (intSigned t) (· &&& ·)) (fun sg n => if sg then -1 else (2 ^ n : Nat) - 1) p stl d a t
def execVredOri (p : Pre) (stl : BitVec 3) (d a : BitVec 5) (t : BitVec 3) (s : State) : Host.Outcome State Fault Refusal :=
  s.vredI (bitInt (intBits t) (intSigned t) (· ||| ·)) (fun _ _ => 0) p stl d a t
def execVredXori (p : Pre) (stl : BitVec 3) (d a : BitVec 5) (t : BitVec 3) (s : State) : Host.Outcome State Fault Refusal :=
  s.vredI (bitInt (intBits t) (intSigned t) (· ^^^ ·)) (fun _ _ => 0) p stl d a t
end Sys2Proof.Machine
end

