-- ==== Sys2Proof/Machine/Tensor.lean ====
section
/-! DEFINITION. Tensor identifiers: their entries, rows, elements and tables (15_matrix_instructions R261, R262), and the accesses that the
transfer and matrix engines make (10_memory_hierarchy R179, R183, 11_memory_instructions R199, R216, 14_matrix_engine R251). -/
namespace Sys2Proof.Machine
open Sys2Proof

/-! ## Entries (R261) -/

namespace Tensor
def word (t : TensorEntry) (i : Nat) : Word := t.getD i 0#64
def valid (t : TensorEntry) : Bool := (word t 0).getLsbD 63
def fmt (t : TensorEntry) : Nat := bits (word t 0) 59 56
/-- G, the group size of a q format. -/
def group (t : TensorEntry) : Nat := 32 * 2 ^ (bits (word t 0) 62 61)
def base (t : TensorEntry) : Word := word t 0 &&& fmask 55 0
def d0 (t : TensorEntry) : Nat := bits (word t 1) 31 0
def d1 (t : TensorEntry) : Nat := bits (word t 1) 63 32
def d2 (t : TensorEntry) : Nat := bits (word t 2) 31 0
def d3 (t : TensorEntry) : Nat := bits (word t 2) 63 32
def s1 (t : TensorEntry) : Nat := bits (word t 3) 31 0
def s2 (t : TensorEntry) : Nat := bits (word t 3) 63 32
def s3 (t : TensorEntry) : Nat := bits (word t 4) 31 0
def scaleBase (t : TensorEntry) : Word := word t 5 &&& fmask 55 0
def zpBase (t : TensorEntry) : Word := word t 6 &&& fmask 55 0
def outlBase (t : TensorEntry) : Word := word t 7 &&& fmask 55 0

/-- Element widths by FMT code. -/
def width (fmt : Nat) : Nat :=
  match fmt with
  | 0 => 32
  | 1 => 16
  | 2 => 16
  | 5 => 4
  | 8 => 4
  | 9 => 4
  | 11 => 4
  | 12 => 32
  | _ => 8
/-- The float format of a FMT code. -/
def float (fmt : Nat) : Option Fmt :=
  match fmt with
  | 0 => some .f32
  | 1 => some .bf16
  | 2 => some .f16
  | 3 => some .e4m3
  | 4 => some .e5m2
  | 5 => some .e2m1
  | _ => none
def isQ (fmt : Nat) : Bool := fmt == 10 || fmt == 11

/-- R, the number of rows. -/
def rows (t : TensorEntry) : Nat := d1 t * d2 t * d3 t
/-- The element offset of row r (R262). -/
def rowOff (t : TensorEntry) (r : Nat) : Nat := r % d1 t * s1 t + r / d1 t % d2 t * s2 t + r / (d1 t * d2 t) * s3 t
/-- Groups per row. -/
def groups (t : TensorEntry) : Nat := d0 t / group t

/-- An image is malformed (R264). -/
def malformed (t : TensorEntry) : Bool :=
  let f := fmt t
  let al := max 1 (width f / 8)
  let q := isQ f
  bits (word t 0) 60 60 != 0 || decide (13 ≤ f) || bits (word t 4) 63 32 != 0 ||
    bits (word t 5) 63 56 != 0 || bits (word t 6) 63 56 != 0 || bits (word t 7) 63 56 != 0 ||
    d0 t == 0 || d1 t == 0 || d2 t == 0 || d3 t == 0 || (base t).toNat % al != 0 ||
    (width f == 4 && (s1 t % 2 != 0 || s2 t % 2 != 0 || s3 t % 2 != 0)) ||
    (if q then bits (word t 0) 62 61 == 3 || d0 t % group t != 0 || scaleBase t == 0#64 || zpBase t == 0#64 || (scaleBase t).toNat % 2 != 0
     else bits (word t 0) 62 61 != 0 || word t 5 != 0#64 || word t 6 != 0#64 || word t 7 != 0#64)

end Tensor

/-! ## Areas: runs of bits at an address -/

/-- `len` bits from bit `bit` of the byte at `addr` on (R55: lower elements at lower bits). -/
structure Area where
  addr : Word
  bit : Nat
  len : Nat
  deriving DecidableEq, Repr
def Area.bytes (a : Area) : Nat := (a.bit + a.len + 7) / 8
/-- The area `off` bits after a base. -/
def areaAt (base : Word) (off len : Nat) : Area := { addr := base + BitVec.ofNat 64 (off / 8), bit := off % 8, len := len }

namespace Tensor
/-- `n` elements of row r from element `e` on. -/
def elems (t : TensorEntry) (r e n : Nat) : Area := areaAt (base t) ((rowOff t r + e) * width (fmt t)) (n * width (fmt t))
/-- The scales, zero points and outlier bits of `n` groups, or elements, of row r from the `j`th on. -/
def scales (t : TensorEntry) (r j n : Nat) : Area := areaAt (scaleBase t) (16 * (r * groups t + j)) (16 * n)
def zps (t : TensorEntry) (r j n : Nat) : Area :=
  let b := if fmt t = 11 then 4 else 8
  areaAt (zpBase t) (b * (r * groups t + j)) (b * n)
def outliers (t : TensorEntry) (r : Nat) : Area := areaAt (outlBase t) (r * d0 t) (d0 t)
end Tensor

/-- `n` elements of `b` bits of a number, and back. -/
def unpackBits (b : Nat) (v : Nat) : Nat → List Nat
  | 0 => []
  | n + 1 => v % 2 ^ b :: unpackBits b (v / 2 ^ b) n
def packBits (b : Nat) : List Nat → Nat
  | [] => 0
  | x :: xs => x % 2 ^ b + 2 ^ b * packBits b xs

/-! ## What an engine's access comes to -/

/-- The result of an engine's work: a value, an error with its address (R199), an absent page that a read (0) or a write (1) found, or a wait for
another agent. -/
inductive Eng (α : Type) where
  | ok (a : α) (s : State)
  | err (code : Nat) (addr : Word)
  | absent (key page : Nat) (val : Word) (access : Nat)
  | busy

def Eng.bind {α β : Type} (x : Eng α) (f : α → State → Eng β) : Eng β :=
  match x with
  | .ok a s => f a s
  | .err c a => .err c a
  | .absent k p v x => .absent k p v x
  | .busy => .busy

/-- The engine's code for a fault that its translation or media finds (R199). -/
def engCode (c : Byte) : Nat := if c = 0x09#8 ∨ c = 0x0A#8 then 0x13 else if c = 0x0F#8 then 0x14 else if c = 0x13#8 then 0x15 else 0x12

namespace State

/-- A line that a command `id`, or another agent that has none (0), may not touch yet: reserved by another command, held by an AMSG handler, or of
a crate whose bias flips, unless the command was issued before the flip (R183, R195, R204). -/
def lineBusy (s : State) (id line : Nat) : Bool :=
  let r := s.lineIds line
  (!r.contains id && !r.isEmpty) ||
    (isGlobal (line * 128) && (SMap.get {} s.pkg.crates (crateOf (line * 128))).flips.any fun f => id == 0 || decide (f.num < id))

/-- Runs cut at the lines' ends; `n` bounds the parts. -/
def cutRun (loc k : Nat) : Nat → List (Nat × Nat)
  | 0 => []
  | n + 1 => if k ≤ 128 - loc % 128 then [(loc, k)] else (loc, 128 - loc % 128) :: cutRun (loc + (128 - loc % 128)) (k - (128 - loc % 128)) n
def cutRuns (rs : List (Nat × Nat)) : List (Nat × Nat) := rs.flatMap fun r => cutRun r.1 r.2 (r.2 / 128 + 2)

/-- Resolve `n` bytes at `a` for an engine (R179, R199), as one run for each part of a line. -/
def engRuns (s : State) (w : Who) (nd : Need) (a : Word) (n : Nat) : Eng (List (Nat × Nat)) :=
  if n = 0 then .ok [] s
  else match s.addr w nd 0 a 1 n (crateParts a.toNat 0 n (n / 65536 + 2)) 200 with
    | .trap c v => .err (engCode c) v
    | .absent k p v => .absent k p v (if nd = .read then 0 else 1)
    | .busy => .busy
    | .ok rs trs =>
      let runs := cutRuns rs
      if runs.any fun r => s.inFifo r.1 then .err 0x16 a
      else match s.mediaFault (nd == .read) runs with
        | some (i, c) => .err (engCode c) (a + BitVec.ofNat 64 (((runs.take i).map (·.2)).foldl (· + ·) 0))
        | none => .ok runs (s.keepLeaves w.key trs)

/-- One byte as command `id` reads it: as its own reservation found it, where it has reserved the line (R216). -/
def engByte (s : State) (kept : List (Nat × Byte)) (loc : Nat) : Byte :=
  match kept.find? fun k => k.1 == loc with | some k => k.2 | none => s.rdByte loc
def engBytes (s : State) (kept : List (Nat × Byte)) (loc : Nat) : Nat → List Byte
  | 0 => []
  | n + 1 => s.engByte kept loc :: engBytes s kept (loc + 1) n

/-- Read an area for command `id`: a line that it has reserved itself, as the reservation found it. -/
def engRead (s : State) (w : Who) (id : Nat) (kept : List (Nat × Byte)) (a : Area) : Eng Nat :=
  (s.engRuns w .read a.addr a.bytes).bind fun runs s =>
    if (linesOf runs).any fun l => s.lineBusy id l || ((s.lineIds l).contains id && !kept.any fun k => k.1 == l * 128) then .busy
    else .ok (bytesToNat (runs.map fun r => s.engBytes kept r.1 r.2).flatten / 2 ^ a.bit % 2 ^ a.len) (s.touch (linesOf runs))

/-- Read an area for command `id` as it stands, whoever has reserved it first being that command. -/
def engNow (s : State) (w : Who) (id : Nat) (a : Area) : Eng Nat :=
  (s.engRuns w .read a.addr a.bytes).bind fun runs s =>
    if (linesOf runs).any (s.lineBusy id) then .busy
    else .ok (bytesToNat (s.rdRuns runs) / 2 ^ a.bit % 2 ^ a.len) (s.touch (linesOf runs))

/-- The bytes of an area with its bits written; the bits outside it keep their values. -/
def areaBytes (s : State) (a : Area) (runs : List (Nat × Nat)) (v : Nat) : List Byte :=
  let old := bytesToNat (s.rdRuns runs)
  natToBytes a.bytes (old - old / 2 ^ a.bit % 2 ^ a.len * 2 ^ a.bit + v % 2 ^ a.len * 2 ^ a.bit)
/-- Write an area's bits over runs that it has resolved to. -/
def engWrite (s : State) (a : Area) (runs : List (Nat × Nat)) (v : Nat) : State :=
  ((s.touch (linesOf runs)).wrRuns runs (s.areaBytes a runs v)).reshadowRuns runs
/-- What else an engine's error does, for the issuer's site: an access to a released extent is entered in the fault list (R196), an uncorrectable line is
counted (R397; log entry 92). -/
def engMet (s : State) (site code : Nat) (addr : Word) : State :=
  if code = 0x15 then s.faultRecord (dieOf site) 6 code (s.pkg.num * 4096 + site) 0#64 (engineVal code addr) 0
  else if code = 0x14 then s.countErr (dieOf site) 32
  else s

/-- The lines of a run of `n` bytes at `a` that an engine may write, as far as it translates now; those of a shelf whose mode is being switched are known. -/
def pieceLines (s : State) (w : Who) (a : Word) (n : Nat) : List Nat :=
  match s.engRuns w .write a n with
  | .ok runs _ => linesOf runs
  | .busy => linesOf (cutRun (ploc (a.toNat / 2 ^ 23 % 64) (a.toNat / 2 ^ 18 % 32) a.toNat) n (n / 128 + 2))
  | _ => []
/-- The destination lines of areas, each once; a page that does not translate now leaves out only its own (R228). -/
def destLines (s : State) (w : Who) : List Area → List Nat
  | [] => []
  | a :: as =>
    let ls := ((crateParts a.addr.toNat 0 a.bytes (a.bytes / 65536 + 2)).flatMap fun p => s.pieceLines w (a.addr + BitVec.ofNat 64 p.1) p.2).eraseDups
    ls ++ (destLines s w as).filter fun l => !ls.contains l

/-! ## Reservations (R183) -/

/-- A number is a command's, not an AMSG handler's. -/
def isCommand (s : State) (id : Nat) : Bool :=
  s.pkg.xfers.any (fun x => x.id == id) || s.clus.any fun e => e.2.cmds.any fun m => m.id == id
/-- The command keeps the bytes of a line as its reservation finds them, once (M11 of R227, R216). -/
def keepLine (s : State) (id line : Nat) : State :=
  let ks := (upto (line * 128) 128).map fun a => (a, s.rdByte a)
  let add := fun (kept : List (Nat × Byte)) => if kept.any fun k => k.1 == line * 128 then kept else kept ++ ks
  let s := s.modPkg fun p => { p with xfers := p.xfers.map fun (x : XCmd) => if x.id = id then { x with kept := add x.kept } else x }
  { s with clus := s.clus.map fun (e : Nat × Cluster) =>
      (e.1, { e.2 with cmds := e.2.cmds.map fun (m : MCmd) => if m.id = id then { m with kept := add m.kept } else m }) }
/-- `x` comes after command `id` at a line: a command issued later, or the AMSG handler `own` that has issued `id`. -/
def afterCmd (s : State) (id own x : Nat) : Bool := x == own || (s.isCommand x && decide (id < x))
/-- A command takes its place among those that have a line: it waits for earlier commands alone, also at a line that it registers late, so that two never
wait on each other (R216; log entry 109). -/
def insertCmd (s : State) (id own : Nat) (ids : List Nat) : List Nat :=
  (ids.takeWhile fun x => !s.afterCmd id own x) ++ id :: ids.dropWhile fun x => !s.afterCmd id own x
/-- Another AMSG handler would come before the command at a line: the command is not registered there before the handler's DONE, for the handler's accesses
would fall between its issue and its completion (M10 of R227; log entry 110). -/
def handlerAt (s : State) (id own l : Nat) : Bool := ((s.lineIds l).takeWhile fun x => !s.afterCmd id own x).any fun x => !s.isCommand x
/-- Register command `id` of activation `own` at each line, in ascending order. It keeps each line's bytes; those of a line of a commutative range that no
command holds yet, once that line has been drained for the grant (R216). -/
def reserve (s : State) (id own : Nat) : List Nat → State
  | [] => s
  | l :: ls =>
    let r := SMap.get {} s.pkg.resv l
    let ids := s.insertCmd id own r.ids
    let s := s.setResv l { ids := ids, granted := r.granted && ids.head? == r.ids.head? }
    reserve (if (s.rangeAt l).isSome && !r.granted then s else s.keepLine id l) id own ls
def sortNats (ls : List Nat) : List Nat := ls.mergeSort fun a b => decide (a ≤ b)

/-- The activation that issued a command runs in a context; it still runs there, or is saved. -/
def runs (c : Ctx) (serial : Nat) : Bool := c.act.serial == serial && c.st != .dormant
def alive (s : State) (site serial : Nat) : Bool :=
  let c := s.ctxAt site
  runs c serial || (match c.img with | some i => i.act.serial == serial | none => false)

/-- Resolve every area for writing: the runs, or what stops it. -/
def engDests (s : State) (w : Who) : List (Area × Nat) → Eng (List (Area × List (Nat × Nat) × Nat))
  | [] => .ok [] s
  | (a, v) :: as => (s.engRuns w .write a.addr a.bytes).bind fun runs s => (engDests s w as).bind fun rs s => .ok ((a, runs, v) :: rs) s
def engStore (s : State) : List (Area × List (Nat × Nat) × Nat) → State
  | [] => s
  | (a, runs, v) :: as => engStore (s.engWrite a runs v) as

end State

/-! ## Conversions (R213, R252) -/

/-- An element of FMT `f` as an exact value; integers by their signedness. -/
def elemVal (f x : Nat) : Ex :=
  match Tensor.float f with
  | some g => g.dec x
  | none =>
    if f = 6 ∨ f = 8 ∨ f = 12 then Ex.ofInt (let b := Tensor.width f; let y := x % 2 ^ b; if y < 2 ^ (b - 1) then (y : Int) else (y : Int) - (2 ^ b : Nat))
    else Ex.ofInt (x : Int)
/-- An exact value in FMT `f`, by RNE or RNE.S (R58, R60, R54). -/
def toElem (f : Nat) (sat : Bool) (x : Ex) : Nat :=
  match Tensor.float f with
  | some g => (roundEx g .rne sat x).1
  | none => (toIntDest .rne (f = 6 ∨ f = 12) (Tensor.width f) x).1.toNat

end Sys2Proof.Machine
end

