-- ==== Sys2Proof/Machine/Xfer.lean ====
section
/-! DEFINITION. The transfer engine: XFER, XWAIT, and the completion of a transfer (11_memory_instructions, R212 to R217). -/
namespace Sys2Proof.Machine
open Sys2Proof

/-! ## The rotation of R214 -/

/-- p × P^(−2j/d) over π, in fixed point, for a positive finite P. -/
def rotAngle (p j d : Nat) (P : Ex) : Int :=
  match P with
  | .fin _ num den e =>
    let f := expFix (-(2 * (j : Int) * lnFix num den e) / (d : Int))
    let k := f.2 + (sfP : Int)
    let t : Int := if 0 ≤ k then (p * f.1 * 2 ^ k.toNat : Nat) else (p * f.1 / 2 ^ (-k).toNat : Nat)
    t * (2 ^ sfP : Nat) / (piFix : Int)
  | _ => 0
/-- An FP32 value within 2 ulp of a sine or cosine, a fixed function of its inputs (log entry 8). -/
def rotPart (fn p j d : Nat) (pat : BitVec 32) (t : Int) : Ex :=
  let v := sinPiFix t
  let c := Config.engineChoice fn (((p * 2 ^ 32 + j) * 2 ^ 32 + d) * 2 ^ 32 + pat.toNat)
  if v = 0 then .fin false 0 1 0 else f32Val (BitVec.ofNat 32 (roundWithin .f32 2 c false (decide (v < 0)) v.natAbs 1 (-(sfP : Int))).1)

/-- One rotated row: pairs from pair `j` on, as exact values before the rounding to the destination. -/
def rotate (p d : Nat) (pat : BitVec 32) : Nat → List Ex → List Ex
  | j, x :: y :: rest =>
    let t := rotAngle p j d (f32Val pat)
    let s := rotPart 1 p j d pat t
    let c := rotPart 0 p j d pat (t + (2 ^ (sfP - 1) : Nat))
    Ex.add (Ex.mul x c) (Ex.mul y s).neg :: Ex.add (Ex.mul x s) (Ex.mul y c) :: rotate p d pat (j + 1) rest
  | _, xs => xs

/-! ## Rows of a transfer -/

namespace XCmd
/-- The agent that a transfer's accesses are made by: its issuer's key and privilege (R179). -/
def who (c : XCmd) : Who := { id := c.id, site := c.site, key := c.key, mkid := c.mkid, priv := c.priv }
/-- The first destination row of operation i. -/
def destRow (c : XCmd) (i : Nat) : Nat := if c.op = 2 then c.x + c.idx.getD i 0 % 2 ^ 32 else c.x + i
/-- The areas that operation i writes, in the order of `rowData`. -/
def destAreas (c : XCmd) (i : Nat) : List Area :=
  let r := c.destRow i
  let d := Tensor.d0 c.td
  if c.op = 4 then
    [Tensor.elems c.td r 0 d, Tensor.scales c.td r 0 (Tensor.groups c.td), Tensor.zps c.td r 0 (Tensor.groups c.td), Tensor.outliers c.td r,
     Tensor.elems c.tout r 0 (Tensor.d0 c.tout)]
  else [Tensor.elems c.td r 0 d]
end XCmd

/-- Index element i of TI: the area of INT32 elements 2i and 2i + 1 (R212). -/
def indexArea (ti : TensorEntry) (i : Nat) : Area :=
  if Tensor.d0 ti = 0 then areaAt 0#64 0 64 else Tensor.elems ti (2 * i / Tensor.d0 ti) (2 * i % Tensor.d0 ti) 2

/-- Conv (R213): a copy, or one RNE rounding. -/
def convElem (fs fd x : Nat) : Nat := if fs = fd then x else toElem fd false (elemVal fs x)

/-- The groups of a QCOPY row: scale, zero point and codes of each (R215, R149); `out` marks the outliers. -/
def qGroups (q g : Nat) : List (Bool × Ex) → Nat → List (Nat × Nat × List Nat)
  | _, 0 => []
  | xs, n + 1 =>
    let r := quantGroup q ((xs.take g).map fun x => (!x.1, x.2))
    let z := r.2.1
    (r.1, z, ((xs.take g).zip r.2.2.1).map fun p => if p.1.1 then z else p.2) :: qGroups q g (xs.drop g) n

/-- The values that a QCOPY row writes, in the order of `destAreas`. -/
def qcopyData (td : TensorEntry) (fs : Nat) (tau : Ex) (xs : List Nat) : List Nat :=
  let vs := xs.map fun x => let v := elemVal fs x; (!tau.isNan && Ex.cmp v.abs tau == .gt && !v.isNan, v)
  let b := Tensor.width (Tensor.fmt td)
  let gs := qGroups (2 ^ b - 1) (Tensor.group td) vs (Tensor.groups td)
  [packBits b (gs.map (·.2.2)).flatten, packBits 16 (gs.map (·.1)), packBits b (gs.map (·.2.1)),
   packBits 1 (vs.map fun v => if v.1 then 1 else 0), packBits 16 (vs.map fun v => if v.1 then (roundEx .bf16 .rne false v.2).1 else 0)]

namespace State

/-- What operation i of a transfer writes (R213 to R215). -/
def rowData (s : State) (c : XCmd) (i : Nat) : Eng (List Nat) :=
  let fd := Tensor.fmt c.td
  let fs := Tensor.fmt c.ts
  let d := Tensor.d0 c.td
  let row := fun (s : State) (r : Nat) => s.engRead c.who c.id c.kept (Tensor.elems c.ts r 0 d)
  let conv := fun (v : Nat) => packBits (Tensor.width fd) ((unpackBits (Tensor.width fs) v d).map (convElem fs fd))
  let indexed := fun (f : Nat → Nat → List Nat) =>
    (s.engRead c.who c.id c.kept (indexArea c.ti i)).bind fun x s =>
      let r := c.y.toNat + x % 2 ^ 32
      if Tensor.rows c.ts ≤ r then .err 0x11 0#64 else (row s r).bind fun v s => .ok (f (x / 2 ^ 32 % 2 ^ 24) v) s
  match c.op with
  | 1 => indexed fun _ v => [conv v]
  | 3 => .ok [packBits (Tensor.width fd) (List.replicate d (c.y.toNat % 2 ^ Tensor.width fd))] s
  | 4 => (row s (c.y.toNat + i)).bind fun v s => .ok (qcopyData c.td fs (f32Val c.p) (unpackBits (Tensor.width fs) v d)) s
  | 5 => indexed fun p v =>
      [packBits (Tensor.width fd) ((rotate p d c.p 0 ((unpackBits (Tensor.width fs) v d).map (elemVal fs))).map (toElem fd false))]
  | _ => (row s (c.y.toNat + i)).bind fun v s => .ok [conv v] s

/-- The writes of operations i to i + n − 1, row by row; what stops them, if anything, and at which row. -/
def rowsData (s : State) (c : XCmd) (i : Nat) : Nat → List (List (Area × List (Nat × Nat) × Nat)) × Eng Unit
  | 0 => ([], .ok () s)
  | n + 1 =>
    match (s.rowData c i).bind fun vs s => s.engDests c.who ((c.destAreas i).zip vs) with
    | .ok ws s => let (rest, e) := rowsData s c (i + 1) n; (ws :: rest, e)
    | .err k a => ([], .err k a)
    | .absent k p v x => ([], .absent k p v x)
    | .busy => ([], .busy)

/-! ## Completion -/

/-- The message to a completion handler (R216); its TAG and SRCSITE are the model's choice (log entry 81). -/
def xdone (s : State) (c : XCmd) (status : Nat) : State :=
  s.post { dst := c.site, src := c.site, srcPkg := s.pkg.num, dstPkg := s.pkg.num, cls := c.cls, kind := .xdone, entry := entryOf c.handler,
           sendTick := s.tick (dieOf c.site), key := c.key, payload := [BitVec.ofNat 64 c.ticket, BitVec.ofNat 64 status], inst := c.inst }

/-- An error without a handler: kept for the issuing activation, at most 16 of them, or written to the fault log (R216). -/
def keepXerr (s : State) (c : XCmd) (code : Nat) (addr : Word) : State :=
  let x := s.ctxAt c.site
  let e : Err := { ticket := c.ticket, code := code, addr := addr }
  if runs x c.serial && decide (x.xerrs.length < 16) then s.setCtxAt c.site { x with xerrs := x.xerrs ++ [e] }
  else if s.alive c.site c.serial && !runs x c.serial && decide (((x.img.map (·.xerrs)).getD []).length < 16) then
    s.setCtxAt c.site { x with img := x.img.map fun i => { i with xerrs := i.xerrs ++ [e] } }
  else s.faultRecord (dieOf c.site) 1 code (s.pkg.num * 4096 + c.site) 0#64 (engineVal code addr) 0

/-- A transfer ends: its reservations end, its slot is free, and its outcome is told (R216, R196). -/
def endXfer (s : State) (c : XCmd) (err : Option (Nat × Word)) : State :=
  let s := s.unreserve c.id c.lines
  let s := s.modPkg fun p => { p with xfers := p.xfers.filter fun x => x.id != c.id }
  let s := match err with
    | none => s
    | some e => s.engMet c.site e.1 e.2
  if c.handler ≠ 0#64 then s.xdone c ((err.map (·.1)).getD 0)
  else match err with
    | none => s
    | some e => s.keepXerr c e.1 e.2

def setXfer (s : State) (c : XCmd) : State :=
  s.modPkg fun p => { p with xfers := p.xfers.map fun x => if x.id = c.id then c else x }

/-- The work of a transfer whose lines are all taken. An absent page parks it, and what PAGE.RESUME declared of it stops it at the row that had found the
page (R219); a destination line that translates only now is registered late; an error leaves any number of the rows before it written, which the spec leaves
open (log entry 7). -/
def runXfer (s : State) (c : XCmd) : Option State :=
  let (all, e) := s.rowsData c 0 c.n
  let rows := if c.verdict = 0 then all else all.take c.stop
  let runs := ((rows.flatten.map fun w => w.2.1).flatten)
  let new := sortNats ((linesOf runs).filter fun l => !c.lines.contains l)
  let late := fun (s : State) => if new.any (s.handlerAt c.id c.serial) then none else some ((s.setXfer { c with lines := c.lines ++ new }).reserve c.id c.serial new)
  match (if c.verdict = 1 then .err 0x12 c.pval else if c.verdict = 2 then .err 0x13 c.pval else e) with
  | .busy => none
  | .absent k p v x =>
    some ((s.setXfer { c with parked := some (k, p), stop := rows.length, pval := v }).parkAt (dieOf c.site)
      { key := k, page := p, access := x, agent := 2, site := s.pkg.num * 4096 + c.site, tick := s.tick (dieOf c.site) })
  | .err k a =>
    if new.isEmpty then
      let done := rows.take (s.choose 50000 (rows.length + 1))
      some ((s.engStore done.flatten).endXfer c (some (k, a)))
    else late s
  | .ok _ t =>
    if new.isEmpty then some ((t.engStore rows.flatten).endXfer c none)
    else late t

/-! ## XFER -/

/-- TENSOR or BOUNDS, when the table and the block decide it (R212, R213, R215). -/
def xferCheck (op : Nat) (td ts ti tout : TensorEntry) (x : Nat) (y : Word) (p : BitVec 32) (n : Nat) : Option Nat :=
  let fd := Tensor.fmt td
  let fs := Tensor.fmt ts
  let flt := fun (f : Nat) => (Tensor.float f).isSome
  let useTs := op != 3
  let useTi := op == 1 || op == 2 || op == 5
  let tensor :=
    !Tensor.valid td || (useTs && !Tensor.valid ts) || (useTi && (!Tensor.valid ti || Tensor.fmt ti != 12 || Tensor.d0 ti % 2 != 0)) ||
    (match op with
     | 3 => false
     | 4 => !(fs == 0 || fs == 1) || !Tensor.isQ fd || !Tensor.valid tout || Tensor.fmt tout != 1 || Tensor.d0 td % Tensor.group td != 0 ||
         Tensor.outlBase td == 0#64 || Tensor.d0 tout != Tensor.d0 td || Tensor.d0 ts != Tensor.d0 td
     | 5 => !flt fs || !flt fd || Tensor.d0 td % 2 != 0 || Tensor.d0 ts != Tensor.d0 td ||
         (match f32Val p with | .fin neg num _ _ => neg || num == 0 | _ => true)
     | _ => !(fs == fd || (flt fs && flt fd)) || Tensor.d0 ts != Tensor.d0 td)
  let bounds :=
    n != 0 && ((op != 2 && decide (Tensor.rows td < x + n)) || (op == 4 && decide (Tensor.rows tout < x + n)) ||
    ((op == 0 || op == 2 || op == 4) && decide (Tensor.rows ts < y.toNat + n)) ||
    (useTi && decide (Tensor.rows ti * Tensor.d0 ti / 2 < n)))
  if tensor then some 0x10 else if bounds then some 0x11 else none

/-- SCATTER's index elements from the i-th on, as ordinary reads before the issue (R216). -/
def scatterIdx (s : State) (ti : TensorEntry) (i : Nat) : Nat → List Nat ⊕ Res
  | 0 => .inl []
  | n + 1 =>
    match s.reach .read 0 (indexArea ti i).addr 4 8 [(0, 4), (4, 4)] (4 * i) with
    | .stop r => .inr r
    | .go s runs =>
      match s.loadRuns runs none with
      | .stop r => .inr r
      | .got bs s => match scatterIdx s ti (i + 1) n with
        | .inl xs => .inl (bytesToNat bs :: xs)
        | .inr r => .inr r

/-- The lowest-numbered free slot of the issuing context's 16 (R216). -/
def xferSlot (s : State) : Option Nat := (upto 0 16).find? fun k => !s.pkg.xfers.any fun x => x.site == s.site && x.slot == k

/-- The destination lines of a transfer, in ascending order, as far as they translate now. -/
def xferLines (s : State) (c : XCmd) : List Nat := sortNats (s.destLines c.who ((upto 0 c.n).map c.destAreas).flatten)
/-- The issue event of a transfer (R216): its ticket, its reservations; one of no rows completes at once. -/
def issueXfer (s : State) (d : BitVec 5) (c : XCmd) (slot : Nat) : State :=
  let (id, s) := s.fresh
  let cnt := s.ctx.xcount + 1#60
  let tick := cnt.toNat * 16 + slot
  let s := s.setCtx { s.ctx with xcount := cnt }
  let c := { c with id := id, slot := slot, ticket := tick }
  let s := s.putG d (BitVec.ofNat 64 tick)
  if c.n = 0 then s.endXfer c none
  else
    let ls := s.xferLines c
    let c := { c with lines := ls }
    (s.modPkg fun p => { p with xfers := p.xfers ++ [c] }).reserve id c.serial ls

/-- XFER's effect (R212, R216). -/
def xferBody (s : State) (op : Nat) (d a b : BitVec 5) : Res :=
  let w := s.payload a 4
  let w0 := w.getD 0 0#64
  let w1 := w.getD 1 0#64
  let y := w.getD 2 0#64
  let w3 := w.getD 3 0#64
  let ent := fun (i : Nat) => SMap.get ([] : TensorEntry) s.clu.tensors i
  let td := ent (bits w0 7 0)
  let ts := ent (bits w0 15 8)
  let ti := ent (bits w0 23 16)
  let tout := ent (bits w0 31 24)
  let n := bits w3 31 0
  let x := bits w1 47 0
  let p := w3.extractLsb' 32 32
  if bits w0 63 32 ≠ 0 ∨ bits w1 63 48 ≠ 0 ∨ (op ≠ 3 ∧ bits y 63 48 ≠ 0) then .trap 0x17#8 (engineVal 0x19 0#64)
  else match xferCheck op td ts ti tout x y p n with
    | some code => .trap 0x17#8 (engineVal code 0#64)
    | none =>
      if s.speculative || s.drainsOut then s.hold
      else match s.xferSlot with
        | none => s.hold
        | some slot =>
          let c : XCmd := { id := 0, op := op, site := s.site, serial := s.ctx.act.serial, slot := slot, ticket := 0, key := s.ctx.ask.toNat,
                            mkid := s.ctx.mkid.toNat, priv := s.privileged, cls := s.ctx.pri.toNat, td := td, ts := ts, ti := ti, tout := tout,
                            x := x, y := y, p := p, n := n, handler := s.rg 1 b, idx := [], lines := [], inst := s.ctx.act.msg.bind (·.inst) }
          let go := fun (c : XCmd) => if (s.xferLines c).any (s.handlerAt s.pkg.nextId c.serial) then s.hold else .ok (s.issueXfer d c slot)
          if op = 2 then
            match s.scatterIdx ti 0 n with
            | .inr r => r
            | .inl xs =>
              if xs.any fun e => decide (Tensor.rows td ≤ x + e % 2 ^ 32) then .trap 0x17#8 (engineVal 0x11 0#64)
              else go { c with idx := xs }
          else go c

/-- XFER of operation `op`. -/
def xfer (s : State) (op : Nat) (stl : BitVec 3) (d a b : BitVec 5) : Host.Outcome State Fault Refusal :=
  s.unit 1 stl (State.runSrcs a 4 ++ [(.g, b.toNat)]) fun s => s.xferBody op d a b

end State

/-- XFER.COPY. -/
def execXferCopy (stl : BitVec 3) (d a b : BitVec 5) (s : State) : Host.Outcome State Fault Refusal := s.xfer 0 stl d a b
/-- XFER.GATHER. -/
def execXferGather (stl : BitVec 3) (d a b : BitVec 5) (s : State) : Host.Outcome State Fault Refusal := s.xfer 1 stl d a b
/-- XFER.SCATTER. -/
def execXferScatter (stl : BitVec 3) (d a b : BitVec 5) (s : State) : Host.Outcome State Fault Refusal := s.xfer 2 stl d a b
/-- XFER.FILL. -/
def execXferFill (stl : BitVec 3) (d a b : BitVec 5) (s : State) : Host.Outcome State Fault Refusal := s.xfer 3 stl d a b
/-- XFER.QCOPY. -/
def execXferQcopy (stl : BitVec 3) (d a b : BitVec 5) (s : State) : Host.Outcome State Fault Refusal := s.xfer 4 stl d a b
/-- XFER.RGATHER. -/
def execXferRgather (stl : BitVec 3) (d a b : BitVec 5) (s : State) : Host.Outcome State Fault Refusal := s.xfer 5 stl d a b

/-! ## XWAIT (R217): its field b means nothing -/

namespace State
/-- The transfer of a ticket is pending: its slot is not free, and holds no later issue count. -/
def xferPending (s : State) (t : Word) : Bool :=
  s.pkg.xfers.any fun x => x.site == s.site && x.slot == t.toNat % 16 && decide (x.ticket / 16 ≤ t.toNat / 16)
/-- Raise a kept error, once. -/
def reportXerr (s : State) (e : Err) : Res :=
  .report (s.setCtx { s.ctx with xerrs := s.ctx.xerrs.filter fun x => x.ticket != e.ticket }) 0x17#8 (engineVal e.code e.addr)
/-- The earliest-issued of some errors. -/
def firstErr : List Err → Option Err
  | [] => none
  | e :: es => match firstErr es with
    | none => some e
    | some f => if f.ticket / 16 < e.ticket / 16 then some f else some e
end State

/-- XWAIT.ONE. -/
def execXwaitOne (stl : BitVec 3) (a _b : BitVec 5) (s : State) : Host.Outcome State Fault Refusal :=
  s.unit 1 stl [(.g, a.toNat)] fun s =>
    let t := s.rg 0 a
    if s.xferPending t || s.drainsOut then s.hold
    else match s.ctx.xerrs.find? fun e => e.ticket == t.toNat with
      | some e => s.reportXerr e
      | none => .ok s
/-- XWAIT.ALL. -/
def execXwaitAll (stl : BitVec 3) (_b : BitVec 5) (s : State) : Host.Outcome State Fault Refusal :=
  s.unit 1 stl [] fun s =>
    if !s.myXfers.isEmpty || s.drainsOut then s.hold
    else match State.firstErr s.ctx.xerrs with
      | some e => s.reportXerr e
      | none => .ok s
/-- XWAIT.TEST. -/
def execXwaitTest (stl : BitVec 3) (d a _b : BitVec 5) (s : State) : Host.Outcome State Fault Refusal :=
  s.unit 1 stl [(.g, a.toNat)] fun s =>
    let t := s.rg 0 a
    .ok (s.putG d (if s.xferPending t then 0#64 else if s.ctx.xerrs.any (fun e => e.ticket == t.toNat) then 2#64 else 1#64))

/-- TRANSFER_COMPLETION: the work of a transfer whose every line is granted, and its end (R183, R216). -/
def execTransferCompletion (id : Nat) (s : State) : Host.Outcome State Fault Refusal :=
  match s.pkg.xfers.find? fun x => x.id == id with
  | none => .fault (.noSuchStep "TRANSFER_COMPLETION")
  | some c =>
    if c.parked.isSome || c.lines.any (fun l => !s.granted id l) then .fault (.noSuchStep "TRANSFER_COMPLETION")
    else match s.runXfer c with
      | some t => s.event (.ok t)
      | none => .fault (.noSuchStep "TRANSFER_COMPLETION")

end Sys2Proof.Machine
end

