-- ==== Sys2Proof/Machine/Page.lean ====
section
/-! DEFINITION. PAGE: invalidations, bias, parked faults, key retirement (11_memory_instructions, R218 to R220; 10_memory_hierarchy R186, R195). -/
namespace Sys2Proof.Machine
open Sys2Proof
namespace State

/-- Every TLB drops the leaves of a test (R180, R218). -/
def dropLeaves (s : State) (p : Leaf → Bool) : State := s.modPkg fun k => { k with tlb := k.tlb.filter fun t => !p t }

/-- The lines of a test are no longer held by any cache (R186, R195). -/
def flushLines (s : State) (p : Nat → Bool) : State := s.modPkg fun k => { k with coh := SMap.keep (fun l _ => !p l) k.coh }

/-- A synchronising event of PAGE whose work is done at once (R218, R224): the value for rd, and the state. -/
def pageDone (s : State) (d : BitVec 5) (f : State → Word × State) : Res :=
  if s.drainsOut then s.hold else let (v, t) := f s; .ok (t.putG d v)

/-! ## PAGE.BIAS (R195) -/

/-- The stage of a wait for a flip, in `data` the crate and the flip's number. -/
def flipStage : Nat := 30
/-- The flip of the crate that a BIAS has asked for under number `num`: done when it is its turn, no command issued before it holds a reservation there,
every line of the crate has been written back, and the core's own drains have been acknowledged (R195, R218, R224). In host bias no core shares a line. -/
def flipBody (s : State) (d : BitVec 5) (crate num : Nat) : Res :=
  let c := SMap.get {} s.pkg.crates crate
  let here := fun (l : Nat) => isGlobal (l * 128) && crateOf (l * 128) == crate
  match c.flips with
  | f :: fs =>
    let held := s.pkg.resv.any fun r => here r.1 && (r.2.ids.takeWhile fun i => decide (i < f.num)).any s.isCommand
    if f.num ≠ num ∨ held = true then .wait s
    else if s.partsOut here then .wait (s.flushParts here)
    else if s.drainsOut then .wait s
    else
      let t := if f.host then s.unshare here else s
      .ok (((t.flushLines here).modCrate crate fun x => { x with host := f.host, flips := fs }).putG d (if c.host then 1#64 else 0#64))
  | [] => .ok s

/-! ## PAGE.RESUME (R219) -/

/-- One entry of the list, when it is well-formed: the key, the page and the action. -/
def resumeEntry (w0 w1 : Word) : Option (Nat × Nat × Nat) :=
  if bits w0 63 56 = 0 ∧ bits w0 15 0 = 0 ∧ bits w1 63 18 = 0 ∧ bits w1 15 10 = 0 ∧ bits w1 17 16 ≠ 3 then
    some (bits w1 9 0, bits w0 55 16, bits w1 17 16)
  else none
/-- Reach the entries of a list of `n` at `a`, each an ordinary read of its own (R198, R219). -/
def reachEntries (s : State) (a : Word) : Nat → Go
  | 0 => .go s []
  | n + 1 => match s.reach .read 0 a 16 16 (onePiece 16) with
    | .stop r => .stop r
    | .go t rs => match reachEntries t (a + 16#64) n with
      | .stop r => .stop r
      | .go u qs => .go u (rs ++ qs)
/-- Apply an action to every agent of a die that is parked on a page: whether any was, and the state. -/
def resumePage (s : State) (die key page act : Nat) : Bool × State :=
  let here := fun (site : Nat) => dieOf site == die
  let on := fun (x : Option (Nat × Nat)) => x == some (key, page)
  let mine := fun (x : Nat) (w : Wait) => on w.parked && w.walker.getD (dieOf x) == die
  let free := fun (x : Nat) (c : Ctx) => { c with wait := c.wait.map fun w => if mine x w then { w with parked := none, verdict := act } else w }
  let sites := s.allSites.filter fun x => ((s.ctxAt x).wait).any (mine x)
  let xs := s.pkg.xfers.any fun x => here x.site && on x.parked
  let onM := fun (q : MPark) => q.key == key && q.page == page
  let ms := (upto (16 * die) 16).any fun c => (s.cluAt c).cmds.any fun m => m.parked.any onM
  let freeM := fun (m : MCmd) => match m.parked.find? onM with
    | none => m
    | some q => { m with parked := m.parked.filter fun x => !onM x, verdict := if act = 0 then m.verdict else act, pval := if act = 0 then m.pval else q.val }
  let s1 := s.setCtx (free s.site s.ctx)
  let s1 := { s1 with parked := s1.parked.map fun (e : Nat × Ctx) => (e.1, free e.1 e.2) }
  let s1 := s1.modPkg fun p => { p with xfers := p.xfers.map fun (x : XCmd) =>
                                          if here x.site && on x.parked then { x with parked := none, verdict := act } else x }
  let s1 := { s1 with clus := s1.clus.map fun (e : Nat × Cluster) => if e.1 / 16 = die then
    (e.1, { e.2 with cmds := e.2.cmds.map freeM }) else e }
  (!sites.isEmpty || xs || ms, s1)
/-- The entries in list order, and how many matched. -/
def resumeAll (s : State) : List Byte → Nat → Nat × State
  | _, 0 => (0, s)
  | bs, n + 1 =>
    let w := fun (i : Nat) => BitVec.ofNat 64 (bytesToNat ((bs.drop (8 * i)).take 8))
    let (hit, t) := match resumeEntry (w 0) (w 1) with
      | some (k, p, a) => s.resumePage s.die k p a
      | none => (false, s)
    let (m, t) := resumeAll t (bs.drop 16) n
    (m + (if hit then 1 else 0), t)

/-! ## PAGE.KRET (R186) -/

/-- A transfer or matrix command still writes under an MKID (R220). -/
def mkidBusy (s : State) (m : Nat) : Bool :=
  s.pkg.xfers.any (fun x => x.mkid == m) || (SMap.vals s.clus).any fun (c : Cluster) => c.cmds.any fun x => x.mkid == m && !x.lines.isEmpty
/-- A line is tagged with an MKID. -/
def ofMkid (m line : Nat) : Bool := isGlobal (line * 128) && mkidOf (line * 128) == m
/-- The MKID's keys are retired on every die. -/
def retireKey (s : State) (m : Nat) : List Nat → State
  | [] => s
  | d :: ds => retireKey (s.modDie d fun x =>
      { x with keys := if SMap.get KeySt.none x.keys m = .loaded then SMap.set KeySt.none x.keys m .retired else x.keys }) m ds

end State

/-- PAGE.INVP. -/
def execPageInvp (stl : BitVec 3) (d a b : BitVec 5) (s : State) : Host.Outcome State Fault Refusal :=
  s.unitP 1 stl [(.g, a.toNat), (.g, b.toNat)] fun s =>
    let va := (s.rg 0 a).toNat
    let key := bits (s.rg 1 b) 9 0
    s.pageDone d fun s => (0#64, s.dropLeaves fun t => t.key == key && t.page == va / 65536 * 65536 / 2 ^ pageShift t.level)
/-- PAGE.INVK. -/
def execPageInvk (stl : BitVec 3) (d b : BitVec 5) (s : State) : Host.Outcome State Fault Refusal :=
  s.unitP 1 stl [(.g, b.toNat)] fun s => s.pageDone d fun s => (0#64, s.dropLeaves fun t => t.key == bits (s.rg 0 b) 9 0)
/-- PAGE.INVA. -/
def execPageInva (stl : BitVec 3) (d : BitVec 5) (s : State) : Host.Outcome State Fault Refusal :=
  s.unitP 1 stl [] fun s => s.pageDone d fun s => (0#64, s.dropLeaves fun _ => true)
/-- PAGE.BIAS: the flip is asked for, and waits for the engines' reservations and for earlier flips (R195). -/
def execPageBias (stl : BitVec 3) (d a b : BitVec 5) (s : State) : Host.Outcome State Fault Refusal :=
  s.unitP 1 stl [(.g, a.toNat), (.g, b.toNat)] fun s =>
    if s.waitNow.stage = State.flipStage then s.flipBody d (s.waitNow.data.headD 0) (s.waitNow.data.getD 1 0)
    else match s.reach .read 0 (s.rg 0 a) 1 1 (onePiece 1) with
      | .stop r => r
      | .go s runs =>
        let loc := (runs.getD 0 (0, 0)).1
        if isGlobal loc = false then .trap 0x09#8 (s.rg 0 a)
        else if s.drainsOut then s.hold
        else
          let (n, t) := s.fresh
          let t := t.modCrate (crateOf loc) fun x => { x with flips := x.flips ++ [{ num := n, site := s.site, host := (s.rg 1 b).getLsbD 0 }] }
          match t.flipBody d (crateOf loc) n with
          | .wait u => .wait (u.setWait { u.waitNow with stage := State.flipStage, kept := true, data := [crateOf loc, n] })
          | r => r
/-- PAGE.RESUME. -/
def execPageResume (stl : BitVec 3) (d a b : BitVec 5) (s : State) : Host.Outcome State Fault Refusal :=
  s.unitP 1 stl [(.g, a.toNat), (.g, b.toNat)] fun s =>
    let n := min (s.rg 1 b).toNat 4096
    if (s.rg 0 a).toNat % 16 ≠ 0 then .trap 0x06#8 (s.rg 0 a)
    else if n = 0 then s.pageDone d fun s => (0#64, s)
    else match s.reachEntries (s.rg 0 a) n with
      | .stop r => r
      | .go s runs =>
        match s.loadRuns runs none with
        | .stop r => r
        | .got bs s => s.pageDone d fun s => let (m, t) := s.resumeAll bs n; (BitVec.ofNat 64 m, t)
/-- PAGE.KRET: MKID 0 raises PERMISSION; the retirement waits for the engines' work under the MKID and for the drains of its partial lines. -/
def execPageKret (stl : BitVec 3) (d b : BitVec 5) (s : State) : Host.Outcome State Fault Refusal :=
  s.unitP 1 stl [(.g, b.toNat)] fun s =>
    let m := bits (s.rg 0 b) 9 0
    if m = 0 then .trap 0x09#8 0#64
    else if s.mkidBusy m then s.hold
    else if s.partsOut (State.ofMkid m) then .wait ((s.flushParts (State.ofMkid m)).setWait s.waitNow)
    else s.pageDone d fun s => (0#64, (s.flushLines (State.ofMkid m)).retireKey m [0, 1, 2, 3])

end Sys2Proof.Machine
end

