-- ==== Sys2Proof/Machine/Matrix.lean ====
section
/-! DEFINITION. The matrix engine's instructions: claims and leases, gangs, tensor identifiers, commands, the group barrier, status
(14_matrix_engine R236 to R257, 15_matrix_instructions R260 to R275). -/
namespace Sys2Proof.Machine
open Sys2Proof

/-- TRAPVAL of LEASE (R241). -/
def leaseVal (reason plane : Nat) : Word := BitVec.ofNat 64 (reason + plane * 256)
/-- ENGINE at issue, without an address. -/
def engTrap (code : Nat) : Res := .trap 0x17#8 (engineVal code 0#64)

namespace MOp
def isMma : MOp → Bool
  | .mma _ _ => true
  | _ => false
/-- The command unit: 0 the array, 1 the drain path, 2 the exponential unit (R237). -/
def unit : MOp → Nat
  | .mma _ _ => 0
  | .macc _ _ => 1
  | .xexp _ _ => 2
end MOp

/-- Rows and columns of a gang shape (R247). -/
def gangRows (shape : Nat) : Nat := if 2 ≤ shape then 2 else 1
def gangCols (shape : Nat) : Nat := match shape with | 0 => 1 | 1 => 2 | 2 => 2 | _ => 4

namespace MCmd
def who (m : MCmd) : Who := { id := m.id, site := m.site, key := m.key, mkid := m.mkid, priv := m.priv }
def arg (m : MCmd) (i : Nat) : Nat := m.args.getD i 0
def ten (m : MCmd) (i : Nat) : TensorEntry := m.tens.getD i []
/-- M and N. -/
def rowsM (m : MCmd) : Nat := m.arg 0
def colsN (m : MCmd) : Nat := m.arg 1
/-- The number of K-groups of an MMA (R64, R270). -/
def groupLen (m : MCmd) : Nat := match m.op with | .mma _ true => Tensor.group (m.ten 0) | _ => 32
def groupsK (m : MCmd) : Nat := (m.arg 5 + m.groupLen - 1) / m.groupLen
/-- Row segments of a drain (R253): columns of members, and their number. -/
def segCols (m : MCmd) : Nat := (m.colsN + 255) / 256
def segs (m : MCmd) : Nat := m.rowsM * m.segCols
/-- The command has finished with its plane (R237). -/
def offPlane (m : MCmd) : Bool :=
  m.failed || (match m.op with | .mma _ _ => m.started && decide (m.groupsK ≤ m.prog) | .macc _ true => decide (m.segs ≤ m.staged) | _ => false)
def shares (a b : MCmd) : Bool := a.members.any fun c => b.members.contains c
end MCmd

namespace State

/-! ## Claims and leases (R239, R240) -/

/-- Contexts that wait for the lease of a cluster: class, the pair's primary, and the context (R240). -/
def claimants (s : State) (c : Nat) : List (Nat × Nat × Nat) :=
  (s.allSites.eraseDups.filter fun x => decide (dieOf x = c / 16)).filterMap fun x =>
    let k := s.ctxAt x
    match k.wait, s.pairOf x with
    | some w, some p =>
      if k.st = .waiting ∧ (w.stage = acqStage ∨ w.stage = claimStage ∨ w.stage = formStage) ∧ w.data.head? = some c ∧
          (s.cluAt c).lease ≠ some p.primary then
        some (k.pri.toNat, p.primary, x)
      else none
    | _, _ => none

/-- A pair takes the lease of a cluster: a run begins (R240, R267). -/
def giveLease (s : State) (c primary : Nat) : State :=
  s.modClu c fun x => { x with lease := some primary, releasing := false, runOver := false, runCount := 0, runLimit := x.leaserun.toNat }

/-- A pair takes the leases of clusters in ascending order (R248) while each is free and nobody else waits for it: the first that it must
wait for, if any, and the state. A lease whose run has ended is not the pair's to use, though MSTAT still shows it held: MLSE.TRY then answers 1 (DESIGN CHOICE,
log entry 114). -/
def takeLeases (s : State) (primary : Nat) : List Nat → Option Nat × State
  | [] => (none, s)
  | c :: cs =>
    let x := s.cluAt c
    if x.lease = some primary ∧ x.runOver = false then takeLeases s primary cs
    else if x.lease = none ∧ ((s.claimants c).filter fun k => k.2.1 != primary).isEmpty then takeLeases (s.giveLease c primary) primary cs
    else (some c, s)

/-- Commands of a pair, and those that the issuing context has had accepted, in whichever activation, that have not completed (R275). -/
def dieCmds (s : State) (d : Nat) : List MCmd :=
  (((upto (16 * d) 16).map fun c => (s.cluAt c).cmds).flatten).mergeSort fun a b => decide (a.id ≤ b.id)
def pairCmds (s : State) (p : Pair) : List MCmd := (s.dieCmds (p.primary % 4096 / 1024)).filter fun m => m.primary == p.primary
def myCmds (s : State) : List MCmd := (s.dieCmds s.die).filter fun m => m.site == s.site

/-- The earliest-accepted pending error of the issuing context (R251, R260): reported, once. -/
def pendingErr (s : State) : Option Res :=
  match s.ctx.merrs.mergeSort fun a b => decide (a.ticket ≤ b.ticket) with
  | [] => none
  | e :: es => some (.report (s.setCtx { s.ctx with merrs := es }) 0x17#8 (engineVal e.code e.addr))

/-- Wait for the lease of cluster `c`. -/
def leaseWait (s : State) (stage c : Nat) : Res := .wait (s.setWait { s.waitNow with stage := stage, data := [c] })

/-- The pair takes what leases it lacks, or waits for the first. -/
def needLease (s : State) (p : Pair) (stage : Nat) : Option Res × State :=
  match s.takeLeases p.primary (membersOf p) with
  | (none, t) => (none, t)
  | (some c, t) => (some (t.leaseWait stage c), t)

def addPair (s : State) (p : Pair) : List Nat → State
  | [] => s
  | c :: cs => addPair (s.modClu c fun x => { x with pairs := x.pairs ++ [p] }) p cs

/-- MLSE.ACQ (R265). -/
def acquire (s : State) : Res :=
  if s.drainsOut then s.hold
  else match s.pairOf s.site with
    | some p =>
      let stage := if s.waitNow.stage = acqStage then acqStage else claimStage
      match s.needLease p stage with
      | (some r, _) => r
      | (none, t) => .ok t
    | none =>
      let p : Pair := { primary := s.site }
      match (s.addPair p [clusterOf s.site]).needLease p acqStage with
      | (some r, _) => r
      | (none, t) => .ok t

/-- MLSE.TRY: 0 when the pair holds the lease at once (R265). -/
def tryLease (s : State) : Word × State :=
  let p := (s.pairOf s.site).getD { primary := s.site }
  match s.takeLeases p.primary (membersOf p) with
  | (none, t) => (0#64, if (s.pairOf s.site).isSome then t else t.addPair p [clusterOf s.site])
  | (some _, _) => (1#64, s)

/-- MLSE.REL (R243, R265). -/
def release (s : State) : Res :=
  match s.pendingErr with
  | some r => r
  | none =>
    if s.drainsOut then s.hold
    else match s.pairOf s.site with
      | none => .ok s
      | some p =>
        let left := if p.primary = s.site then s.pairCmds p else (s.pairCmds p).filter fun m => m.site == s.site
        if left.isEmpty then .ok (s.endClaim s.site) else s.hold

/-- MLSE.JOIN (R244, R265). -/
def joinPair (s : State) (t : Nat) : Word × State :=
  match s.pairOf s.site, s.pairOf t with
  | none, some p =>
    if t = s.site ∨ p.primary ≠ t ∨ p.partner.isSome then (1#64, s)
    else (0#64, s.setPair { p with partner := some s.site, phase := 0, arrived0 := false, arrived1 := false } (membersOf p))
  | _, _ => (1#64, s)

/-! ## Gangs (R247, R248, R266) -/

/-- The members of a gang, in ascending order, by cluster number in the package. -/
def gangMembers (die base shape : Nat) : List Nat :=
  ((upto 0 (gangRows shape)).map fun i => (upto 0 (gangCols shape)).map fun j => 16 * die + (base + 4 * i + j) % 16).flatten
/-- The base cluster is permitted for the shape (R247). -/
def gangBaseOk (base shape : Nat) : Bool := base / 4 % gangRows shape == 0 && base % 4 % gangCols shape == 0

/-- MGANG.FORM of the gang named by `x`. -/
def formGang (s : State) (d : BitVec 5) (x : Word) : Res :=
  let base := bits x 3 0
  let shape := bits x 5 4
  let ms := gangMembers s.die base shape
  let fin := fun (v : Nat) => Res.ok (s.putG d (BitVec.ofNat 64 v))
  if s.waitNow.stage = formStage then
    match s.pairOf s.site with
    | none => .ok s
    | some p => match s.needLease p formStage with
      | (some r, _) => r
      | (none, t) => .ok (t.putG d 0#64)
  else if gangBaseOk base shape = false then fin 1
  else if ms.any fun c => !((s.cluEn s.die).testBit (c % 16)) then fin 2
  else if ms.contains (clusterOf s.site) = false then fin 3
  else if (s.pairOf s.site).isSome then fin 4
  else if s.drainsOut then s.hold
  else
    let p : Pair := { primary := s.site, gang := some (shape, ms) }
    match (s.addPair p ms).needLease p formStage with
    | (some r, _) => r
    | (none, t) => .ok (t.putG d 0#64)

/-- MGANG.DISS. -/
def dissolve (s : State) (d : BitVec 5) : Res :=
  match s.pairOf s.site with
  | some p =>
    if p.primary ≠ s.site ∨ p.gang.isNone then .ok (s.putG d 1#64)
    else if !(s.pairCmds p).isEmpty || s.drainsOut then s.hold
    else
      let own := clusterOf s.site
      let others := (membersOf p).filter (· != own)
      let s := ((s.releaseAt p.primary others).dropPair p.primary others).setPair { p with gang := none } [own]
      let s := if (s.cluAt own).lease = some p.primary then s.giveLease own p.primary else s
      .ok (s.putG d 0#64)
  | none => .ok (s.putG d 1#64)

end State

/-- MLSE.ACQ. -/
def execMlseAcq (stl : BitVec 3) (s : State) : Host.Outcome State Fault Refusal := s.unit 1 stl [] fun s => s.acquire
/-- MLSE.TRY. -/
def execMlseTry (stl : BitVec 3) (d : BitVec 5) (s : State) : Host.Outcome State Fault Refusal :=
  s.unit 1 stl [] fun s => let (v, t) := s.tryLease; .ok (t.putG d v)
/-- MLSE.REL. -/
def execMlseRel (stl : BitVec 3) (s : State) : Host.Outcome State Fault Refusal := s.unit 1 stl [] fun s => s.release
/-- MLSE.JOIN. -/
def execMlseJoin (stl : BitVec 3) (d a : BitVec 5) (s : State) : Host.Outcome State Fault Refusal :=
  s.unit 1 stl [(.g, a.toNat)] fun s => let (v, t) := s.joinPair (4 * coreOf s.site + bits (s.rg 0 a) 1 0); .ok (t.putG d v)
/-- MGANG.FORM. -/
def execMgangForm (stl : BitVec 3) (d a : BitVec 5) (s : State) : Host.Outcome State Fault Refusal :=
  s.unit 1 stl [(.g, a.toNat)] fun s => s.formGang d (s.rg 0 a)
/-- MGANG.DISS. -/
def execMgangDiss (stl : BitVec 3) (d : BitVec 5) (s : State) : Host.Outcome State Fault Refusal := s.unit 1 stl [] fun s => s.dissolve d

/-- MCFG.GET (R267). -/
def execMcfgGet (stl : BitVec 3) (d : BitVec 5) (s : State) : Host.Outcome State Fault Refusal :=
  s.unit 1 stl [] fun s => .ok (s.putG d (s.clu.leaserun.setWidth 64))
/-- MCFG.RUN (R267). -/
def execMcfgRun (stl : BitVec 3) (d a : BitVec 5) (s : State) : Host.Outcome State Fault Refusal :=
  s.unitP 1 stl [(.g, a.toNat)] fun s =>
    let v := bits (s.rg 0 a) 7 0
    if 1 ≤ v ∧ v ≤ 64 then
      .ok ((s.modClu (clusterOf s.site) fun x => { x with leaserun := BitVec.ofNat 7 v }).putG d (s.clu.leaserun.setWidth 64))
    else .ok (s.putG d 0#64)

/-! ## TDEF (R264) -/

/-- The pieces of a 64-byte image. -/
def imagePieces : List (Nat × Nat) := (upto 0 8).map fun i => (8 * i, 8)
/-- An entry's words as bytes. -/
def entryBytes (t : TensorEntry) : List Byte := ((upto 0 8).map fun i => natToBytes 8 (Tensor.word t i).toNat).flatten
/-- VALID ← 0. -/
def invalidated (t : TensorEntry) : TensorEntry := if t.isEmpty then t else putBits (Tensor.word t 0) 63 63 0 :: t.tail

namespace State
def tensor (s : State) (i : Nat) : TensorEntry := SMap.get ([] : TensorEntry) s.clu.tensors i
def setTensor (s : State) (i : Nat) (t : TensorEntry) : State :=
  s.modClu (clusterOf s.site) fun x => { x with tensors := SMap.set ([] : TensorEntry) x.tensors i t }
end State

/-- TDEF.SET: a malformed image writes the entry with VALID = 0. An image in the slots of a FIFO shelf is read as stored, by TDEF.GET written as stored: R175
speaks of LD and ST alone (DESIGN CHOICE, log entry 24). -/
def execTdefSet (stl : BitVec 3) (d a b : BitVec 5) (s : State) : Host.Outcome State Fault Refusal :=
  s.unit 1 stl [(.g, a.toNat), (.g, b.toNat)] fun s =>
    match s.reach .read 0 (s.rg 0 a) 64 64 imagePieces with
    | .stop r => r
    | .go s runs =>
      match s.loadRuns runs none with
      | .stop r => r
      | .got bs s =>
        let t : TensorEntry := (upto 0 8).map fun i => BitVec.ofNat 64 (bytesToNat ((bs.drop (8 * i)).take 8))
        let bad := Tensor.malformed t
        .ok ((s.setTensor (bits (s.rg 1 b) 7 0) (if bad then invalidated t else t)).putG d (if bad then 1#64 else 0#64))
/-- TDEF.GET. -/
def execTdefGet (stl : BitVec 3) (a b : BitVec 5) (s : State) : Host.Outcome State Fault Refusal :=
  s.unit 1 stl [(.g, a.toNat), (.g, b.toNat)] fun s =>
    match s.reach .write 0 (s.rg 0 a) 64 64 imagePieces with
    | .stop r => r
    | .go s runs => s.storeRuns runs (entryBytes (s.tensor (bits (s.rg 1 b) 7 0)))
/-- TDEF.CLR. -/
def execTdefClr (stl : BitVec 3) (b : BitVec 5) (s : State) : Host.Outcome State Fault Refusal :=
  s.unit 1 stl [(.g, b.toNat)] fun s =>
    let i := bits (s.rg 0 b) 7 0
    if s.drainsOut then s.hold else .ok (s.setTensor i (invalidated (s.tensor i)))

/-! ## Accepting a command (R237 to R241, R250, R260) -/

namespace State

def setCmd (s : State) (m : MCmd) : State :=
  s.modClu (clusterOf m.site) fun x => { x with cmds := x.cmds.map fun c => if c.id = m.id then m else c }
/-- Every earlier command on its plane has finished with it, and it is the first of its unit. -/
def turn (all : List MCmd) (m : MCmd) : Bool :=
  all.all fun c => decide (m.id ≤ c.id) || !c.shares m || ((c.plane != m.plane || c.offPlane) && c.op.unit != m.op.unit)

/-- An MMA whose start has been granted on every member starts: a fresh tile tags its planes and starts at −0 (R238, R269). -/
def startMma (s : State) (m : MCmd) : State :=
  let s := s.setCmd { m with started := true }
  match m.op with
  | .mma true _ =>
    let cells := fun (c : Nat) => (m.members.findIdx? (· == c)).getD 0
    m.members.foldl (fun (s : State) c =>
      let k := cells c
      let j := k % gangCols m.shape
      let i := k / gangCols m.shape
      let rs := min 256 (m.rowsM - 256 * i)
      let ns := min 256 (m.colsN - 256 * j)
      s.modClu c fun x =>
        let x := if m.plane = 0 then { x with tag0 := some (m.primary % 4096) } else { x with tag1 := some (m.primary % 4096) }
        { x with planes := ((upto 0 rs).map fun r => (upto 0 ns).map fun n => 65536 * m.plane + 256 * r + n).flatten.foldl
                             (fun (p : SMap (BitVec 32)) a => SMap.set 0#32 p a 0x80000000#32) x.planes }) s
  | _ => s
def startIf (s : State) (m : MCmd) : State :=
  if !m.started && m.members.all (fun c => m.grants.contains c) then s.startMma m else s.setCmd m

/-- MMAs whose turn it is ask for the starts of their idle arrays; an array that goes on from one command to the next needs no start (R256). -/
def askStarts (s : State) (d : Nat) : State :=
  let all := s.dieCmds d
  (all.filter fun m => m.op.isMma && !m.started && m.asked.isNone && turn all m).foldl (fun (s : State) (m : MCmd) =>
    s.startIf { m with asked := some s.cycle, grants := m.members.filter fun c => (s.cluAt c).arrayBusy }) s

/-- The tag that a plane of a cluster will carry once every accepted command ahead has started (R238). -/
def futureTag (s : State) (c plane : Nat) : Option Nat :=
  let fresh := ((s.dieCmds (c / 16)).filter fun m =>
    m.members.contains c && m.plane == plane && !m.started && (match m.op with | .mma f _ => f | _ => false)).reverse
  match fresh with
  | m :: _ => some (m.primary % 4096)
  | [] => if plane = 0 then (s.cluAt c).tag0 else (s.cluAt c).tag1

/-- The issuing context's group (R244). -/
def group (s : State) (p : Pair) : Nat := if p.primary = s.site then 0 else 1

/-- A counted command is accepted: one of the run's (R240), on every member. -/
def accept (s : State) (p : Pair) (m : MCmd) : State :=
  let (id, s) := s.fresh
  let m := { m with id := id, lines := sortNats m.lines }
  let own := clusterOf s.site
  let s := ((s.modClu own fun x => { x with cmds := x.cmds ++ [m] }).reserve id m.serial m.lines).askStarts (own / 16)
  let cls := (if p.primary < 4096 then (s.ctxAt p.primary).pri else ((s.ctxAt (p.primary % 4096)).img.map (·.pri)).getD 0#2).toNat
  let n := (s.cluAt own).runCount + 1
  if (s.cluAt own).runLimit ≤ n then
    if (membersOf p).any fun c => (s.claimants c).any fun k => decide (k.1 ≤ cls) then
      (s.modClu own fun x => { x with runCount := n }).releaseAt p.primary (membersOf p)
    else s.modClu own fun x => { x with runCount := 0, runLimit := x.leaserun.toNat }
  else s.modClu own fun x => { x with runCount := n }

/-- The command as the issuing context gives it (R250). -/
def newCmd (s : State) (p : Pair) (op : MOp) (plane : Nat) (tens : List TensorEntry) (args : List Nat) : MCmd :=
  { id := 0, op := op, plane := plane, site := s.site, serial := s.ctx.act.serial, key := s.ctx.ask.toNat, mkid := s.ctx.mkid.toNat,
    priv := s.privileged, cls := s.ctx.pri.toNat, primary := p.primary, shape := (p.gang.map (·.1)).getD 0, members := membersOf p,
    tens := tens, args := args, rowh := s.ctx.rowh, inst := s.ctx.act.msg.bind (·.inst) }

/-- A counted command (R260): LEASE, the report of a pending error for the reporting form, and the errors that block and table decide, in
that order; then room among the eight, and acceptance. `tagged`: it reads or accumulates into its plane. `parity`: who may issue it (R245),
0 the group of the parity, 1 the other, 2 either. `check` and `make` take the gang shape and the pair. -/
def counted (s : State) (plane : Nat) (tagged : Bool) (parity : Nat) (reports : Bool) (check : Nat → Option Res) (make : State → Pair → MCmd) : Res :=
  match s.pairOf s.site with
  | none => .trap 0x16#8 (leaseVal 1 plane)
  | some p =>
    if p.partner.isSome && parity != 2 && (decide (p.phase % 2 = s.group p) != (parity == 0)) then .trap 0x16#8 (leaseVal 3 plane)
    else match s.needLease p claimStage with
      | (some r, _) => r
      | (none, s) =>
        if tagged && (membersOf p).any (fun c => match s.futureTag c plane with | some t => t != p.primary % 4096 | none => false) then
          .trap 0x16#8 (leaseVal 2 plane)
        else match (if reports then s.pendingErr else none) with
          | some r => r
          | none =>
            match check ((p.gang.map (·.1)).getD 0) with
            | some r => r
            | none =>
              let m := make s p
              if s.speculative || s.drainsOut || (membersOf p).any (fun c => decide (8 ≤ (s.cmdsOn c).length)) || m.lines.any (s.handlerAt s.pkg.nextId m.serial) then s.hold
              else .ok (s.accept p m)

/-- M and N within a gang's tile (R268). -/
def tileOk (shape m n : Nat) : Bool := decide (m ≤ 256 * gangRows shape) && decide (n ≤ 256 * gangCols shape)

/-- The format pairs of MMA (R269). -/
def mmaPair (fa fb : Nat) : Bool :=
  let i8 := fun (f : Nat) => f == 6 || f == 7
  let i4 := fun (f : Nat) => f == 8 || f == 9
  let f8 := fun (f : Nat) => f == 3 || f == 4
  (fa == 1 && fb == 1) || (fa == 2 && fb == 2) || (f8 fa && f8 fb) || (fa == 5 && fb == 5) ||
    ((i8 fa || i4 fa) && (i8 fb || i4 fb))

/-- MMA and MMAQ (R268 to R270). -/
def mmaBody (s : State) (fresh quant : Bool) (a : BitVec 5) (plane : Nat) : Res :=
  let w := s.payload a 3
  let w0 := w.getD 0 0#64
  let w1 := w.getD 1 0#64
  let w2 := w.getD 2 0#64
  let m := bits w0 25 16 + 1
  let n := bits w0 35 26 + 1
  let ta := s.tensor (bits w0 7 0)
  let tb := s.tensor (bits w0 15 8)
  let i0 := bits w1 31 0
  let n0 := bits w1 63 32
  let k0 := bits w2 31 0
  let k := bits w2 63 32
  let check := fun (shape : Nat) =>
    if bits w0 63 36 ≠ 0 then some (engTrap 0x19)
    else if !Tensor.valid ta || !Tensor.valid tb ||
        (if quant then !Tensor.isQ (Tensor.fmt ta) || !Tensor.isQ (Tensor.fmt tb) || Tensor.group ta != Tensor.group tb
         else !mmaPair (Tensor.fmt ta) (Tensor.fmt tb)) then some (engTrap 0x10)
    else if !tileOk shape m n || k == 0 || decide (Tensor.rows ta < i0 + m) || decide (Tensor.rows tb < n0 + n) ||
        decide (Tensor.d0 ta < k0 + k) || decide (Tensor.d0 tb < k0 + k) ||
        (quant && (k0 % Tensor.group ta != 0 || k % Tensor.group ta != 0)) then some (engTrap 0x11)
    else none
  s.counted plane (!fresh) 0 false check fun s p => s.newCmd p (.mma fresh quant) plane [ta, tb] [m, n, i0, n0, k0, k]

/-- The destination areas of a drain, row by row (R271). -/
def maccAreas (td : TensorEntry) (m n r0 c0 : Nat) : List Area := (upto 0 m).map fun i => Tensor.elems td (r0 + i) c0 n

/-- MACC (R271). NOHND is judged after TENSOR and BOUNDS (DESIGN CHOICE, log entry 34). -/
def maccBody (s : State) (staged sat : Bool) (a : BitVec 5) (plane : Nat) : Res :=
  let w := s.payload a 2
  let w0 := w.getD 0 0#64
  let w1 := w.getD 1 0#64
  let m := bits w0 25 16 + 1
  let n := bits w0 35 26 + 1
  let td := s.tensor (bits w0 7 0)
  let r0 := bits w1 31 0
  let c0 := bits w1 63 32
  let f := Tensor.fmt td
  let check := fun (shape : Nat) =>
    if bits w0 63 36 ≠ 0 ∨ bits w0 15 8 ≠ 0 then some (engTrap 0x19)
    else if !Tensor.valid td || !((Tensor.float f).isSome || f == 6 || f == 12) then some (engTrap 0x10)
    else if !tileOk shape m n || decide (Tensor.rows td < r0 + m) || decide (Tensor.d0 td < c0 + n) ||
        (Tensor.width f == 4 && (c0 % 2 != 0 || n % 2 != 0)) then some (engTrap 0x11)
    else if staged && s.ctx.rowh.isNone then some (engTrap 0x21)
    else none
  s.counted plane true 2 (!staged) check fun s p =>
    let c := s.newCmd p (.macc sat staged) plane [td] [m, n, r0, c0]
    { c with lines := s.destLines c.who (maccAreas td m n r0 c0) }

/-- RB and A of XEXP's output (R273). -/
def xexpRow (pf n : Nat) : Nat := (n * (if pf = 0 then 2 else 1) + 127) / 128 * 128
def xexpArr (m : Nat) : Nat := (4 * m + 127) / 128 * 128
def xexpLen (pf m n : Nat) : Nat := m * xexpRow pf n + 3 * xexpArr m

/-- XEXP's check of its output area in the pantry window (R273): within one shelf, and a SCRATCH one. -/
def xexpArea (s : State) (o : Word) (len : Nat) : Option Res :=
  if window o.toNat ≠ 2 then none
  else if o.toNat / 2 ^ 18 ≠ (o.toNat + len - 1) / 2 ^ 18 then some (engTrap 0x11)
  else
    let x := s.shelfAt (o.toNat / 2 ^ 23 % 64 * 32 + o.toNat / 2 ^ 18 % 32)
    match x.target.getD x.mode with
    | .cache => some (.trap 0x17#8 (engineVal 0x13 o))
    | .fifo => some (.trap 0x17#8 (engineVal 0x16 o))
    | .scratch => none

/-- XEXP (R273). -/
def xexpBody (s : State) (pf : Nat) (hasMax : Bool) (a : BitVec 5) (plane : Nat) : Res :=
  let w := s.payload a 3
  let o := w.getD 0 0#64
  let w1 := w.getD 1 0#64
  let w2 := w.getD 2 0#64
  let m := bits w1 41 32 + 1
  let n := bits w1 51 42 + 1
  let c := w1.extractLsb' 0 32
  let check := fun (shape : Nat) =>
    if bits w1 63 52 ≠ 0 then some (engTrap 0x19)
    else if (match f32Val c with | .fin neg num _ _ => neg || num == 0 | _ => true) then some (engTrap 0x10)
    else if !tileOk shape m n || o.toNat % 128 != 0 || (hasMax && w2.toNat % 4 != 0) then some (engTrap 0x11)
    else s.xexpArea o (xexpLen pf m n)
  s.counted plane true 1 false check fun s p =>
    let x := s.newCmd p (.xexp pf hasMax) plane [] [m, n, o.toNat, c.toNat, w2.toNat]
    { x with lines := s.destLines x.who [{ addr := o, bit := 0, len := 8 * xexpLen pf m n }] }

end State

/-- MMA.NEW. -/
def execMmaNew (stl : BitVec 3) (a : BitVec 5) (p : BitVec 1) (s : State) : Host.Outcome State Fault Refusal :=
  s.unit 1 stl (State.runSrcs a 3) fun s => s.mmaBody true false a p.toNat
/-- MMA.ACC. -/
def execMmaAcc (stl : BitVec 3) (a : BitVec 5) (p : BitVec 1) (s : State) : Host.Outcome State Fault Refusal :=
  s.unit 1 stl (State.runSrcs a 3) fun s => s.mmaBody false false a p.toNat
/-- MMAQ.NEW. -/
def execMmaqNew (stl : BitVec 3) (a : BitVec 5) (p : BitVec 1) (s : State) : Host.Outcome State Fault Refusal :=
  s.unit 1 stl (State.runSrcs a 3) fun s => s.mmaBody true true a p.toNat
/-- MMAQ.ACC. -/
def execMmaqAcc (stl : BitVec 3) (a : BitVec 5) (p : BitVec 1) (s : State) : Host.Outcome State Fault Refusal :=
  s.unit 1 stl (State.runSrcs a 3) fun s => s.mmaBody false true a p.toNat
/-- MACC.ST. -/
def execMaccSt (stl : BitVec 3) (a : BitVec 5) (x p : BitVec 1) (s : State) : Host.Outcome State Fault Refusal :=
  s.unit 1 stl (State.runSrcs a 2) fun s => s.maccBody false (x == 1#1) a p.toNat
/-- MACC.DRAIN. -/
def execMaccDrain (stl : BitVec 3) (a : BitVec 5) (x p : BitVec 1) (s : State) : Host.Outcome State Fault Refusal :=
  s.unit 1 stl (State.runSrcs a 2) fun s => s.maccBody true (x == 1#1) a p.toNat
/-- XEXP. -/
def execXexp (stl : BitVec 3) (a : BitVec 5) (n : BitVec 1) (f : BitVec 2) (p : BitVec 1) (s : State) : Host.Outcome State Fault Refusal :=
  s.unit 1 stl (State.runSrcs a 3) fun s => s.xexpBody f.toNat (n == 1#1) a p.toNat

/-! ## MHND (R272), MBAR (R246, R274) -/

/-- The pantry-window address of a staging area (R169, R272). -/
def areaAddr (clu shelf area : Nat) : Word := BitVec.ofNat 64 (0xFF * 2 ^ 48 + clu * 2 ^ 23 + shelf * 2 ^ 18 + area * 0x4000)

/-- MHND.SET. -/
def execMhndSet (stl : BitVec 3) (a b : BitVec 5) (s : State) : Host.Outcome State Fault Refusal :=
  s.unit 1 stl [(.g, a.toNat), (.g, b.toNat)] fun s =>
    let e := s.rg 0 a
    let x := s.rg 1 b
    let shelf := bits x 4 0
    let area := bits x 17 14
    let adr := areaAddr (clusterOf s.site) shelf area
    let sh := s.shelfAt (32 * clusterOf s.site + shelf)
    if bits e 1 0 ≠ 0 ∨ bits e 63 56 ≠ 0 then .trap 0x06#8 e
    else if s.coreEnabled (16 * clusterOf s.site + shelf / 2) = false then .trap 0x08#8 adr
    else if sh.target.getD sh.mode ≠ .scratch ∨ (shelf % 2 = 1 ∧ 12 < area) then .trap 0x09#8 adr
    else .ok (s.setCtx { s.ctx with rowh := some { entry := e, shelf := shelf, area := area } })
/-- MHND.CLR. -/
def execMhndClr (stl : BitVec 3) (s : State) : Host.Outcome State Fault Refusal :=
  s.unit 1 stl [] fun s => .ok (s.setCtx { s.ctx with rowh := none })

namespace State
/-- The stage of a wait in MBAR; `data` holds the phase. -/
def mbarStage : Nat := 50
/-- MBAR's effect. -/
def groupBarrier (s : State) : Res :=
  match s.pairOf s.site with
  | none => if s.waitNow.stage = mbarStage then .ok s else .trap 0x16#8 (leaseVal 1 0)
  | some p =>
    if s.drainsOut then s.hold
    else if p.partner.isNone then .ok s
    else if s.waitNow.stage = mbarStage then (if s.waitNow.data.head? = some p.phase then .wait s else .ok s)
    else
      let g := s.group p
      if (if g = 0 then p.arrived0 else p.arrived1) then .trap 0x16#8 (leaseVal 3 0)
      else if (if g = 0 then p.arrived1 else p.arrived0) then
        .ok (s.setPair { p with phase := p.phase + 1, arrived0 := false, arrived1 := false } (membersOf p))
      else
        let q := if g = 0 then { p with arrived0 := true } else { p with arrived1 := true }
        .wait ((s.setPair q (membersOf p)).setWait { s.waitNow with stage := mbarStage, kept := true, data := [p.phase] })
end State
/-- MBAR. -/
def execMbar (stl : BitVec 3) (s : State) : Host.Outcome State Fault Refusal := s.unit 1 stl [] fun s => s.groupBarrier

/-! ## MSTAT (R257, R275) -/

namespace State
/-- The status word (R257). GANG reads 1 while the pair's claim is on a gang, also while it does not hold the lease: R257 says only that 'the lease controls
a gang' (DESIGN CHOICE, log entry 113). -/
def mstat (s : State) : Word :=
  let b := fun (c : Bool) (k : Nat) => if c then 2 ^ k else 0
  let queued := min (s.cmdsOn (clusterOf s.site)).length 8
  let common := b s.ctx.half 62 + b (!s.ctx.merrs.isEmpty) 61 + queued * 2 ^ 32
  match s.pairOf s.site with
  | none => BitVec.ofNat 64 common
  | some p =>
    let cs := s.pairCmds p
    let prog := match cs.find? (fun m => m.op.isMma) with | some m => m.prog | none => p.prog
    let x := s.clu
    let left := if s.holds p && !x.runOver then x.runLimit - x.runCount else 0
    BitVec.ofNat 64 (common + b (!cs.isEmpty) 63 + b p.gang.isSome 60 + b (s.holds p) 59 + b (s.group p == 1) 56 + left % 256 * 2 ^ 48 +
      p.phase % 256 * 2 ^ 40 + prog % 2 ^ 32)
def clearHalf (s : State) : State := s.setCtx { s.ctx with half := false }
end State

/-- MSTAT. -/
def execMstat (stl : BitVec 3) (d : BitVec 5) (s : State) : Host.Outcome State Fault Refusal :=
  s.unit 1 stl [] fun s => .ok (s.clearHalf.putG d s.mstat)
/-- MSTAT.WAIT. -/
def execMstatWait (stl : BitVec 3) (d : BitVec 5) (s : State) : Host.Outcome State Fault Refusal :=
  s.unit 1 stl [] fun s =>
    match s.pendingErr with
    | some r => r
    | none => if !s.myCmds.isEmpty || s.drainsOut then s.hold else .ok (s.clearHalf.putG d s.mstat)

end Sys2Proof.Machine
end

