-- ==== Sys2Proof/Machine/RangeInstr.lean ====
section
/-! DEFINITION. RANGE: declaring, bounding, draining and freeing commutative ranges (11_memory_instructions, R208 to R211). -/
namespace Sys2Proof.Machine
open Sys2Proof

/-- The format that a FMT code names (R209). -/
def RFmt.ofCode : Nat → RFmt
  | 0 => .i32
  | 1 => .i64
  | 2 => .f32
  | _ => .bf16

/-- A bound in its limits: integer bounds are unsigned; an FP bound is a non-negative FP32 value or −0, in bits 31–0 (R209). -/
def RFmt.boundOk (f : RFmt) (b : Word) : Bool :=
  !f.fp || (bits b 63 32 == 0 && decide ((f32Val (low32 b)).isNan = false) && (!b.getLsbD 31 || low32 b == 0x80000000#32))
/-- The bound as the home uses it: −0 is a bound of zero. -/
def RFmt.boundOf (f : RFmt) (b : Word) : Word := if f.fp && low32 b == 0x80000000#32 then 0#64 else b

/-- A range descriptor (R209). -/
structure RDesc where
  base : Word
  len : Nat
  fmt : RFmt
  bound : Word
  deriving DecidableEq, Repr

/-- The words of a descriptor, when every field is in its limits; where the region ends is R198's concern (R210). -/
def RDesc.ofWords (w0 w1 w2 w3 : Word) : Option RDesc :=
  let n := w1.toNat
  let f := RFmt.ofCode (bits w2 1 0)
  if bits w0 63 56 == 0 && decide (w0.toNat % 128 = 0) && decide (128 ≤ n) && decide (n ≤ 2 ^ 24) && decide (n % 128 = 0) &&
      window w0.toNat == 0 && bits w2 63 2 == 0 && f.boundOk w3 then
    some { base := w0, len := n, fmt := f, bound := f.boundOf w3 }
  else none

namespace State

/-- The lines of some runs that start and end on lines. -/
def wholeLines : List (Nat × Nat) → List Nat
  | [] => []
  | (loc, n) :: rs => upto (lineOf loc) (n / 128) ++ wholeLines rs

/-- The home recalls the exclusive holders of lines (R210). -/
def recallLines (s : State) : List Nat → State
  | [] => s
  | l :: ls => recallLines (s.modPkg fun p => { p with coh := SMap.set {} p.coh l { SMap.get {} p.coh l with holder := none } }) ls
/-- The homes of a new range's lines: no sharer, and the shadows of their elements. The DECL writes the base values, which opens the lines (R153, R221). -/
def homeLines (s : State) (f : RFmt) : List Nat → State
  | [] => s
  | l :: ls => homeLines ((s.setRline l { s.rline l with sharers := [], decs := [], forcing := none, shadow := s.shadowOf l f }).openLine l) f ls

/-- The statuses of RANGE.DECL (R210): a free handle is any that is free (log entry 7). A range whose FREE still drains counts as active here, though ACC
finds it in no active range: which of the two, R210 and R211 do not say (DESIGN CHOICE, log entry 100). -/
def declare (s : State) (d : RDesc) (runs : List (Nat × Nat)) : Word × State :=
  let ls := wholeLines runs
  let free := (upto 0 256).filter fun h => (s.range h).isNone
  if ls.any fun l => (s.rangeAt l).isSome then (BitVec.ofNat 64 (2 * 2 ^ 56), s)
  else match free[s.choose 45000 free.length]? with
    | none => (BitVec.ofNat 64 (2 ^ 56), s)
    | some h =>
      let r : Range := { base := d.base, len := d.len, fmt := d.fmt, bound := d.bound, key := s.ctx.ask.toNat, mkid := s.ctx.mkid.toNat, lines := ls }
      (BitVec.ofNat 64 h, ((s.recallLines (ls.filter fun l => (SMap.get {} s.pkg.coh l).holder.isSome)).homeLines d.fmt ls).setRange h (some r))

/-- RANGE.DECL's effect for the descriptor at `a`. -/
def declBody (s : State) (d : BitVec 5) (a : Word) : Res :=
  match s.reach .read 0 a 32 32 [(0, 8), (8, 8), (16, 8), (24, 8)] with
  | .stop r => r
  | .go s runs =>
    match s.loadRuns runs none with
    | .stop r => r
    | .got bs s =>
      let w := fun (i : Nat) => BitVec.ofNat 64 (bytesToNat ((bs.drop (8 * i)).take 8))
      match RDesc.ofWords (w 0) (w 1) (w 2) (w 3) with
      | none => .trap 0x14#8 (rangeVal a 1)
      | some x =>
        match s.reach .write 0 x.base 1 x.len (crateParts x.base.toNat 0 x.len 258) 8 with
        | .stop r => r
        | .go s rs => if s.drainsOut || (wholeLines rs).any s.lineHeld then s.hold else let (v, s) := s.declare x rs; .ok (s.putG d v)

/-- The handle's range, when it is active and belongs to the issuer's key (R209). -/
def myRange (s : State) (h : Word) : Option Range :=
  if h.toNat < 256 then
    match s.range h.toNat with
    | some r => if r.key = s.ctx.ask.toNat then some r else none
    | none => none
  else none

/-- The stage of a RANGE that drains; `data` holds the handle and the lines still to drain. -/
def rangeStage : Nat := 20
/-- Another activation's DRAIN or FREE runs on a handle (R211), a halted one's too. -/
def rangeBusy (s : State) (h : Nat) : Bool :=
  let on := fun (w : Option Wait) => w.any fun w => w.stage == rangeStage && w.data.head? == some h
  s.allSites.any fun x => let c := s.ctxAt x; (x != s.site && on c.wait) || on (c.img.bind (·.wait))

def resplitAll (s : State) (r : Range) : List Nat → State
  | [] => s
  | l :: ls =>
    let x := s.rline l
    resplitAll (if x.sharers.isEmpty then s else s.resplit l r) r ls
/-- The lines of a range of which its home holds something. -/
def heldLines (s : State) (r : Range) : List Nat := (SMap.keys s.pkg.rlines).filter fun l => r.lines.contains l

/-- Some core still holds a partial line of `l`, or one of its messages is on the way. -/
def partsLeft (s : State) (l : Nat) : Bool :=
  (s.rline l).up.any (fun m => match m with | .ack _ _ => false | _ => true) ||
    (SMap.vals s.cores).any fun (c : Core) => (SMap.get none c.parts l).isSome
/-- A full drain of each line in turn (R211): the lines still to do, and the state. `all` also waits for partial lines whose core the home
does not know yet. -/
def drainLines (s : State) (f : RFmt) (all : Bool) : List Nat → List Nat × State
  | [] => ([], s)
  | l :: ls => match s.rangeTry l f none s.site with
    | (false, t) => (l :: ls, t)
    | (true, t) => if all && t.partsLeft l then (l :: ls, t.rangeServed t.site [l]) else drainLines (t.rangeServed t.site [l]) f all ls

/-- The handle is freed and its lines are ordinary again: no sharer, no shadow. -/
def dropLines (s : State) : List Nat → State
  | [] => s
  | l :: ls => dropLines (s.setRline l { s.rline l with sharers := [], decs := [], shadow := [], forcing := none }) ls
/-- FREE writes each element's folded value as it leaves the range, which opens the lines (R153, R221). -/
def openLines (s : State) (ls : List Nat) : State := ls.foldl openLine s

/-- DRAIN and FREE go on with the lines left. -/
def drainMore (s : State) (h : Nat) (r : Range) (free : Bool) (ls : List Nat) : Res :=
  match s.drainLines r.fmt free ls with
  | ([], t) => .ok (if free then ((t.dropLines (t.heldLines r)).openLines r.lines).setRange h none else t)
  | (m :: ms, t) => .wait (t.setWait { t.waitNow with stage := rangeStage, kept := true, data := h :: m :: ms })

/-- The stage of a RANGE that has met a FREE running on its handle: the handle is not active once that ends, whatever a DECL makes of it then (R211). -/
def freedStage : Nat := 22
/-- A RANGE that names a handle: it waits for the DRAIN or FREE that runs on it, and goes on with the handle's range, or raises RANGE 0x5. -/
def rangeTurn (s : State) (x : Word) (f : Range → Res) : Res :=
  let w := s.waitNow
  if decide (x.toNat < 256) && s.rangeBusy x.toNat then
    s.holdWith (if (s.range x.toNat).any (·.freeing) then { w with stage := freedStage } else w)
  else if w.stage = freedStage then .trap 0x14#8 5#64
  else match s.myRange x with
    | none => .trap 0x14#8 5#64
    | some r => if r.freeing then .trap 0x14#8 5#64 else f r
/-- DRAIN and FREE (R211): the event first, then the drains. -/
def drainBody (s : State) (x : Word) (free : Bool) : Res :=
  let w := s.waitNow
  if w.stage = rangeStage then
    let h := w.data.headD 0
    match s.range h with
    | some r => s.drainMore h r free w.data.tail
    | none => .ok s
  else s.rangeTurn x fun r =>
      if s.drainsOut then s.hold
      else if free then
        let held := r.lines.filter fun l => (SMap.keys s.pkg.rlines).contains l
        (s.setRange x.toNat (some { r with freeing := true })).drainMore x.toNat { r with freeing := true } true held
      else s.drainMore x.toNat r false (r.lines.filter fun l => !(s.rline l).sharers.isEmpty)

end State

/-- RANGE.DECL. -/
def execRangeDecl (stl : BitVec 3) (d a : BitVec 5) (s : State) : Host.Outcome State Fault Refusal :=
  s.unit 1 stl [(.g, a.toNat)] fun s => s.declBody d (s.rg 0 a)
/-- RANGE.BOUND. -/
def execRangeBound (stl : BitVec 3) (a b : BitVec 5) (s : State) : Host.Outcome State Fault Refusal :=
  s.unit 1 stl [(.g, a.toNat), (.g, b.toNat)] fun s =>
    let x := s.rg 0 a
    let v := s.rg 1 b
    s.rangeTurn x fun r =>
        if r.fmt.boundOk v = false then .trap 0x14#8 1#64
        else if s.drainsOut then s.hold
        else
          let r := { r with bound := r.fmt.boundOf v }
          .ok ((s.setRange x.toNat (some r)).resplitAll r (s.heldLines r))
/-- RANGE.DRAIN. -/
def execRangeDrain (stl : BitVec 3) (a : BitVec 5) (s : State) : Host.Outcome State Fault Refusal :=
  s.unit 1 stl [(.g, a.toNat)] fun s => s.drainBody (s.rg 0 a) false
/-- RANGE.FREE. -/
def execRangeFree (stl : BitVec 3) (a : BitVec 5) (s : State) : Host.Outcome State Fault Refusal :=
  s.unit 1 stl [(.g, a.toNat)] fun s => s.drainBody (s.rg 0 a) true

end Sys2Proof.Machine
end

