-- ==== Sys2Proof/Machine/MatrixEngine.lean ====
section
/-! DEFINITION. What the matrix engine does by itself: reservations, array starts, K-groups, rows, completions and lease hand-off (R64 to R66,
R183, R236 to R256, R333). -/
namespace Sys2Proof.Machine
open Sys2Proof
namespace State

def noStep (name : String) : Host.Outcome State Fault Refusal := .fault (.noSuchStep name)
/-- A step that is taken when there is one. -/
def stepIf (s : State) (name : String) (t : Option State) : Host.Outcome State Fault Refusal :=
  match t with
  | some t => s.event (.ok t)
  | none => noStep name

/-! ## Reservations (R183) -/

/-- The first command of a line's queue is granted it: exclusive holders are recalled, and a range line is first drained in full (R190). An AMSG
handler that comes first holds the line until its DONE (R204). -/
def grantLine (s : State) (line : Nat) : Option State :=
  let r := SMap.get {} s.pkg.resv line
  match r.ids with
  | [] => none
  | id :: _ =>
    if r.granted || !s.isCommand id then none
    else
      let take := fun (s : State) => (r.ids.filter s.isCommand).foldl (fun (s : State) i => s.keepLine i line) ((s.recallLines [line]).setResv line { r with granted := true })
      match s.rangeAt line with
      | none => some (take s)
      | some (_, x) =>
        match s.rangeTry line x.fmt none (4096 + id) with
        | (true, t) => some (take (t.rangeServed (4096 + id) [line]))
        | (false, t) => if (s.rline line).forcing.isSome then none else if (t.rline line) ≠ s.rline line then some t else none

/-! ## Array starts (R333) -/

/-- Starts that wait on a die: class, request cycle, cluster, command (R333). -/
def startsOf (s : State) (d : Nat) : List (Nat × Nat × Nat × MCmd) :=
  ((s.dieCmds d).filter fun m => m.asked.isSome && !m.started).flatMap fun m =>
    (m.members.filter fun c => !m.grants.contains c).map fun c => (m.cls, m.asked.getD 0, c, m)
def startBefore (a b : Nat × Nat × Nat × MCmd) : Bool :=
  decide (a.1 < b.1) || (a.1 == b.1 && (decide (a.2.1 < b.2.1) || (a.2.1 == b.2.1 && decide (a.2.2.1 ≤ b.2.2.1))))
/-- The governor grants the next start of a die, at most one per SPACING cycles. -/
def grantStart (s : State) (d : Nat) : Option State :=
  let s := s.askStarts d
  let due := match (s.dieAt d).lastGrant with | some c => decide (c + s.spacing d ≤ s.cycle) | none => true
  match (s.startsOf d).mergeSort startBefore with
  | (_, _, c, m) :: _ =>
    if due then
      let s := (s.modDie d fun x => { x with lastGrant := some s.cycle }).bumpReg d 0x3010
      let s := s.modClu c fun x => { x with arrayBusy := true }
      some (s.startIf { m with grants := m.grants ++ [c] })
    else none
  | [] => none

/-! ## K-groups (R64 to R66) -/

/-- Rows of an operand over a group of K: one list of element patterns per row. -/
def operand (s : State) (m : MCmd) (t : TensorEntry) (row k n : Nat) : Nat → Eng (List (List Nat))
  | 0 => .ok [] s
  | c + 1 => (s.engRead m.who m.id m.kept (Tensor.elems t row k n)).bind fun v s =>
      (operand s m t (row + 1) k n c).bind fun rest s => .ok (unpackBits (Tensor.width (Tensor.fmt t)) v n :: rest) s
/-- Scale and zero point of group j of rows. -/
def quants (s : State) (m : MCmd) (t : TensorEntry) (row j : Nat) : Nat → Eng (List (Ex × Int))
  | 0 => .ok [] s
  | c + 1 => (s.engRead m.who m.id m.kept (Tensor.scales t row j 1)).bind fun sc s =>
      (s.engRead m.who m.id m.kept (Tensor.zps t row j 1)).bind fun z s =>
        (quants s m t (row + 1) j c).bind fun rest s => .ok ((Fmt.f16.dec sc, (z : Int)) :: rest) s

/-- The plane's cell of tile element (i, n): its cluster and its number (R249). -/
def cellOf (m : MCmd) (i n : Nat) : Nat × Nat :=
  (m.members.getD (i / 256 * gangCols m.shape + n / 256) 0, 65536 * m.plane + i % 256 * 256 + n % 256)
def cell (s : State) (c : Nat × Nat) : BitVec 32 := SMap.get 0#32 (s.cluAt c.1).planes c.2
def setCell (s : State) (c : Nat × Nat) (v : BitVec 32) : State :=
  s.modClu c.1 fun x => { x with planes := SMap.set 0#32 x.planes c.2 v }

end State

/-- The exact product of two elements (R64, R65): of two integers it is an integer, which has no −0. -/
def elemProd (fa fb x y : Nat) : Ex :=
  match Ex.mul (elemVal fa x) (elemVal fb y) with
  | .fin _ 0 d e => if (Tensor.float fa).isSome then Ex.mul (elemVal fa x) (elemVal fb y) else .fin false 0 d e
  | p => p

/-- The addend of one group for a cell: R64's exact sum, or R66's rounded t. -/
def groupTerm (m : MCmd) (g : Nat) (a b : List Nat) (qa qb : Ex × Int) : Ex :=
  let fa := Tensor.fmt (m.ten 0)
  let fb := Tensor.fmt (m.ten 1)
  match m.op with
  | .mma _ true =>
    let sab : Int := (((a.zip b).map fun p => p.1 * p.2).foldl (· + ·) 0 : Nat)
    let sa : Int := (a.foldl (· + ·) 0 : Nat)
    let sb : Int := (b.foldl (· + ·) 0 : Nat)
    let d := sab - qb.2 * sa - qa.2 * sb + (g : Int) * qa.2 * qb.2
    f32Val (roundNE32 (Ex.mul (Ex.mul qa.1 qb.1) (Ex.ofInt d)))
  | _ => Ex.sum ((a.zip b).map fun p => elemProd fa fb p.1 p.2)

namespace State

/-- One group's update of a member's block of the tile, from row `i0` and column `j0` on: a single rounding of every accumulator (R64, R66). -/
def updateBlock (s : State) (m : MCmd) (g i0 j0 : Nat) (as bs : List (List Nat)) (qas qbs : List (Ex × Int)) : State :=
  (upto 0 as.length).foldl (fun (s : State) i =>
    (upto 0 bs.length).foldl (fun (s : State) n =>
      let c := cellOf m (i0 + i) (j0 + n)
      let t := groupTerm m g (as.getD i []) (bs.getD n []) (qas.getD i (.fin false 0 1 0, 0)) (qbs.getD n (.fin false 0 1 0, 0))
      s.setCell c (roundNE32 (Ex.add (f32Val (s.cell c)) t))) s) s

/-- The alarm of a die (R332, R334). -/
def alarm (s : State) (d : Nat) : Bool := (s.reg d 0x3008).getLsbD 63

/-- What the next group does to the block of member `c`, when its operands can be read (R249, R251). -/
def memberGroup (s : State) (m : MCmd) (c : Nat) : Eng Unit :=
  let x := (m.members.findIdx? (· == c)).getD 0
  let i0 := 256 * (x / gangCols m.shape)
  let j0 := 256 * (x % gangCols m.shape)
  let rs := min 256 (m.rowsM - i0)
  let ns := min 256 (m.colsN - j0)
  let g := m.groupLen
  let k := m.arg 4 + m.prog * g
  let n := min g (m.arg 4 + m.arg 5 - k)
  let quant := match m.op with | .mma _ q => q | _ => false
  if rs = 0 ∨ ns = 0 then .ok () s
  else (s.operand m (m.ten 0) (m.arg 2 + i0) k n rs).bind fun as s =>
    (s.operand m (m.ten 1) (m.arg 3 + j0) k n ns).bind fun bs s =>
      if quant then
        (s.quants m (m.ten 0) (m.arg 2 + i0) (k / g) rs).bind fun qa s =>
          (s.quants m (m.ten 1) (m.arg 3 + j0) (k / g) ns).bind fun qb s => .ok () (s.updateBlock m g i0 j0 as bs qa qb)
      else .ok () (s.updateBlock m g i0 j0 as bs [] [])

/-- The contexts of a pair see that a group ran in half-column mode (R257). -/
def markHalf (s : State) (m : MCmd) : State :=
  match s.pairOf m.primary with
  | none => s
  | some p => (p.primary :: p.partner.toList).foldl (fun (s : State) x => s.modCtxAt (x % 4096) fun c =>
      if x < 4096 then { c with half := true } else { c with img := c.img.map fun i => { i with half := true } }) s

/-- PROG of the command's pair. -/
def noteProg (s : State) (m : MCmd) : State :=
  match s.pairOf m.primary with
  | none => s
  | some p => s.setPair { p with prog := m.prog } (membersOf p)

/-- A member of a command meets an absent page (R251, R393). -/
def parkMember (s : State) (m : MCmd) (member key page access : Nat) (val : Word) : MCmd × State :=
  ({ m with parked := m.parked ++ [{ member := member, key := key, page := page, val := val }] }, s.parkAt (dieOf m.site)
    { key := key, page := page, access := access, agent := 1, site := s.pkg.num * 4096 + m.site, tick := s.tick (dieOf m.site) })

/-- A command stops with an error; PROG stays where it stopped (R251). -/
def failCmd (s : State) (m : MCmd) (code : Nat) (addr : Word) : State :=
  let s := s.setCmd { m with failed := true, err := some ((m.err).getD { ticket := m.id, code := code, addr := addr }) }
  if m.op.isMma then s.noteProg m else s

/-- The error that PAGE.RESUME's verdict makes of a parked command (R219). -/
def verdictCode (v : Nat) : Nat := if v = 1 then 0x12 else 0x13

/-- What an engine result means for a command: go on, or stop, park, or wait. PAGE.RESUME's verdict stops it (R219). -/
def cmdStep {α : Type} (s : State) (m : MCmd) (e : Eng α) (f : α → State → Option State) : Option State :=
  match (if m.verdict = 0 then e else .err (verdictCode m.verdict) m.pval) with
  | .ok a t => f a t
  | .err c a => some (s.failCmd m c a)
  | .absent k p v x => let (m, t) := s.parkMember m (clusterOf m.site) k p x v; some (t.setCmd m)
  | .busy => none

/-- Members that have not completed the group in progress go on: each completes it, parks, waits, or stops the command on every member. -/
def membersGo (s : State) (m : MCmd) : List Nat → Option (Nat × Word) × MCmd × State
  | [] => (none, m, s)
  | c :: cs =>
    if m.ahead.contains c || m.parked.any (fun q => q.member == c) then membersGo s m cs
    else match s.memberGroup m c with
      | .ok _ t => membersGo t { m with ahead := m.ahead ++ [c] } cs
      | .err k a => (some (k, a), m, s)
      | .absent k p v x => let (m, t) := s.parkMember m c k p x v; membersGo t m cs
      | .busy => membersGo s m cs

/-- The running MMA that a cluster's contexts issued goes on with its K-group, on every member that can; the group is complete when it is on each of them
(R251). -/
def kgroup (s : State) (c : Nat) : Option State :=
  match (s.cluAt c).cmds.find? fun m => m.op.isMma && m.started && !m.failed && decide (m.prog < m.groupsK) with
  | none => none
  | some m =>
    if m.verdict ≠ 0 then some (s.failCmd m (verdictCode m.verdict) m.pval)
    else
      let d := dieOf m.site
      let (err, n, t) := s.membersGo m m.members
      let k := n.ahead.length - m.ahead.length
      let t := if 0 < k ∧ t.alarm d = true then (t.modDie d fun x => { x with halfGroups := x.halfGroups + k }).markHalf m else t
      match err with
      | some (code, a) => some (t.failCmd n code a)
      | none =>
        if n = m then none
        else if m.members.all n.ahead.contains then
          let n := { n with prog := m.prog + 1, ahead := [] }
          some (((t.setCmd n).noteProg n).askStarts d)
        else some (t.setCmd n)

/-! ## Drains (R252, R253) -/

/-- Where a segment of a drain comes from and goes to: its row, first column and width. -/
def segAt (m : MCmd) (k : Nat) : Nat × Nat × Nat :=
  let i := k / m.segCols
  let j := k % m.segCols
  (i, 256 * j, min 256 (m.colsN - 256 * j))
/-- FP32 patterns of a row's cells. -/
def rowCells (s : State) (m : MCmd) (i c n : Nat) : List (BitVec 32) := (upto c n).map fun k => s.cell (cellOf m i k)
/-- A staging slot's address. -/
def slotAddr (m : MCmd) (k : Nat) : Word :=
  match m.rowh with
  | some h => areaAddr (clusterOf m.site) h.shelf h.area + BitVec.ofNat 64 (0x400 * k)
  | none => 0#64

/-- The message to a row handler (R253); its TAG and SRCSITE are the model's choice (log entry 81). -/
def rowMsg (s : State) (m : MCmd) (seg i c slot : Nat) : Msg :=
  { dst := m.site, src := m.site, srcPkg := s.pkg.num, dstPkg := s.pkg.num, cls := m.cls, kind := .rowdrain,
    entry := match m.rowh with | some h => h.entry | none => 0#64, sendTick := s.tick (dieOf m.site), key := m.key,
    payload := [BitVec.ofNat 64 i, slotAddr m slot, BitVec.ofNat 64 c], seg := some (m.id, seg), inst := m.inst }

/-- A MACC.DRAIN whose turn it is stages its next segment in a free slot; which, the spec leaves open (log entry 7). -/
def stageRow (s : State) (c : Nat) : Option State :=
  let all := s.dieCmds (c / 16)
  match (s.cluAt c).cmds.find? fun m => (match m.op with | .macc _ st => st | _ => false) && !m.failed && m.parked.isEmpty && decide (m.staged < m.segs) && turn all m with
  | none => none
  | some m =>
    let free := (upto 0 16).filter fun k => !m.slots.any fun t => t.slot == k
    match free[s.choose 51000 free.length]? with
    | none => none
    | some k =>
      let (i, col, n) := segAt m m.staged
      let a : Area := { addr := slotAddr m k, bit := 0, len := 32 * n }
      let e := (s.engRuns m.who .write a.addr a.bytes).bind fun runs s => if (linesOf runs).any (s.lineBusy m.id) then .busy else .ok runs s
      s.cmdStep m e fun runs t =>
        let t := t.engWrite a runs (packBits 32 ((s.rowCells m i col n).map (·.toNat)))
        some (((t.setCmd { m with staged := m.staged + 1, slots := m.slots ++ [{ slot := k, seg := m.staged }] }).post (s.rowMsg m m.staged i col k)).askStarts (c / 16))

/-- FP32 patterns converted for a drain's tensor (R252). -/
def drainVals (m : MCmd) (xs : List (BitVec 32)) : Nat :=
  let f := Tensor.fmt (m.ten 0)
  let sat := match m.op with | .macc st _ => st | _ => false
  packBits (Tensor.width f) (xs.map fun x => toElem f sat (f32Val x))

/-- A segment whose handler is done is committed; one whose handler failed, or whose command has stopped, only frees its slot (R253, R251). A destination
line that translates only now is registered first (log entry 34). -/
def commitRow (s : State) (c : Nat) : Option State :=
  match (s.cluAt c).cmds.find? fun m => m.parked.isEmpty && m.slots.any fun t => t.st != 0 with
  | none => none
  | some m =>
    match m.slots.find? fun t => t.st != 0 with
    | none => none
    | some t =>
      let m1 := { m with slots := m.slots.filter (fun x => x.seg != t.seg), donesegs := m.donesegs + 1 }
      if t.st = 2 then
        some (s.setCmd { m1 with err := some ((m.err).getD { ticket := m.id, code := 0x20, addr := 0#64 }) })
      else if m.failed then some (s.setCmd m1)
      else if m.verdict = 0 && m.lines.any (fun l => !s.granted m.id l) then none
      else
        let (i, col, n) := segAt m t.seg
        let src : Area := { addr := slotAddr m t.slot, bit := 0, len := 32 * n }
        let dst := Tensor.elems (m.ten 0) (m.arg 2 + i) (m.arg 3 + col) n
        let e := (s.engNow m.who m.id src).bind fun v s => (s.engRuns m.who .write dst.addr dst.bytes).bind fun runs s => .ok (v, runs) s
        match (if m.verdict = 0 then e else .err (verdictCode m.verdict) m.pval) with
        | .busy => none
        | .err k a => some (s.failCmd m1 k a)
        | .absent k p v x => let (m, t) := s.parkMember m (clusterOf m.site) k p x v; some (t.setCmd m)
        | .ok x u =>
          let new := sortNats ((linesOf x.2).filter fun l => !m.lines.contains l)
          if new.isEmpty then some ((u.engWrite dst x.2 (drainVals m ((unpackBits 32 x.1 n).map (BitVec.ofNat 32)))).setCmd m1)
          else if new.any (u.handlerAt m.id m.serial) then none
          else some ((u.setCmd { m with lines := m.lines ++ new }).reserve m.id m.serial new)

/-! ## XEXP (R255, R273) -/

end State

/-- Exp32: VSFU.EXP at FP32 (R255). -/
def exp32 (x : BitVec 32) : BitVec 32 := BitVec.ofNat 32 (sfuLane .exp .f32 none x.toNat).1
/-- RoundNE32(c × x − c × m). -/
def expArg (c : Ex) (x m : BitVec 32) : BitVec 32 := roundNE32 (Ex.add (Ex.mul c (f32Val x)) (Ex.mul c (f32Val m)).neg)
/-- −∞ in FP32, and the canonical NaN. -/
def negInf32 : BitVec 32 := 0xFF800000#32
def nan32 : BitVec 32 := 0x7FC00000#32

/-- A row's results: every e, then m, s and α. Members' parts of 256 columns have a tree each, folded in ascending column order. -/
def xexpOne (c : Ex) (mIn : BitVec 32) (xs : List (BitVec 32)) : List (BitVec 32) × BitVec 32 × BitVec 32 × BitVec 32 :=
  let m := xs.foldl (fun a x => f32Max a x) mIn
  if (f32Val m).isNan then (xs.map fun _ => nan32, nan32, nan32, nan32)
  else if m = negInf32 then (xs.map fun _ => 0#32, m, 0#32, 0x3F800000#32)
  else
    let es := xs.map fun x => exp32 (expArg c x m)
    let tree := fun (k : Nat) => (treeRoot Ex.add ((es.drop (256 * k)).take 256 ++ List.replicate (256 - ((es.drop (256 * k)).take 256).length) 0x80000000#32)).1
    let parts := (upto 0 ((xs.length + 255) / 256)).map tree
    let sum := match parts with | [] => 0#32 | p :: ps => ps.foldl f32Add p
    (es, m, sum, if mIn = negInf32 then 0#32 else exp32 (expArg c mIn m))

/-- The output format of XEXP. -/
def xexpFmt (pf : Nat) : Fmt := match pf with | 0 => .bf16 | 1 => .e4m3 | _ => .e5m2

namespace State

/-- The areas and values that row i of an XEXP writes, and those of its maximum. -/
def xexpRowData (s : State) (m : MCmd) (pf : Nat) (hasMax : Bool) (i : Nat) : Eng (List (Area × Nat)) :=
  let o : Word := BitVec.ofNat 64 (m.arg 2)
  let c := f32Val (BitVec.ofNat 32 (m.arg 3))
  let f := xexpFmt pf
  let q := m.rowsM * xexpRow pf m.colsN
  let a := xexpArr m.rowsM
  let maxIn : Eng (BitVec 32) :=
    if hasMax then (s.engRead m.who m.id m.kept (areaAt (BitVec.ofNat 64 (m.arg 4)) (32 * i) 32)).bind fun v s => .ok (BitVec.ofNat 32 v) s
    else .ok negInf32 s
  maxIn.bind fun mIn s =>
    let r := xexpOne c mIn (s.rowCells m i 0 m.colsN)
    let w := fun (off : Nat) (v : BitVec 32) => (areaAt o (8 * (q + off + 4 * i)) 32, v.toNat)
    .ok [(areaAt o (8 * (i * xexpRow pf m.colsN)) (f.width * m.colsN), packBits f.width (r.1.map fun e => (roundEx f .rne false (f32Val e)).1)),
         w 0 r.2.1, w a r.2.2.1, w (2 * a) r.2.2.2] s

/-- The rows that a direct command writes: MACC.ST's or XEXP's row i. -/
def cmdRow (s : State) (m : MCmd) (i : Nat) : Eng (List (Area × Nat)) :=
  match m.op with
  | .xexp pf hasMax => s.xexpRowData m pf hasMax i
  | _ => .ok [(Tensor.elems (m.ten 0) (m.arg 2 + i) (m.arg 3) m.colsN, drainVals m (s.rowCells m i 0 m.colsN))] s
def cmdRows (s : State) (m : MCmd) (i : Nat) : Nat → List (List (Area × List (Nat × Nat) × Nat)) × Eng Unit
  | 0 => ([], .ok () s)
  | n + 1 =>
    match (s.cmdRow m i).bind fun ws s => s.engDests m.who ws with
    | .ok ws s => let (rest, e) := cmdRows s m (i + 1) n; (ws :: rest, e)
    | .err k a => ([], .err k a)
    | .absent k p v x => ([], .absent k p v x)
    | .busy => ([], .busy)

/-! ## Completion (R237, R240, R251) -/

/-- Tell the issuer of a command's error, or the fault log (R251). -/
def tellErr (s : State) (m : MCmd) : State :=
  match m.err with
  | none => s
  | some e =>
    let s := s.engMet m.site e.code e.addr
    if s.alive m.site m.serial then s.modCtxAt m.site fun c =>
      if runs c m.serial then { c with merrs := c.merrs ++ [e] } else { c with img := c.img.map fun i => { i with merrs := i.merrs ++ [e] } }
    else s.faultRecord (dieOf m.site) 1 e.code (s.pkg.num * 4096 + m.site) 0#64 (engineVal e.code e.addr) 0

/-- Arrays that a finished MMA leaves with nothing to run go idle (R256). -/
def idleArrays (s : State) (all : List MCmd) : List Nat → State
  | [] => s
  | c :: cs =>
    let next := all.any fun m => m.op.isMma && m.members.contains c && turn all m
    idleArrays (if next then s else s.modClu c fun x => { x with arrayBusy := false }) all cs

/-- A command leaves its unit: its reservations end, its error is told, its arrays go on or go idle, and leases to be released are. -/
def endCmd (s : State) (m : MCmd) : State :=
  let s := s.unreserve m.id m.lines
  let s := s.modClu (clusterOf m.site) fun x => { x with cmds := x.cmds.filter fun c => c.id != m.id }
  let s := s.tellErr m
  let s := s.askStarts (dieOf m.site)
  let s := if m.op.isMma && m.started then s.idleArrays (s.dieCmds (dieOf m.site)) m.members else s
  s.settleLeases m.members

/-- A direct command does its work and ends; an error leaves any number of the rows before it written (log entry 7). What PAGE.RESUME declared of it stops it
at the row that had found the page (log entry 74). -/
def runDirect (s : State) (m : MCmd) : Option State :=
  let (all, e) := s.cmdRows m 0 m.rowsM
  let rows := if m.verdict = 0 then all else all.take m.stop
  let m := if m.verdict = 0 then { m with stop := rows.length } else m
  let new := sortNats ((linesOf ((rows.flatten.map fun w => w.2.1).flatten)).filter fun l => !m.lines.contains l)
  if !new.isEmpty then (if new.any (s.handlerAt m.id m.serial) then none else some ((s.setCmd { m with lines := m.lines ++ new }).reserve m.id m.serial new))
  else match s.cmdStep m e fun _ t => some ((t.engStore rows.flatten).setCmd m) with
    | none => none
    | some t =>
      match (t.cluAt (clusterOf m.site)).cmds.find? fun c => c.id == m.id with
      | none => some t
      | some c =>
        if !c.parked.isEmpty then some t
        else if c.failed then some ((t.engStore (rows.take (s.choose 50000 (rows.length + 1))).flatten).endCmd c)
        else some (t.endCmd c)

/-- The first command that a cluster's contexts issued and that can complete. PROG counts the groups of an incomplete MMA, so that it reads 0 once
the MMA has completed (R251, 16_matrix_program_fp32); it stays where an error stopped it. -/
def completeCmd (s : State) (c : Nat) : Option State :=
  let all := s.dieCmds (c / 16)
  let done := fun (m : MCmd) =>
    match m.op with
    | .mma _ _ => m.failed || (m.started && decide (m.groupsK ≤ m.prog))
    | .macc _ true => m.slots.isEmpty && (m.failed || decide (m.segs ≤ m.donesegs))
    | _ => m.parked.isEmpty && turn all m && m.lines.all fun l => s.granted m.id l
  match (s.cluAt c).cmds.find? done with
  | none => none
  | some m =>
    match m.op with
    | .mma _ _ => some (if m.failed then s.endCmd m else (s.noteProg { m with prog := 0 }).endCmd m)
    | .macc _ true => some (s.endCmd m)
    | _ => s.runDirect m

/-! ## Hand-off (R240) -/

/-- The lease of a cluster passes to the waiting claimant of the lowest class, and within it to the next primary after the last holder. -/
def handoff (s : State) (c : Nat) : Option State :=
  let x := s.cluAt c
  if x.lease.isSome then none
  else
    let key := fun (k : Nat × Nat × Nat) => (k.1, (k.2.1 % 4096 + 4096 - (x.lastPrimary + 1)) % 4096)
    let before := fun (a b : Nat × Nat × Nat) => decide ((key a).1 < (key b).1) || ((key a).1 == (key b).1 && decide ((key a).2 ≤ (key b).2))
    match (s.claimants c).mergeSort before with
    | [] => none
    | k :: _ => some (s.giveLease c k.2.1)

end State

/-- RESERVATION_GRANT (R183). -/
def execReservationGrant (line : Nat) (s : State) : Host.Outcome State Fault Refusal := s.stepIf "RESERVATION_GRANT" (s.grantLine line)
/-- ARRAY_START_GRANT (R333). -/
def execArrayStartGrant (die : Nat) (s : State) : Host.Outcome State Fault Refusal := s.stepIf "ARRAY_START_GRANT" (s.grantStart die)
/-- KGROUP_COMPLETE (R251). -/
def execKgroupComplete (cluster : Nat) (s : State) : Host.Outcome State Fault Refusal := s.stepIf "KGROUP_COMPLETE" (s.kgroup cluster)
/-- MATRIX_COMMAND_COMPLETE (R251). -/
def execMatrixCommandComplete (cluster : Nat) (s : State) : Host.Outcome State Fault Refusal :=
  s.stepIf "MATRIX_COMMAND_COMPLETE" (s.completeCmd cluster)
/-- ROW_STAGE (R253). -/
def execRowStage (cluster : Nat) (s : State) : Host.Outcome State Fault Refusal := s.stepIf "ROW_STAGE" (s.stageRow cluster)
/-- ROW_COMMIT (R253). -/
def execRowCommit (cluster : Nat) (s : State) : Host.Outcome State Fault Refusal := s.stepIf "ROW_COMMIT" (s.commitRow cluster)
/-- LEASE_HANDOFF (R240). -/
def execLeaseHandoff (cluster : Nat) (s : State) : Host.Outcome State Fault Refusal := s.stepIf "LEASE_HANDOFF" (s.handoff cluster)

end Sys2Proof.Machine
end

