-- ==== Sys2Proof/Machine/Send.lean ====
section
/-! DEFINITION. How messages leave: routes, inboxes and those who wait for room in them, and the waits of WAIT, JOIN and BAR
(20_dispatch_engine R328 to R331; 21_dispatch_instructions R341, R342; 23_host_and_peers R367). -/
namespace Sys2Proof.Machine
open Sys2Proof
namespace State

/-! ## Routes (R367) -/

inductive Route where
  | here
  | port (p : Nat)
  | down
  deriving DecidableEq, Repr

/-- The offset that holds a package's entry of the route table. Those of packages 512 to 514 would lie at the offsets of die 0's publish register: they
stand at 0x9000 to 0x9010 (log entry 90). -/
def routeReg (pkg : Nat) : Nat := if 512 ≤ pkg ∧ pkg ≤ 514 then 0x8000 + 8 * pkg else 0x6000 + 8 * pkg
/-- Where a message for a package goes. -/
def routeOf (s : State) (pkg : Nat) : Route :=
  let e := s.reg 0 (routeReg pkg)
  if pkg = s.pkg.num ∨ e.getLsbD 62 = true then .here else if e.getLsbD 63 && s.portEnabled (bits e 51 48) then .port (bits e 51 48) else .down
/-- A message for a package is dropped: DROPS counts it. -/
def dropFor (s : State) (pkg : Nat) : State :=
  let e := s.reg 0 (routeReg pkg)
  s.setReg 0 (routeReg pkg) (putBits e 31 0 (bits e 31 0 + 1))

/-- The stage of a wait for a status from another package. -/
def awayStage : Nat := 124
/-- A message leaves by a port, and a status of the peer's will arrive: the peer's judgement is not this package's, so it is any of those that it may
answer (log entry 7). -/
def ask (s : State) (p tok : Nat) (m : Msg) (statuses : List Nat) (n : Nat) : State :=
  let st := statuses.getD (s.choose 49000 statuses.length) 0
  s.modPkg fun x => { x with sent := x.sent ++ [(p, tok, m)], results := x.results ++ [(s.site, { token := tok, status := 0, value := statusWord st n })] }

/-- A message goes to another package and its status is awaited. -/
def sendAway (s : State) (d : BitVec 5) (m : Msg) (statuses : List Nat) : Res :=
  let w := s.waitNow
  if w.stage = awayStage then
    match s.replyOf w.token with
    | none => .wait s
    | some r => .ok ((s.dropReply w.token).putG d r.value)
  else match s.routeOf m.dstPkg with
    | .port p =>
      let (id, s) := s.fresh
      .wait ((s.ask p id m statuses 0).setWait { w with stage := awayStage, token := id, kept := true, data := [d.toNat] })
    | _ => .ok ((s.dropFor m.dstPkg).putG d (statusWord 5 0))

/-! ## Room (R342) -/

/-- An ordered queue has room: the oldest TASK that waits for it enters (R328). -/
def serveQueue (s : State) (c : Nat) : State :=
  match s.pkg.senders.find? fun w => w.msg.kind == .task && coreOf w.msg.dst == c with
  | none => s
  | some w =>
    if 256 ≤ (s.queued c).length || s.waiterHeld w then s
    else ((s.takeWaiter w).served w).enqueue c { w.msg with sendTick := if w.site = homeAgent then w.msg.sendTick else s.tick (dieOf w.site) }

/-- Append a message as SEND.B does, then go on with `fin` (R342); a TASK goes to its core's queue (R347). A waiter that its core's drains have kept from
its slot takes it when they are acknowledged (R224). -/
def sendWait (s : State) (m : Msg) (fin : State → Res) : Res :=
  let w := s.waitNow
  let c := coreOf m.dst
  if w.stage = sentStage then fin s
  else if w.stage = sendStage then
    let t := if m.kind = .task then s.serveQueue c else s.serveInbox c (inboxOf m)
    if t.waitNow.stage = sentStage then fin t else .wait t
  else
    let room := if m.kind = .task then decide ((s.queued c).length < 256) && !(s.pkg.senders.any fun x => x.msg.kind == .task && coreOf x.msg.dst == c)
      else s.inboxRoom c (inboxOf m)
    if room then fin (if m.kind = .task then s.enqueue c m else s.append { m with arr := s.tick (dieOf m.dst) })
    else
      let (id, s) := s.fresh
      .wait ((s.modPkg fun p => { p with senders := p.senders ++ [{ site := s.site, token := id, msg := m }] }).setWait
        { w with stage := sendStage, token := id })

/-- A destination word (R341). -/
def destBad (x : Word) : Bool := bits x 63 40 != 0
/-- A CLASS the issuer may not use. -/
def classBad (s : State) (cls : Nat) : Bool := decide (cls < s.ctx.pri.toNat) && !s.privileged
/-- ENGINE with BADCMD (R341). -/
def badCmd : Res := .trap 0x17#8 (engineVal 0x19 0#64)
def noSite : Res := .trap 0x17#8 (engineVal 0x30 0#64)
/-- The message a destination word asks for. -/
def destMsg (s : State) (kind : Kind) (x entry : Word) (pay : List Word) : Msg :=
  { s.mkMsg kind (bits x 11 0) (bits x 23 22) entry pay with dstPkg := bits x 21 12, tag := BitVec.ofNat 16 (bits x 39 24) }

/-! ## WAIT, JOIN, BAR: the monitor table (R331) -/

/-- A condition: its kind (0 ADDR, 1 INBOX, 2 BAR, 3 XFER, 4 GVT, 5 SETTLE) and its fields. -/
structure Cond where
  kind : Nat
  a : Nat
  b : Nat := 0
  c : Nat := 0
  deriving DecidableEq, Repr

/-- Compare codes of ADDR (R348); 8 is JOIN's signed ≤ (R346). -/
def condCmp (code : Nat) (m v : Word) : Bool :=
  match code with
  | 0 => m == v
  | 1 => m != v
  | 2 => m.slt v
  | 3 => !m.slt v
  | 4 => m.ult v
  | 5 => !m.ult v
  | _ => m.sle v

/-- The doubleword at a location. -/
def condWord (s : State) (loc : Nat) : Word := BitVec.ofNat 64 (bytesToNat (s.rdN loc 8))
/-- A condition of the issuing context holds now (R346, R348). -/
def condNow (s : State) (x : Cond) : Bool :=
  match x.kind with
  | 0 => condCmp x.b (s.condWord x.a) (BitVec.ofNat 64 x.c)
  | 1 => !(s.inbox (coreOf s.site) (4 * (s.site % 4) + x.a)).isEmpty
  | 2 => bits (s.condWord x.a) 15 0 != x.b
  | 3 => !s.xferPending (BitVec.ofNat 64 x.a)
  | 4 => decide (x.a ≤ s.gvtOf s.ctx.ask.toNat)
  | _ => match s.crec x.a with | some r => s.settledTo x.a (r.layers - 1) x.b | none => false
/-- A condition watches memory. -/
def Cond.watches (x : Cond) : Bool := x.kind == 0 || x.kind == 2
/-- The lines that conditions monitor. -/
def condLines (xs : List Cond) : List Nat := (xs.filter Cond.watches).map fun x => lineOf x.a
/-- The reads of a check (R331): every condition at once, as read events; none while a line of them is held, a range line is forced (R190), or the
core's drains are out (R224). -/
def readConds (s : State) (xs : List Cond) : Option (List Bool) × State :=
  let ls := condLines xs
  if (s.drainsOut && !s.ownForcing ls) || ls.any s.lineHeld then (none, s.rangeServed s.site ls)
  else match s.rangeTryAll none s.site (ascending ls) with
    | (false, t) => (none, t)
    | (true, t) => (some (xs.map t.condNow), (t.touch ls).rangeServed t.site ls)
/-- Which of the conditions that events re-check hold now: all but the address conditions beyond the first `k`, which run in coarse mode (R331). -/
def fineNow (s : State) : Nat → List Cond → List Bool
  | _, [] => []
  | k, x :: xs =>
    if x.watches then (match k with | 0 => false :: fineNow s 0 xs | k + 1 => s.condNow x :: fineNow s k xs) else s.condNow x :: fineNow s k xs
/-- The mask of the conditions found true. -/
def condMask : List Bool → Nat
  | [] => 0
  | b :: bs => (if b then 1 else 0) + 2 * condMask bs

/-- The stages of a wait on conditions, and of one whose result stands in `data`. -/
def monStage : Nat := 130
def monDone : Nat := 131

/-- What a wait on conditions is for: WAIT with ANY or ALL, JOIN, a barrier's departure for a token. -/
inductive Form where
  | any
  | all
  | join
  | bar
  deriving DecidableEq, Repr
def Form.num : Form → Nat
  | .any => 0
  | .all => 1
  | .join => 2
  | .bar => 3
def Form.ofNum : Nat → Form
  | 0 => .any
  | 1 => .all
  | 2 => .join
  | _ => .bar
/-- A wait's data: its form, whether some condition runs in coarse mode, and its conditions. -/
def packConds (f : Form) (coarse : Bool) (xs : List Cond) : List Nat :=
  f.num :: (if coarse then 1 else 0) :: xs.flatMap fun x => [x.kind, x.a, x.b, x.c]
def unpackConds : Nat → List Nat → List Cond
  | n + 1, k :: a :: b :: c :: xs => { kind := k, a := a, b := b, c := c } :: unpackConds n xs
  | _, _ => []

/-- What a check that found `bs` comes to (R346, R349, R350): a condition wins over the time-out. `d` is a barrier's departure. -/
def condResult (f : Form) (coarse late : Bool) (bs : List Bool) (d : Nat) : Option Nat :=
  let k := if coarse then 1 else 0
  match f with
  | .any => if bs.any id then some (condMask bs + 32 * k) else if late then some (condMask bs + 16 + 32 * k) else none
  | .all => if bs.all id then some (condMask bs + 32 * k) else if late then some (condMask bs + 16 + 32 * k) else none
  | .join => if bs.all id then some (2 * k) else if late then some (1 + 2 * k) else none
  | .bar => if bs.all id then some d else none
/-- Tick `t` has ended: every unit of it has issued. -/
def tickOver (s : State) (t : Nat) : Bool := decide (t < s.tick s.die)
/-- One check of a wait's conditions (R331): its result, when it ends the wait, and whether its reads are still to be made. The time-out falls when its
tick ends, so that a condition of that tick wins; the wait's end is an event, and waits for the core's drains (R224). -/
def checkConds (s : State) (f : Form) (coarse : Bool) (xs : List Cond) (deadline : Option Nat) : Option Nat × Bool × State :=
  let late := deadline.any s.tickOver && !s.drainsOut
  let x := xs.headD { kind := 2, a := 0 }
  match s.readConds xs with
  | (some bs, t) => (condResult f coarse late bs ((bits (t.condWord x.a) 15 0 + 2 ^ 16 - x.b) % 2 ^ 16), false, t)
  | (none, t) => (if late then condResult f coarse true (xs.map fun x => !x.watches && t.condNow x) 0 else none, true, t)

/-- Free entries of the core's monitor table (R331). -/
def monFree (s : State) : Nat := 16 - ((upto (4 * coreOf s.site) 4).map fun x => (s.ctxAt x).mons.length).foldl (· + ·) 0
/-- A unit that waits on conditions: it checks at its issue, and then at the events of R331. `fin` writes its result; `passed` says that no
wait has occurred. -/
def monitor (s : State) (f : Form) (xs : List Cond) (t : Option Nat) (kept : Bool) (fin : State → Nat → Bool → Res) : Res :=
  let w := s.waitNow
  if w.stage = monDone then fin (s.setCtx { s.ctx with mons := [] }) (w.data.headD 0) false
  else if w.stage = monStage ∧ s.ctx.st = .waiting then .wait s
  else
    let ls := condLines xs
    let n := s.monFree
    let coarse := decide (n < ls.length)
    let deadline := match w.deadline with | some d => some d | none => t.map (w.tick + ·)
    match s.checkConds f coarse xs deadline with
    | (some r, _, u) => fin (u.setCtx { u.ctx with mons := [] }) (if f = .join ∧ r % 2 = 0 then 0 else r) true
    | (none, again, u) =>
      let u := (u.checkedAt s.site).setCtx { u.ctx with mons := ls.take n }
      .wait (u.setWait { w with stage := monStage, deadline := deadline, kept := kept, data := packConds f coarse xs,
                                watch := (xs.filter fun x => x.kind == 5).map (·.a), mask := if again then 0 else condMask (u.fineNow n xs), again := again,
                                coarseAt := u.tick u.die + 256 })

/-- An event that makes the issuing context re-check its wait has happened (R331): a line that it monitors has been written, a condition that other events
re-check has changed, or a check that could not read every line can go on; or a handle that it waits on is gone (R317). -/
def recheckDue (s : State) (w : Wait) : Bool :=
  let xs := unpackConds 4 (w.data.drop 2)
  w.gone.isSome || s.pkg.hits.contains s.site ||
    (if w.again then (match s.readConds xs with | (r, t) => r.isSome || t.pkg.rlines != s.pkg.rlines)
     else condMask (s.fineNow s.ctx.mons.length xs) != w.mask)
/-- A re-check of the issuing context's wait: the unit issues again when its result stands, or when a handle it waits on is gone (R317). -/
def recheck (s : State) : Option State :=
  match s.ctx.wait with
  | none => none
  | some w =>
    if w.stage = monStage ∧ s.ctx.st = .waiting then
      let xs := unpackConds 4 (w.data.drop 2)
      if w.gone.isSome then some (s.setCtx { s.ctx with st := .ready, mons := [] })
      else match (s.checkedAt s.site).checkConds (Form.ofNum (w.data.headD 0)) (w.data.getD 1 0 == 1) xs w.deadline with
        | (none, again, t) =>
          let at' := if w.coarseAt ≤ s.tick s.die then w.coarseAt + 256 * ((s.tick s.die - w.coarseAt) / 256 + 1) else w.coarseAt
          some (t.setCtx { t.ctx with wait := some { w with again := again, coarseAt := at',
                                                            mask := if again then w.mask else condMask (t.fineNow s.ctx.mons.length xs) } })
        | (some r, _, t) => some (t.setCtx { t.ctx with st := .ready, wait := some { w with stage := monDone, data := [r] } })
    else none

end State
end Sys2Proof.Machine
end

