-- ==== Sys2Proof/Machine/Messages.lean ====
section
/-! DEFINITION. The instructions of the dispatch engine: SEND, HOP, FORK, STEAL, JOIN, TASK, WAIT, BAR, LAUNCH, RSRV, ORDQ, PRI
(21_dispatch_instructions, R341 to R355). -/
namespace Sys2Proof.Machine
open Sys2Proof
namespace State

/-- An address lies in a core's NPWIN (R88). -/
def inNpwin (c : Core) (entry : Word) : Bool :=
  decide (c.npbase.toNat * 65536 ≤ entry.toNat) && decide (entry.toNat < (c.npbase.toNat + c.nplen.toNat) * 65536)
/-- An activation is not pre-emptible (R83). -/
def nonPre (s : State) (core : Nat) (c : Ctx) : Bool :=
  isService c || ((c.act.kind == .send || c.act.kind == .xdone || c.act.kind == .rowdrain) && inNpwin (s.coreAt core) c.act.entry)

/-- A sending event waits for its turn as the effect of a speculative task (R330), and for the core's drains (R224). -/
def sendEvent (s : State) (f : State → Res) : Res := if s.speculative || s.drainsOut then s.hold else f s

/-! ## SEND, HOP, TASK (R342, R343, R347) -/

/-- SEND: `b` for SEND.B. -/
def send (s : State) (d : BitVec 5) (x entry : Word) (pay : List Word) (b : Bool) : Res :=
  if badEntry entry then .trap 0x06#8 entry
  else if destBad x then badCmd
  else s.sendEvent fun s =>
    let m := s.destMsg .send x entry pay
    if s.routeOf m.dstPkg ≠ .here then s.sendAway d m (if b then [0, 2] else [0, 1, 2])
    else if s.siteEnabled m.dst = false then .ok (s.putG d (statusWord 2 0))
    else if b then s.sendWait m fun s => .ok (s.putG d 0#64)
    else if s.inboxRoom (coreOf m.dst) (inboxOf m) then .ok ((s.append { m with arr := s.tick (dieOf m.dst) }).putG d 0#64)
    else .ok (s.putG d (statusWord 1 0))

/-- A HOP's end (R343). -/
def hopEnd (s : State) : Res := .ended ((s.setCtx { s.ctx with units := s.ctx.units + 1 }).endActivation .hop)
/-- HOP. -/
def hop (s : State) (x entry : Word) : Res :=
  if badEntry entry then .trap 0x06#8 entry
  else if s.nonPre (coreOf s.site) s.ctx || s.ctx.act.kind == .task || s.ctx.act.kind == .wavetask then .trap 0x17#8 (engineVal 0x31 0#64)
  else
    let pkg := bits x 21 12
    if s.routeOf pkg = .here ∧ s.siteEnabled (bits x 11 0) = false then noSite
    else if s.resultsOut s.site || s.drainsOut then s.hold
    else
      let m := { s.mkMsg .hop (bits x 11 0) s.ctx.pri.toNat entry ((upto 1 16).map fun r => s.rg (1 + r) (BitVec.ofNat 5 r)) with
        dstPkg := pkg, tag := s.ctx.tag, ord := s.ctx.ord.toNat }
      match s.routeOf pkg with
      | .here => s.sendWait m hopEnd
      | .port p => (s.modPkg fun y => { y with sent := y.sent ++ [(p, 0, m)] }).hopEnd
      | .down => ((s.dropFor pkg).faultRecord s.die 2 0 (pkg * 4096 + m.dst) 0#64 0#64 m.ord).hopEnd

/-- TASK: while its issuer is speculative it is held, and holds its domain's lower bound (R328, R330). -/
def sendTask (s : State) (d : BitVec 5) (x entry o : Word) (pay : List Word) : Res :=
  let n := bits o 47 0
  let later := (s.ctx.act.kind == .task || s.ctx.act.kind == .wavetask) && decide (n < s.ctx.ord.toNat)
  let m := { s.destMsg .task x entry pay with ord := n }
  if badEntry entry then .trap 0x06#8 entry
  else if destBad x || bits o 63 48 != 0 then badCmd
  else if s.speculative then
    let held := s.routeOf m.dstPkg = .here ∧ n ≠ 0 ∧ later = false ∧ s.gvtOf s.ctx.ask.toNat ≤ n
    .wait (s.setWait { s.waitNow with holds := if held then some (s.ctx.ask.toNat, n) else none })
  else s.sendEvent fun s =>
    if s.routeOf m.dstPkg ≠ .here then
      (if n = 0 then .ok (s.putG d (statusWord 3 0)) else if later then .ok (s.putG d (statusWord 4 0)) else s.sendAway d m [0, 2, 4])
    else if s.waitNow.stage = sentStage ∨ s.waitNow.stage = sendStage then s.sendWait m fun s => .ok (s.putG d 0#64)
    else if s.siteEnabled (m.dst / 4 * 4) = false then .ok (s.putG d (statusWord 2 0))
    else if n = 0 then .ok (s.putG d (statusWord 3 0))
    else if later || decide (n < s.gvtOf s.ctx.ask.toNat) then .ok (s.putG d (statusWord 4 0))
    else s.sendWait m fun s => .ok (s.putG d 0#64)

/-! ## FORK and STEAL (R326, R327, R344, R345) -/

/-- FORK pushes at the pop end. -/
def forkPush (s : State) (d : BitVec 5) (entry : Word) (pay : List Word) (dom : Nat) : Res :=
  if badEntry entry then .trap 0x06#8 entry
  else s.sendEvent fun s =>
    if 64 ≤ s.core.deque.length then .ok (s.putG d (statusWord 1 0))
    else
      let m := { s.mkMsg .fork s.site s.ctx.pri.toNat entry pay with tag := s.ctx.tag, arr := s.tick s.die }
      .ok ((s.modCore (coreOf s.site) fun c => { c with deque := { msg := m, home := coreOf s.site, dom := dom } :: c.deque }).putG d 0#64)

/-- The steal domain of an entry contains a core (R326). -/
def DequeEntry.open (e : DequeEntry) (core : Nat) : Bool :=
  match e.dom with
  | 0 => e.home == core
  | 1 => e.home / 4 == core / 4
  | 2 => e.home / 16 == core / 16
  | 3 => e.home / 256 == core / 256
  | _ => true
/-- A take that has removed an entry of the steal domain of core `me` from a deque may have coincided with `me`'s attempt, and been served before it
(R327): `me` has issued nothing since, and `lost` says whether its attempt before failed by coincidence. Whether the two did reach the deque in one
cycle, the order of the steps does not say (log entry 1). -/
def mayMeet (t : Take) (me turn : Nat) (lost : Bool) : Bool :=
  DequeEntry.open t.entry me && decide (turn ≤ t.cycle) &&
    match t.thief with
    | none => true
    | some c => (t.lost && !lost) || (t.lost == lost && decide (c < me))
/-- STEAL: one attempt (R327, R345). The oldest entry stands last. -/
def stealFrom (s : State) (d : BitVec 5) (x : Word) : Res :=
  let v := bits x 11 2
  let me := coreOf s.site
  if bits x 21 12 ≠ s.pkg.num ∨ v = me ∨ s.coreEnabled v = false then .ok (s.putG d (statusWord 4 0))
  else
    let k := s.coreAt v
    let lost := k.losers.contains me
    match k.deque.reverse.find? fun e => DequeEntry.open e me with
    | none =>
      let met := k.taken.any (fun t => mayMeet t me s.core.turnBefore lost) && s.choose 51000 2 == 1
      let s := s.modCore v fun c => { c with losers := c.losers.filter (· != me) ++ if met then [me] else [] }
      .ok (s.putG d (statusWord (if met then 3 else 1) 0))
    | some e =>
      if 64 ≤ s.core.deque.length then .ok (s.putG d (statusWord 2 0))
      else
        let s := s.modCore v fun c => { c with
          deque := (c.deque.reverse.erase e).reverse, losers := c.losers.filter (· != me)
          taken := some { cycle := s.cycle, entry := e, thief := some me, lost := lost } }
        .ok ((s.modCore me fun c => { c with deque := e :: c.deque }).putG d 0#64)

/-! ## JOIN, WAIT, BAR (R346, R348 to R350) -/

/-- A doubleword that conditions watch, checked as LD checks it (R198), and never popped; a counter of JOIN lies in no FIFO shelf (R346). -/
def monLoc (s : State) (counter : Bool) (j : Nat) (a : Word) (f : State → Nat → Res) : Res :=
  match s.reach .read 0 a 8 8 (onePiece 8) j with
  | .stop r => r
  | .go s runs => let loc := (runs.getD 0 (0, 0)).1; if counter && s.inFifo loc then .trap 0x09#8 a else f s loc

/-- A time-out field (R331): all ones mean none. -/
def tmo (t : Nat) : Option Nat := if t = 2 ^ 32 - 1 then none else some t

/-- JOIN. -/
def joinBody (s : State) (d : BitVec 5) (a : Word) (t : Nat) : Res :=
  let fin := fun (s : State) (r : Nat) (_ : Bool) => Res.ok (s.putG d (BitVec.ofNat 64 r))
  if s.waitNow.stage = monDone ∨ (s.waitNow.stage = monStage ∧ s.ctx.st = .waiting) then s.monitor .join [] none false fin
  else s.monLoc true 0 a fun s loc =>
    if s.drainsOut then s.hold else s.monitor .join [{ kind := 0, a := loc, b := 8 }] (tmo t) false fin

/-- The addresses of a WAIT's conditions are checked, then its handles (R348, R349); every condition as far as it has a meaning. -/
def waitAddrs (s : State) (j : Nat) : List (Word × Word) → (State → List Cond → Res) → Res
  | [], f => f s []
  | (a, b) :: ps, f =>
    let go := fun (s : State) (x : Cond) => waitAddrs s (j + 1) ps fun s xs => f s (x :: xs)
    match bits a 63 60 with
    | 0 => s.monLoc false j (a &&& fmask 55 0) fun s loc => go s { kind := 0, a := loc, b := bits a 59 57, c := b.toNat }
    | 1 => go s { kind := 1, a := bits a 1 0 }
    | 2 => s.monLoc false j (a &&& fmask 55 0) fun s loc => go s { kind := 2, a := loc, b := bits b 15 0 }
    | 3 => go s { kind := 3, a := b.toNat }
    | 4 => go s { kind := 4, a := b.toNat }
    | _ => go s { kind := 5, a := bits a 15 0, b := bits b 23 0 }
/-- The handles of a WAIT's SETTLE conditions, checked (R303), with the wave of each capped. -/
def waitHandles (s : State) : List (Word × Word) → List Cond → (List Cond → Res) → Res
  | (a, _) :: ps, x :: xs, f =>
    if bits a 63 60 = 5 then s.withHandle x.a fun r => waitHandles s ps xs fun ys => f ({ x with b := s.capWave r.key x.b } :: ys)
    else waitHandles s ps xs fun ys => f (x :: ys)
  | _, _, f => f []
/-- A condition that R348 does not define: ENGINE with BADCMD. -/
def condBad (a b : Word) : Bool :=
  match bits a 63 60 with
  | 0 => decide (6 ≤ bits a 59 57) || bits a 56 56 != 0
  | 1 => bits a 59 2 != 0 || b != 0#64
  | 2 => bits a 59 56 != 0 || bits b 63 16 != 0
  | 3 => bits a 59 0 != 0
  | 4 => bits a 59 0 != 0 || bits b 63 48 != 0
  | 5 => bits a 59 16 != 0 || bits b 63 24 != 0
  | _ => true

/-- WAIT, whose word is `word`: its faults in the order of R349. -/
def waitBody (s : State) (d a : BitVec 5) (word : IWord) : Res :=
  let fin := fun (s : State) (r : Nat) (_ : Bool) => Res.ok (s.putG d (BitVec.ofNat 64 r))
  let x := s.rg 0 a
  let n := bits x 1 0 + 1
  if s.waitNow.stage = monDone ∨ (s.waitNow.stage = monStage ∧ s.ctx.st = .waiting) then s.monitor .any [] none false fin
  else if 31 < a.toNat + 2 * n then .trap 0x02#8 (word.setWidth 64)
  else
    let r := fun (i : Nat) => s.rg i (a + BitVec.ofNat 5 i)
    let ps := (upto 0 n).map fun i => (r (1 + 2 * i), r (2 + 2 * i))
    s.waitAddrs 0 ps fun s xs => s.waitHandles ps xs fun xs =>
      if bits x 31 3 ≠ 0 ∨ (ps.any fun p => condBad p.1 p.2) = true then badCmd
      else if s.drainsOut then s.hold
      else s.monitor (if x.getLsbD 2 then .all else .any) xs (tmo (bits x 63 32)) false fin

/-- The end of a BAR.WAIT or BAR.SYNC. -/
def barEnd (d : BitVec 5) (s : State) (r : Nat) (passed : Bool) : Res := .ok (s.putG d (BitVec.ofNat 64 (r + (if passed then 65536 else 0))))
/-- BAR.WAIT for token `k`. -/
def barWait (s : State) (d : BitVec 5) (a : Word) (k : Nat) : Res :=
  if s.waitNow.stage = monDone ∨ (s.waitNow.stage = monStage ∧ s.ctx.st = .waiting) then s.monitor .bar [] none false (barEnd d)
  else s.monLoc false 0 a fun s loc =>
    if s.drainsOut then s.hold
    else match s.readConds [{ kind := 2, a := loc, b := k }] with
      | (none, t) => t.hold
      | (some _, t) =>
        let p := bits (t.condWord loc) 15 0
        if 32768 ≤ (p + 2 ^ 16 - k) % 2 ^ 16 then .trap 0x12#8 (BitVec.ofNat 64 (k + p * 2 ^ 16))
        else t.monitor .bar [{ kind := 2, a := loc, b := k }] none false (barEnd d)
/-- BAR.SYNC: a wait after its arrival goes on where it stood, whatever halts it (R350, R340). -/
def barSync (s : State) (d : BitVec 5) (a : Word) : Res :=
  let w := s.waitNow
  if w.stage = monDone ∨ w.stage = monStage then s.monitor .bar (unpackConds 4 (w.data.drop 2)) none true (barEnd d)
  else s.rmw a 8 13 0#64 0#64 [] fun s m =>
    match s.reach .read 0 a 8 8 (onePiece 8) with
    | .stop r => r
    | .go s runs => s.monitor .bar [{ kind := 2, a := (runs.getD 0 (0, 0)).1, b := m.toNat }] none true (barEnd d)

/-! ## LAUNCH (R351) -/

/-- A member as the wait keeps it: TAG and the 22-bit site. -/
def memberOf (e : Word) : Nat := bits e 63 48 * 2 ^ 22 + bits e 21 0
/-- The message for a member. -/
def memberMsg (s : State) (cls : Nat) (entry : Word) (pay : List Word) (m : Nat) : Msg :=
  { s.mkMsg .launch (m % 4096) cls entry pay with dstPkg := m / 4096 % 1024, tag := BitVec.ofNat 16 (m / 2 ^ 22) }

/-- Reserve a slot for each member of the own package in turn: all done, or the members left when one has to wait for room. A member of another package
takes its slot there when its message arrives (R366). -/
def reserveAll (s : State) (tok cls : Nat) (entry : Word) (pay : List Word) : List Nat → Option (List Nat) × State
  | [] => (none, s)
  | m :: ms =>
    let x := s.memberMsg cls entry pay m
    if s.routeOf x.dstPkg ≠ .here then reserveAll s tok cls entry pay ms
    else if s.inboxRoom (coreOf x.dst) (inboxOf x) then
      reserveAll (s.modPkg fun p => { p with rsvd := p.rsvd ++ [(tok, coreOf x.dst, inboxOf x)] }) tok cls entry pay ms
    else (some ms, s.modPkg fun p => { p with senders := p.senders ++ [{ site := s.site, token := tok, msg := x }] })
/-- A member's site does not exist in its package: as this package knows, or as the other one judges (log entry 7). -/
def memberAbsent (s : State) (m : Nat) : Bool :=
  match s.routeOf (m / 4096 % 1024) with
  | .here => !s.siteEnabled (m % 4096)
  | .port _ => s.choose (49000 + m % 2 ^ 22) 2 == 1
  | .down => false

/-- Deliver the members' messages, or hold them at their dies until tick `t`: how many, whether one met a route that is down, and whether some left for
another package, which answers under token `far`. -/
def launchAll (s : State) (tok far cls : Nat) (entry : Word) (pay : List Word) (t : Option Nat) : List Nat → Nat × Bool × Bool × State
  | [] => (0, false, false, s)
  | m :: ms =>
    let x := { s.memberMsg cls entry pay m with at' := t }
    let (k, down, away, s1) := match s.routeOf x.dstPkg with
      | .port p => (1, false, true, s.modPkg fun y => { y with sent := y.sent ++ [(p, far, x)] })
      | .down => (0, true, false, s.dropFor x.dstPkg)
      | .here =>
        (1, false, false, (s.modPkg fun y => { y with rsvd := y.rsvd.erase (tok, coreOf x.dst, inboxOf x) }).deliverAt { x with arr := s.tick (dieOf x.dst) })
    let (n, b, c, s2) := launchAll s1 tok far cls entry pay t ms
    (k + n, down || b, away || c, s2)

/-- The stage of a LAUNCH whose messages have left for other packages. -/
def launchedStage : Nat := 128

/-- LAUNCH goes on with the members that have no slot yet, all of them in `all`. Its sending event waits for the core's drains (R224). It completes when
every message is held or delivered, in other packages too. -/
def launchMore (s : State) (d : BitVec 5) (tok cls : Nat) (entry : Word) (pay : List Word) (at' : Option Nat) (all left : List Nat) : Res :=
  match s.reserveAll tok cls entry pay left with
  | (some ms, t) => .wait (t.setWait { t.waitNow with stage := sendStage, token := tok, data := all.length :: all ++ ms })
  | (none, t) =>
    if t.drainsOut then .wait (t.setWait { t.waitNow with stage := launchStage, token := tok, data := all.length :: all })
    else
      let late := match at' with | some x => decide (x ≤ t.waitNow.tick) | none => true
      let (far, t) := t.fresh
      let (n, down, away, u) := t.launchAll tok far cls entry pay (if late then none else at') all
      let st := statusWord (if down then 5 else if late && at'.isSome then 1 else 0) n
      if away then
        .wait ((u.reply u.site far 0 st).setWait { u.waitNow with stage := launchedStage, token := far, kept := true, data := [d.toNat] })
      else .ok (u.putG d st)

/-- LAUNCH and LAUNCH.AT. -/
def launch (s : State) (d : BitVec 5) (a entry c : Word) (at' : Option Nat) (pay : List Word) : Res :=
  let cls := bits c 23 22
  let n := bits c 41 32 + 1
  let w := s.waitNow
  let k := w.data.headD 0
  let all := w.data.tail.take k
  let left := w.data.tail.drop k
  if w.stage = sendStage then .wait s
  else if w.stage = launchStage then s.launchMore d w.token cls entry pay at' all left
  else if w.stage = launchedStage then
    match s.replyOf w.token with
    | none => .wait s
    | some r => .ok ((s.dropReply w.token).putG d r.value)
  else match s.reach .read 0 a 8 (8 * n) ((upto 0 n).map fun i => (8 * i, 8)) with
    | .stop r => r
    | .go s runs =>
      if badEntry entry then .trap 0x06#8 entry
      else match s.loadRuns runs none with
        | .stop r => r
        | .got bs s =>
          let es := (upto 0 n).map fun i => (BitVec.ofNat 64 (bytesToNat ((bs.drop (8 * i)).take 8)) : Word)
          if bits c 63 42 ≠ 0 ∨ bits c 31 24 ≠ 0 ∨ bits c 21 0 ≠ 0 ∨ es.any (fun e => bits e 47 22 != 0) = true then badCmd
          else s.sendEvent fun s =>
            let ms := (es.map memberOf).mergeSort fun x y => decide (x % 2 ^ 22 ≤ y % 2 ^ 22)
            if ms.any s.memberAbsent then .ok (s.putG d (statusWord 2 0))
            else let (id, s) := s.fresh; s.launchMore d id cls entry pay at' ms ms

/-! ## RSRV, ORDQ, PRI (R335, R352 to R354) -/

/-- RSRV.PIN's server: FMT 3 acts as 2 and N 0 as 1. -/
def pin (s : State) (d : BitVec 5) : Res :=
  if s.core.server.isSome then .ok (s.putG d (statusWord 1 0))
  else if s.core.service = false then .ok (s.putG d (statusWord 2 0))
  else
    let fmt := min 2 (s.ctx.treen.toNat / 256)
    let n := max 1 (s.ctx.treen.toNat % 256)
    let v : Server := { site := coreOf s.site * 4 + 3, treep := s.ctx.treep, fmt := fmt, n := n, cls := s.ctx.pri.toNat, key := s.ctx.ask.toNat, mkid := s.ctx.mkid.toNat }
    .ok ((s.modCore (coreOf s.site) fun c => { c with server := some v }).putG d 0#64)
/-- RSRV.UNPIN: messages that have arrived join the round first (R352, R355). -/
def unpin (s : State) (d : BitVec 5) : Res :=
  match s.core.server with
  | none => .ok (s.putG d (statusWord 1 0))
  | some v =>
    if v.got = 0 ∧ ((upto 0 16).any fun i => (s.inbox (coreOf s.site) i).any fun m => m.kind == .reduce) = false then
      .ok ((s.modCore (coreOf s.site) fun c => { c with server := none }).putG d 0#64)
    else s.hold
/-- RSRV.PUT. -/
def put (s : State) (d : BitVec 5) (x : Word) (pay : List Word) : Res :=
  s.sendEvent fun s =>
    let m := { s.mkMsg .reduce (bits x 11 2 * 4 + 3) s.ctx.pri.toNat 0#64 pay with dstPkg := bits x 21 12 }
    if s.routeOf m.dstPkg ≠ .here then s.sendAway d m [0, 2]
    else if s.coreEnabled (bits x 11 2) = false then .ok (s.putG d (statusWord 2 0))
    else s.sendWait m fun s => .ok (s.putG d 0#64)

/-- A core's virtual-time register (R328, R353): the least ordinal of the tasks and sends it holds. -/
def virtualTime (s : State) (core : Nat) : Option Nat :=
  minList (((upto (4 * core) 4).flatMap fun x => tasksIn (s.ctxAt x) fun _ => true) ++
    ((upto (4 * core) 4).flatMap fun x => heldIn (s.ctxAt x) fun _ => true) ++
    (s.queued core).map (·.msg.ord) ++ (s.pkg.senders.filter fun w => w.msg.kind == .task && coreOf w.site == core).map (·.msg.ord))
/-- An ordinal, or all ones. -/
def orOnes (o : Option Nat) : Word := match o with | some n => BitVec.ofNat 64 n | none => BitVec.allOnes 64

end State

/-! ## The instructions -/

/-- SEND. -/
def execSend (stl : BitVec 3) (d a b : BitVec 5) (c : BitVec 4) (s : State) : Host.Outcome State Fault Refusal :=
  s.unitC 1 stl ([(.g, a.toNat), (.g, a.toNat + 1)] ++ State.runSrcs b c.toNat) (fun s => s.classBad (bits (s.rg 0 a) 23 22)) fun s =>
    s.send d (s.rg 0 a) (s.rg 1 (a + 1#5)) (s.payload b c.toNat) false
/-- SEND.B. -/
def execSendB (stl : BitVec 3) (d a b : BitVec 5) (c : BitVec 4) (s : State) : Host.Outcome State Fault Refusal :=
  s.unitC 1 stl ([(.g, a.toNat), (.g, a.toNat + 1)] ++ State.runSrcs b c.toNat) (fun s => s.classBad (bits (s.rg 0 a) 23 22)) fun s =>
    s.send d (s.rg 0 a) (s.rg 1 (a + 1#5)) (s.payload b c.toNat) true
/-- HOP. -/
def execHop (stl : BitVec 3) (a b : BitVec 5) (s : State) : Host.Outcome State Fault Refusal :=
  s.unit 1 stl ([(.g, a.toNat), (.g, b.toNat)] ++ State.runSrcs 1#5 16) fun s => s.hop (s.rg 0 a) (s.rg 1 b)
/-- FORK. -/
def execFork (stl : BitVec 3) (d a b : BitVec 5) (x : BitVec 3) (c : BitVec 4) (s : State) : Host.Outcome State Fault Refusal :=
  s.unit 1 stl ([(.g, a.toNat)] ++ State.runSrcs b c.toNat) fun s => s.forkPush d (s.rg 0 a) (s.payload b c.toNat) x.toNat
/-- STEAL. -/
def execSteal (stl : BitVec 3) (d a : BitVec 5) (s : State) : Host.Outcome State Fault Refusal :=
  s.unit 1 stl [(.g, a.toNat)] fun s => s.stealFrom d (s.rg 0 a)
/-- JOIN. -/
def execJoin (stl : BitVec 3) (d a b : BitVec 5) (s : State) : Host.Outcome State Fault Refusal :=
  s.unit 1 stl [(.g, a.toNat), (.g, b.toNat)] fun s => s.joinBody d (s.rg 0 a) (bits (s.rg 1 b) 31 0)
/-- TASK. -/
def execTask (stl : BitVec 3) (d a b : BitVec 5) (c : BitVec 4) (s : State) : Host.Outcome State Fault Refusal :=
  s.unitC 1 stl ([(.g, a.toNat), (.g, a.toNat + 1), (.g, a.toNat + 2)] ++ State.runSrcs b c.toNat) (fun s => s.classBad (bits (s.rg 0 a) 23 22)) fun s =>
    s.sendTask d (s.rg 0 a) (s.rg 1 (a + 1#5)) (s.rg 2 (a + 2#5)) (s.payload b c.toNat)
/-- WAIT: its control word's n decides how many registers follow. -/
def execWait (stl : BitVec 3) (d a : BitVec 5) (s : State) : Host.Outcome State Fault Refusal :=
  s.unit 1 stl ((.g, a.toNat) :: State.runSrcs (a + 1#5) (min (31 - a.toNat) (2 * (bits (s.g a) 1 0 + 1)))) fun s =>
    s.waitBody d a (101#7 ++ stl ++ d ++ a ++ 0#12)
/-- BAR.INIT. -/
def execBarInit (stl : BitVec 3) (d a b : BitVec 5) (s : State) : Host.Outcome State Fault Refusal :=
  s.unit 1 stl [(.g, a.toNat), (.g, b.toNat)] fun s =>
    s.rmw (s.rg 0 a) 8 12 (s.rg 1 b) 0#64 [d.toNat] fun s m => .ok (s.putG d m)
/-- BAR.ARR. -/
def execBarArr (stl : BitVec 3) (d a : BitVec 5) (s : State) : Host.Outcome State Fault Refusal :=
  s.unit 1 stl [(.g, a.toNat)] fun s =>
    s.rmw (s.rg 0 a) 8 13 0#64 0#64 [d.toNat] fun s m => .ok (s.putG d m)
/-- BAR.WAIT. -/
def execBarWait (stl : BitVec 3) (d a b : BitVec 5) (s : State) : Host.Outcome State Fault Refusal :=
  s.unit 1 stl [(.g, a.toNat), (.g, b.toNat)] fun s => s.barWait d (s.rg 0 a) (bits (s.rg 1 b) 15 0)
/-- BAR.SYNC. -/
def execBarSync (stl : BitVec 3) (d a : BitVec 5) (s : State) : Host.Outcome State Fault Refusal :=
  s.unit 1 stl [(.g, a.toNat)] fun s => s.barSync d (s.rg 0 a)
/-- LAUNCH. -/
def execLaunch (stl : BitVec 3) (d a b : BitVec 5) (c : BitVec 4) (s : State) : Host.Outcome State Fault Refusal :=
  s.unitC 1 stl ([(.g, a.toNat), (.g, a.toNat + 1), (.g, a.toNat + 2)] ++ State.runSrcs b c.toNat) (fun s => s.classBad (bits (s.rg 2 (a + 2#5)) 23 22)) fun s =>
    s.launch d (s.rg 0 a) (s.rg 1 (a + 1#5)) (s.rg 2 (a + 2#5)) none (s.payload b c.toNat)
/-- LAUNCH.AT. -/
def execLaunchAt (stl : BitVec 3) (d a b : BitVec 5) (c : BitVec 4) (s : State) : Host.Outcome State Fault Refusal :=
  s.unitC 1 stl ([(.g, a.toNat), (.g, a.toNat + 1), (.g, a.toNat + 2), (.g, a.toNat + 3)] ++ State.runSrcs b c.toNat)
      (fun s => s.classBad (bits (s.rg 2 (a + 2#5)) 23 22)) fun s =>
    s.launch d (s.rg 0 a) (s.rg 1 (a + 1#5)) (s.rg 2 (a + 2#5)) (some (s.rg 3 (a + 3#5)).toNat) (s.payload b c.toNat)
/-- RSRV.PIN: its fields a and b are zero or mean nothing. -/
def execRsrvPin (stl : BitVec 3) (d _a _b : BitVec 5) (s : State) : Host.Outcome State Fault Refusal := s.unitP 1 stl [] fun s => s.pin d
/-- RSRV.UNPIN. -/
def execRsrvUnpin (stl : BitVec 3) (d _a _b : BitVec 5) (s : State) : Host.Outcome State Fault Refusal := s.unitP 1 stl [] fun s => s.unpin d
/-- RSRV.PUT. -/
def execRsrvPut (stl : BitVec 3) (d a b : BitVec 5) (c : BitVec 4) (s : State) : Host.Outcome State Fault Refusal :=
  s.unit 1 stl ([(.g, a.toNat)] ++ State.runSrcs b c.toNat) fun s => s.put d (s.rg 0 a) (s.payload b c.toNat)
/-- ORDQ.VT. -/
def execOrdqVt (stl : BitVec 3) (d : BitVec 5) (s : State) : Host.Outcome State Fault Refusal :=
  s.unit 1 stl [] fun s => .ok (s.putG d (State.orOnes (s.virtualTime (coreOf s.site))))
/-- ORDQ.LEN. -/
def execOrdqLen (stl : BitVec 3) (d : BitVec 5) (s : State) : Host.Outcome State Fault Refusal :=
  s.unit 1 stl [] fun s => .ok (s.putG d (BitVec.ofNat 64 (s.queued (coreOf s.site)).length))
/-- ORDQ.HEAD. -/
def execOrdqHead (stl : BitVec 3) (d : BitVec 5) (s : State) : Host.Outcome State Fault Refusal :=
  s.unit 1 stl [] fun s => .ok (s.putG d (State.orOnes (State.minList ((s.queued (coreOf s.site)).map (·.msg.ord)))))
/-- ORDQ.SPEC. -/
def execOrdqSpec (stl : BitVec 3) (d : BitVec 5) (s : State) : Host.Outcome State Fault Refusal :=
  s.unit 1 stl [] fun s => .ok (s.putG d (if s.speculative then 1#64 else 0#64))
/-- ORDQ.RSET. -/
def execOrdqRset (stl : BitVec 3) (d : BitVec 5) (s : State) : Host.Outcome State Fault Refusal :=
  s.unit 1 stl [] fun s => .ok (s.putG d (BitVec.ofNat 64 (State.readBlocks s.ctx.reads).length))
/-- PRI. -/
def execPri (stl : BitVec 3) (d a : BitVec 5) (s : State) : Host.Outcome State Fault Refusal :=
  s.unitC 1 stl [(.g, a.toNat)] (fun s => s.classBad (bits (s.rg 0 a) 1 0)) fun s =>
    let new := (s.rg 0 a).setWidth 2
    .ok ((s.putG d (s.ctx.pri.setWidth 64)).setCtx { (s.putG d (s.ctx.pri.setWidth 64)).ctx with pri := new })

end Sys2Proof.Machine
end

