-- ==== Sys2Proof/Machine/Start.lean ====
section
/-! DEFINITION. Which activation starts where, service activations, results, long slots, pre-emption, images, the re-checks of waits, and
aborts (05_core_model R81 to R84, R93, R98 to R101; 11_memory_instructions R203, R204; 20_dispatch_engine R330, R331, R336). -/
namespace Sys2Proof.Machine
open Sys2Proof

namespace State

/-- A location's lines at their homes (R128, R190): they can be accessed; a forcing sequence has been started; or they are held. -/
inductive Home where
  | ready (s : State)
  | started (s : State)
  | busy
def homeTry (s : State) (ls : List Nat) : Home :=
  if ls.any (s.lineBusy 0) then .busy
  else match s.rangeTryAll none homeAgent ls with
    | (true, t) => .ready t
    | (false, t) => if ls.any fun l => (t.rline l).forcing.isSome && (s.rline l).forcing.isNone then .started t else .busy
/-- A write at its home by such an agent. -/
def homeWrite (s : State) (runs : List (Nat × Nat)) (bs : List Byte) : State :=
  (((s.touch (linesOf runs)).wrRuns runs bs).reshadowRuns runs).rangeServed homeAgent (linesOf runs)

/-! ## Service activations (R83) -/

/-- A message leaves its inbox; whoever waits for the slot takes it. -/
def popInbox (s : State) (core i : Nat) (m : Msg) : State :=
  (s.modCore core fun c => { c with inbox := SMap.set [] c.inbox i ((SMap.get [] c.inbox i).erase m) }).serveInbox core i

/-- A kind-AMO request's RMW at its owner (R203). -/
def amoAt (s : State) (core : Nat) : Option State :=
  match s.takeService core .amo with
  | none => none
  | some (i, m, x) =>
    match m.req with
    | none => none
    | some r =>
      let n := if r.wide then 8 else 4
      match s.homeTry [lineOf r.key] with
      | .busy => none
      | .started t => some t
      | .ready t =>
        let old := bytesToNat (t.rdN r.key n)
        let t := (t.homeWrite [(r.key, n)] (natToBytes n (opNew r.op n old r.operand r.compare))).serviceEnd x m
        let t := if r.token = 0 then t else t.reply r.asker r.token 0 (opVal r.op n old)
        some (t.popInbox core i m)

/-! ## Reduction servers (R336) -/

/-- The words of a sum before a round. -/
def zeroSum (fmt n : Nat) : List Word := List.replicate n (if fmt = 2 then 0x8000000080000000#64 else 0#64)
/-- One word added, element by element. -/
def addWord (fmt : Nat) (x y : Word) : Word :=
  let hi := fun (w : Word) => w.extractLsb' 32 32
  match fmt with
  | 0 => (hi x + hi y) ++ (low32 x + low32 y)
  | 1 => x + y
  | _ => f32Add (hi x) (hi y) ++ f32Add (low32 x) (low32 y)
/-- A message's words added to a sum. -/
def addSum (fmt : Nat) (sum pay : List Word) : List Word :=
  let sum := sum ++ zeroSum fmt (pay.length - sum.length)
  (upto 0 sum.length).map fun i => match pay[i]? with | some w => addWord fmt (sum.getD i 0#64) w | none => sum.getD i 0#64

/-- The root's writes: the runs of each word and of the counter, when every address translates. -/
def rootRuns (s : State) (w : Who) (a : Word) : Nat → Eng (List (Nat × Nat))
  | 0 => s.engRuns w .both a 8
  | n + 1 => (rootRuns s w a n).bind fun rs s => (s.engRuns w .write (a + BitVec.ofNat 64 (8 + 8 * n)) 8).bind fun r s => .ok (rs ++ r) s
/-- The end of a round at the root: word i to PARENT + 8 + 8i, then 1 added at PARENT. A word that does not translate stops the writes and
is logged as an engine's error (log entry 30). -/
def rootWrite (s : State) (v : Server) (sum : List Word) : Option State :=
  let a := v.treep &&& fmask 55 0
  let w : Who := { site := v.site, key := v.key, mkid := v.mkid, priv := v.key == 0 }
  match s.rootRuns w a sum.length with
  | .busy => none
  | .absent _ _ _ _ => none
  | .err c x => some ((s.engMet v.site c x).faultRecord (dieOf v.site) 1 c (s.pkg.num * 4096 + v.site) 0#64 (engineVal c x) 0)
  | .ok runs s =>
    match s.homeTry (linesOf runs) with
    | .busy => none
    | .started t => some t
    | .ready t =>
      let t := t.homeWrite runs.tail ((sum.map fun x => natToBytes 8 x.toNat).flatten)
      let c := bytesToNat (t.rdRuns (runs.take 1))
      some ((t.homeWrite (runs.take 1) (natToBytes 8 (c + 1))).rangeServed homeAgent (linesOf runs))
/-- The end of a round elsewhere: the sum goes to the parent. -/
def forward (s : State) (v : Server) (sum : List Word) : State :=
  let p := bits v.treep 21 0
  let m : Msg := { dst := p % 4096 / 4 * 4 + 3, src := v.site, srcPkg := s.pkg.num, dstPkg := p / 4096, cls := v.cls, kind := .reduce, sendTick := s.tick (dieOf v.site),
                   key := v.key, payload := sum, inst := v.insts.head?, also := v.insts.tail }
  match s.routeOf m.dstPkg with
  | .here => if s.siteEnabled (m.dst / 4 * 4) then s.post m else s.faultRecord (dieOf v.site) 2 0 (s.pkg.num * 4096 + m.dst) 0#64 0#64 0
  | .port q => s.modPkg fun y => { y with sent := y.sent ++ [(q, 0, m)] }
  | .down => s.dropFor m.dstPkg

/-- A partial sum at its core (R336, R352): with no server there, it is dropped and logged. -/
def reduceAt (s : State) (core : Nat) : Option State :=
  match (s.coreAt core).server with
  | none =>
    match s.serviceNext core with
    | some (i, m) =>
      if m.kind = .reduce then
        some ((s.faultRecord (core / 256) 2 0 (s.pkg.num * 4096 + (4 * core + 3)) 0#64 0#64 0).popInbox core i m)
      else none
    | none => none
  | some v =>
    match s.takeService core .reduce with
    | none => none
    | some (i, m, x) =>
      let sum := addSum v.fmt v.sum m.payload
      let v := { v with insts := v.insts ++ (m.inst.toList ++ m.also).filter fun k => !v.insts.contains k }
      let upd := fun (s : State) (v : Server) => ((s.modCore core fun c => { c with server := some v }).serviceEnd x m).popInbox core i m
      if v.got + 1 < v.n then some (upd s { v with sum := sum, got := v.got + 1 })
      else if v.treep.getLsbD 63 then
        match s.rootWrite v sum with
        | none => none
        | some t => if (linesPending s t) then some t else some (upd t { v with sum := [], got := 0, insts := [] })
      else some (upd (s.forward v sum) { v with sum := [], got := 0, insts := [] })
where
  /-- The root has only begun a forcing sequence: its round ends later. -/
  linesPending (s t : State) : Bool :=
    t.pkg.rlines.any fun l => l.2.forcing.isSome && decide ((l.2.forcing.map (·.owner)) = some homeAgent) && (s.rline l.1).forcing.isNone

/-! ## Candidates (R82) -/

/-- Where a candidate waits. -/
inductive Cand where
  | image (site : Nat)
  | mail (i : Nat) (m : Msg)
  | deque (e : DequeEntry)
  | task (t : OrdTask)

/-- A candidate with the context that would take it, and its place in the order: class, rank within it, and two ties. -/
structure Pick where
  cand : Cand
  site : Nat
  cls : Nat
  rank : Nat
  k1 : Nat := 0
  k2 : Nat := 0
def Pick.before (a b : Pick) : Bool :=
  decide (a.cls < b.cls) || (a.cls == b.cls && (decide (a.rank < b.rank) || (a.rank == b.rank && (decide (a.k1 < b.k1) || (a.k1 == b.k1 && decide (a.k2 < b.k2))))))

/-- The class of a held image, as its save area has it. -/
def imageClass (s : State) (site : Nat) : Nat := s.load (imageLoc site + 0x740) 1 % 4
/-- A context is DORMANT and may take an ordinary candidate (R83). -/
def eligible (s : State) (x : Nat) : Bool := (s.ctxAt x).st == .dormant && (x % 4 != 3 || (s.coreAt (x / 4)).service == false)
/-- The context of a core that takes a candidate of a class. -/
def ctxFor (s : State) (core cls : Nat) : Option Nat :=
  match (ctxsOf core).find? fun x => s.eligible x && (s.ctxAt x).img.isNone with
  | some x => some x
  | none => (ctxsOf core).find? fun x => s.eligible x && decide (cls < s.imageClass x)

/-- A RANGE.DRAIN or RANGE.FREE whose event has taken its place is in progress: it completes (R211). -/
def ranging (w : Option Wait) : Bool := w.any fun w => w.stage == rangeStage
/-- A held image can be restored now (R101, R379). -/
def restorable (s : State) (x : Nat) : Bool :=
  s.eligible x && (match (s.ctxAt x).img with | some i => !i.stopHeld && (!i.aborting || ranging i.wait) | none => false) && (s.restoreAt x).isSome
/-- Ordinary candidates that some context of the core can take; tasks of equal class and ordinal in several domains go by key (log entry 85). -/
def picks (s : State) (core : Nat) : List Pick :=
  let at' := fun (cls : Nat) (f : Nat → Pick) => (s.ctxFor core cls).toList.map f
  let images := ((ctxsOf core).filter s.restorable).map fun x => ({ cand := .image x, site := x, cls := s.imageClass x, rank := 0 } : Pick)
  let mail := ((upto 0 16).filterMap fun i => (firstMsg (fun m => !serviceKind m.kind) (s.inbox core i)).map fun m => (i, m)).flatMap fun im =>
    at' im.2.cls fun x => { cand := .mail im.1 im.2, site := x, cls := im.2.cls, rank := 2, k1 := im.2.arr, k2 := im.1 / 4 }
  let deque := ((s.coreAt core).deque.head?.toList).flatMap fun e => at' e.msg.cls fun x => { cand := .deque e, site := x, cls := e.msg.cls, rank := 3 }
  let tasks := (s.queued core).flatMap fun t => at' t.msg.cls fun x =>
    { cand := .task t, site := x, cls := t.msg.cls, rank := if s.leastTask t.msg.key = some t.msg.ord then 1 else 4, k1 := t.msg.ord, k2 := t.msg.key }
  images ++ mail ++ deque ++ tasks
/-- The candidate that wins (R82): none in a stopped domain (R378), none while SERVICE is clear and a service activation can start (R83). -/
def winner (s : State) (core : Nat) : Option Pick :=
  if s.stopped (4 * core) || s.coreEnabled core == false ||
      ((s.coreAt core).service == false && (s.serviceNext core).isSome && (s.serviceCtx core).isSome) then none
  else firstBy Pick.before (s.picks core)

/-! ## The start (R16, R84) -/

/-- A context starts the activation of a message. -/
def begin (s : State) (site : Nat) (m : Msg) : State :=
  let (id, s) := s.fresh
  let b := s.bind0 (dieOf site) m.key
  let c := s.ctxAt site
  let a : Act := { entry := m.entry, kind := m.kind, count := m.payload.length, sendTick := m.sendTick, arr := m.arr, start := s.tick (dieOf site), cls := m.cls,
                   key := m.key, serial := id, msg := some { m with hit := false } }
  let s := if m.kind = .amsg then (match m.req with
      | some r => s.enqueueAt id (lineOf r.key)
      | none => s) else s
  s.setCtxAt site { Ctx.reset with
    st := .ready, pc := m.entry.setWidth 56, g := ((upto 1 m.payload.length).zip m.payload).filter fun e => decide (e.2 ≠ 0#64)
    tag := m.tag, src := BitVec.ofNat 22 (m.srcPkg * 4096 + m.src), ord := BitVec.ofNat 48 m.ord, pri := BitVec.ofNat 2 m.cls
    ask := BitVec.ofNat 10 m.key, mkid := BitVec.ofNat 10 (if b.getLsbD 63 then bits b 9 0 else 0), act := a
    img := c.img, treep := c.treep, treen := c.treen, xcount := c.xcount, half := c.half }

/-- A breakpoint of the kinds tested when a message is chosen to start (R377); one that is held has matched already. -/
def startHit (s : State) (site : Nat) (m : Msg) : Option State :=
  if m.hit then none
  else s.bpTest site m.tag.toNat [(0, m.entry.toNat % 2 ^ 56), (1, m.tag.toNat), (2, m.dstPkg * 4096 + m.dst), (3, m.srcPkg * 4096 + m.src)] 1

/-- The candidate leaves its place and starts, or a breakpoint holds it there. -/
def startPick (s : State) (core : Nat) (p : Pick) : Option State :=
  match p.cand with
  | .image _ => none
  | .mail i m =>
    match s.startHit p.site m with
    | some t => some (t.modCore core fun c => { c with inbox := SMap.set [] c.inbox i ((SMap.get [] c.inbox i).replace m { m with hit := true }) })
    | none => some ((s.popInbox core i m).begin p.site m)
  | .deque e =>
    match s.startHit p.site e.msg with
    | some t => some (t.modCore core fun c => { c with deque := c.deque.replace e { e with msg := { e.msg with hit := true } } })
    | none => some ((s.modCore core fun c => { c with deque := c.deque.erase e, taken := some { cycle := s.cycle, entry := e } }).begin p.site e.msg)
  | .task t =>
    match s.startHit p.site t.msg with
    | some u => some (u.modCore core fun c => { c with ordq := c.ordq.replace t { t with msg := { t.msg with hit := true } } })
    | none => some (((s.modCore core fun c => { c with ordq := c.ordq.erase t }).serveQueue core).begin p.site t.msg)

/-- A core starts its next activation: an AMSG handler in its service context (R83, R204), or the winning candidate. -/
def startNext (s : State) (core : Nat) : Option State :=
  match s.takeService core .amsg with
  | some (i, m, x) => some ((s.popInbox core i m).begin x m)
  | none => match s.winner core with
    | some p => s.startPick core p
    | none => none
/-- A site's image is what its core takes next. -/
def restoreNext (s : State) (site : Nat) : Option State :=
  match s.winner (coreOf site) with
  | some p => (match p.cand with | .image x => if x = site then s.restoreAt site else none | _ => none)
  | none => none

/-! ## Results and long slots -/

/-- The oldest reply on its way to a site arrives (R32): at the activation that waits for it, or at the image of one that was halted (R99). -/
def resultAt (s : State) (site : Nat) : Option State :=
  match s.pkg.results.find? fun r => r.1 == site with
  | none => none
  | some r =>
    let s := s.modPkg fun p => { p with results := p.results.erase r, sent := p.sent.filter fun m => m.2.1 == 0 || m.2.1 != r.2.token }
    let c := s.ctxAt site
    if ofImage c r.2.token then
      let s := s.imageResult site r.2
      some (if c.st = .saving then s else s.finishImage site)
    else match c.wait with
      | some w =>
        if w.token = r.2.token then some (s.setCtxAt site { c with replies := c.replies ++ [r.2], st := if c.st = .waiting then .ready else c.st }) else some s
      | none => some s

/-- A freed long slot goes to the first that waits for one (R93). -/
def grantSlot (s : State) (quad : Nat) : Option State :=
  match firstBy slotBefore (s.slotWaiters quad), s.freeSlotOf quad with
  | some w, some i => some ((s.takeSlot w.2 i).modCtxAt w.2 fun c => { c with st := .ready })
  | _, _ => none

/-! ## Pre-emption (R98 to R100) -/

/-- Class-0 candidates of a core that wait: images, messages, the deque's entries, tasks. -/
def urgent (s : State) (core : Nat) : Nat :=
  ((ctxsOf core).filter fun x => (s.ctxAt x).img.any (fun i => !i.stopHeld && (!i.aborting || ranging i.wait)) && s.imageClass x == 0).length + ((upto 0 16).map fun i => ((s.inbox core i).filter fun m => m.cls == 0 && !serviceKind m.kind).length).foldl (· + ·) 0 +
    ((s.coreAt core).deque.filter fun e => e.msg.cls == 0).length + ((s.queued core).filter fun t => t.msg.cls == 0).length
/-- A context that can be a victim. -/
def victimOk (s : State) (core x : Nat) : Bool :=
  let c := s.ctxAt x
  (c.st == .ready || c.st == .stalled || c.st == .waiting) && decide (1 ≤ c.pri.toNat) && c.img.isNone && !c.victim && !c.inPlace && !s.nonPre core c
/-- The victim of a request: the greatest class, then the latest start, then the highest number. -/
def victimOf (s : State) (core : Nat) : Option Nat :=
  firstBy (fun a b => let x := s.ctxAt a; let y := s.ctxAt b
      decide (y.pri.toNat < x.pri.toNat) || (x.pri == y.pri && (decide (y.act.start < x.act.start) || (x.act.start == y.act.start && decide (b < a)))))
    ((ctxsOf core).filter (s.victimOk core))
/-- The core's dispatch logic requests pre-emption (R98): for as many victims as there are class-0 candidates that no free context awaits. -/
def wantsVictim (s : State) (core : Nat) : Bool :=
  let pending := ((ctxsOf core).filter fun x => (s.ctxAt x).victim || (s.ctxAt x).st == .saving).length
  let free := (ctxsOf core).any fun x => s.eligible x && !((s.ctxAt x).img.isSome && s.imageClass x == 0)
  decide (pending < s.urgent core) && !free && !s.stopped (4 * core)
/-- A request, by the core, by firmware or by the debugger: the victim is named (R98). -/
def requestVictim (s : State) (core : Nat) : Option State :=
  (s.victimOf core).map fun x => s.modCtxAt x fun c => { c with victim := true }

/-- A halt falls at a unit boundary, in a frame at a pass boundary; a WAITING context halts at once (R99). A DONE completes (R102), and so does a unit
whose wait has ended. -/
def atBoundary (c : Ctx) : Bool :=
  !c.wait.any (·.ending) && (c.st == .waiting || (!(c.st == .ready && c.wait.any (!·.short)) && (!(c.frm.act && !c.susp) || c.frm.uidx == 0#4)))
/-- The victim halts, and its save begins. -/
def haltVictim (s : State) (site : Nat) : Option State :=
  let c := s.ctxAt site
  if c.victim && atBoundary c && c.st != .dormant && c.st != .saving then some (s.haltAt site) else none
/-- A save ends, or an image becomes complete after the last result it awaited. -/
def completeImage (s : State) (site : Nat) : Option State :=
  let c := s.ctxAt site
  if c.st = .saving then some (s.imageDone site)
  else if c.st = .dormant ∧ (match c.img with | some i => i.complete | none => true) = false ∧ s.imageWaits site = false then some (s.finishImage site)
  else none

/-! ## Re-checks (R331) -/

/-- A site's wait is on conditions, and may be re-checked. -/
def monWaits (s : State) (site : Nat) : Option Wait :=
  let c := s.ctxAt site
  match c.wait with | some w => if w.stage = monStage ∧ c.st = .waiting then some w else none | none => none
/-- The re-check of a site's wait; the issuing context stays the one it was. -/
def recheckAt (s : State) (site : Nat) : Option State := (s.focus site).recheck.map fun t => t.focus s.site

/-! ## Aborts (R330) -/

/-- What an abort gives back for the activation of a context: the messages and replies of its wait, a flip it asked for, its versions, its
entry; a TASK enters its core's queue again. -/
def undoTask (s : State) (site : Nat) (a : Act) (ord : Nat) (w : Option Wait) : State :=
  let tok := (w.map (·.token)).getD 0
  let flip := (w.filter fun w => w.stage == flipStage).map fun w => w.data.getD 1 0
  let s := (s.takeBack site tok).modPkg fun p => { p with
    results := p.results.filter fun r => !(r.1 == site && tok != 0 && r.2.token == tok)
    crates := SMap.mapVals {} (fun (c : Crate) => { c with flips := c.flips.filter fun f => flip != some f.num }) p.crates }
  match a.kind, a.msg with
  | .wavetask, some m => s.waveAbort m.wHandle m.wBid ord a.serial
  | .task, some m => s.modCore (coreOf site) fun c => { c with ordq := c.ordq ++ [{ msg := m }] }
  | _, _ => s

/-- An aborting task is discarded (R330): one that runs, at a unit boundary; or a halted one, with its image, whatever its context runs meanwhile (R340). -/
def abortTask (s : State) (site : Nat) : Option State :=
  let c := s.ctxAt site
  if c.aborting && (c.st == .ready || c.st == .stalled || c.st == .waiting) && !ranging c.wait then
    let t := s.focus site
    let t := (t.undoTask site c.act c.ord.toNat c.wait).endActivation .abort
    some (t.focus s.site)
  else match c.img with
    | some i =>
      if i.aborting && c.st != .saving && i.complete && !ranging i.wait then
        let t := s.undoTask site i.act i.ord.toNat i.wait
        let t := t.endClaim (site + 4096)
        let r := s.readImage site i
        let ws := ((s.setCtxAt site { r with act := i.act, units := i.units }).focus site).actRecord .abort
        some ((t.traceRec (coreOf site) i.act.kind ws).modCtxAt site fun c => { c with img := none })
      else none
    | none => none

end State

/-! ## The steps -/

/-- ACTIVATION_START (R82). -/
def execActivationStart (core : Nat) (s : State) : Host.Outcome State Fault Refusal := s.stepIf "ACTIVATION_START" (s.startNext core)
/-- AMO_EXECUTE (R203). -/
def execAmoExecute (core : Nat) (s : State) : Host.Outcome State Fault Refusal := s.stepIf "AMO_EXECUTE" (s.amoAt core)
/-- REDUCE_MESSAGE (R336). -/
def execReduceMessage (core : Nat) (s : State) : Host.Outcome State Fault Refusal := s.stepIf "REDUCE_MESSAGE" (s.reduceAt core)
/-- RESULT_ARRIVAL (R32). -/
def execResultArrival (site : Nat) (s : State) : Host.Outcome State Fault Refusal := s.stepIf "RESULT_ARRIVAL" (s.resultAt site)
/-- LONG_SLOT_GRANT (R93). -/
def execLongSlotGrant (quad : Nat) (s : State) : Host.Outcome State Fault Refusal := s.stepIf "LONG_SLOT_GRANT" (s.grantSlot quad)
/-- PRE_EMPTION_REQUEST (R98). -/
def execPreEmptionRequest (core : Nat) (s : State) : Host.Outcome State Fault Refusal := s.stepIf "PRE_EMPTION_REQUEST" (s.requestVictim core)
/-- PRE_EMPTION_HALT (R99). -/
def execPreEmptionHalt (site : Nat) (s : State) : Host.Outcome State Fault Refusal := s.stepIf "PRE_EMPTION_HALT" (s.haltVictim site)
/-- IMAGE_COMPLETE (R100). -/
def execImageComplete (site : Nat) (s : State) : Host.Outcome State Fault Refusal := s.stepIf "IMAGE_COMPLETE" (s.completeImage site)
/-- IMAGE_RESTORE (R101). -/
def execImageRestore (site : Nat) (s : State) : Host.Outcome State Fault Refusal := s.stepIf "IMAGE_RESTORE" (s.restoreNext site)
/-- MONITOR_RECHECK (R331): an event of the wait's conditions has happened. -/
def execMonitorRecheck (site : Nat) (s : State) : Host.Outcome State Fault Refusal :=
  s.stepIf "MONITOR_RECHECK" ((s.monWaits site).bind fun w => if (s.focus site).recheckDue w then s.recheckAt site else none)
/-- COARSE_RECHECK (R331): every 256 ticks of a wait that has a condition in coarse mode. -/
def execCoarseRecheck (site : Nat) (s : State) : Host.Outcome State Fault Refusal :=
  s.stepIf "COARSE_RECHECK" ((s.monWaits site).bind fun w => if w.data.getD 1 0 = 1 ∧ w.coarseAt ≤ s.tick (dieOf site) then s.recheckAt site else none)
/-- WAIT_TIMEOUT (R331): at the end of the tick at which it falls, for a condition of that tick wins. -/
def execWaitTimeout (site : Nat) (s : State) : Host.Outcome State Fault Refusal :=
  s.stepIf "WAIT_TIMEOUT" ((s.monWaits site).bind fun w => if w.deadline.any (s.focus site).tickOver && !(s.focus site).drainsOut then s.recheckAt site else none)
/-- TASK_ABORT (R330). -/
def execTaskAbort (site : Nat) (s : State) : Host.Outcome State Fault Refusal := s.stepIf "TASK_ABORT" (s.abortTask site)
/-- STALL_COUNT_SPENT (R31). -/
def execStallCountSpent (site : Nat) (s : State) : Host.Outcome State Fault Refusal :=
  s.stepIf "STALL_COUNT_SPENT"
    (if (s.ctxAt site).st = .stalled ∧ (s.ctxAt site).readyAt ≤ s.cycle then some (s.modCtxAt site fun c => { c with st := .ready }) else none)
/-- ILLEGAL_OPCODE (R43): the unit raises its decoder's fault. -/
def execIllegalOpcode (cause : Byte) (value : Word) (s : State) : Host.Outcome State Fault Refusal := s.finish 1 0#3 (.trap cause value)

end Sys2Proof.Machine
end

