-- ==== Sys2Proof/Machine/Host.lean ====
section
/-! DEFINITION. The host and the dispatch engine of a die: inbox writes and the scan, tokens, timed launches, alarms, the task stream, the
lower bound and commits; link messages; the host's requests to memory (20_dispatch_engine, 23_host_and_peers, 17_context_engine R287, R293,
01_device R17). -/
namespace Sys2Proof.Machine
open Sys2Proof
namespace State

/-! ## Host inboxes (R17, R321 to R324, R361) -/

/-- A package domain stop has landed (R383). -/
def allStopped (s : State) : Bool := s.pkg.stops.any fun t => t.landed && (t.dom == 5 || t.dom == 6)
/-- A CXL.io write to an inbox window (R361): accepted, or discarded and logged. One that is made during a landed package stop lands after the
snapshot, or at the resume (R383; log entry 103). -/
def inboxWrite (s : State) (die off : Nat) (bs : List Byte) : State :=
  let n := bs.length
  if 4 ≤ n ∧ n ≤ 128 ∧ n % 4 = 0 ∧ off % 4 = 0 ∧ off % 128 + n ≤ 128 ∧ off < 2 ^ 27 then
    (if s.allStopped && !s.pkg.replay.armed then s.modPkg fun p => { p with heldWrites := p.heldWrites ++ [(die, off, bs)] } else s.poke (hloc die off) bs)
  else s.faultRecord die 3 0 0 0#64 (BitVec.ofNat 64 off) 0

/-- The writes that a stop has held back land, in their order. -/
def landWrites (s : State) : State :=
  s.pkg.heldWrites.foldl (fun (s : State) w => s.poke (hloc w.1 w.2.1) w.2.2) (s.modPkg fun p => { p with heldWrites := [] })

/-- Offset of inbox i's registers. -/
def inboxReg (i : Nat) : Nat := 0x20000 + 32 * i
/-- Enabled inboxes of a die, ascending. -/
def enabledInboxes (s : State) (d : Nat) : List Nat :=
  (SMap.keys (s.dieAt d).regs).filterMap fun o =>
    if 0x20000 ≤ o ∧ o < 0x40000 ∧ o % 32 = 0 ∧ (s.reg d o).getLsbD 63 = true then some ((o - 0x20000) / 32) else none
/-- Word k of the slot at HEAD. -/
def slotWord (s : State) (d i k : Nat) : Word :=
  BitVec.ofNat 64 (s.load (hloc d (0x8000 * i + 0x80 * bits (s.reg d (inboxReg i + 8)) 39 32 + 8 * k)) 8)
/-- The slot at HEAD holds a committed command. -/
def slotValid (s : State) (d i : Nat) : Bool := (s.slotWord d i 0).getLsbD 28
/-- A command that R17 rejects. -/
def slotBad (s : State) (d i : Nat) : Bool :=
  let w := s.slotWord d i
  bits (w 0) 37 34 != 0 || decide (8 < bits (w 0) 33 29) || bits (w 0) 27 16 != 0 || badEntry (w 1) || bits (w 3) 53 48 != 0 || bits (w 4) 63 20 != 0

/-- The core that an inbox delivers to (R323): the next one, after that last used, with room; for class 0 in a cluster that holds a token. -/
def inboxCore (s : State) (d i : Nat) : Option Nat :=
  let r := s.reg d (inboxReg i)
  let cls := bits r 62 61
  let tgt := bits r 43 32
  let group := s.spanCores tgt (bits r 55 54)
  let last := SMap.get 0 (s.dieAt d).lastCore i
  let ring := (group.filter fun c => decide (last ≤ c)) ++ group.filter fun c => decide (c < last)
  ring.find? fun c => s.inboxRoom c (4 * (tgt % 4) + cls) && (cls != 0 || (s.cluAt (c / 16)).token)
def deliverable (s : State) (d i : Nat) : Bool := s.slotValid d i && (s.slotBad d i || (s.inboxCore d i).isSome)

/-- The inbox that the scan serves next (R324): the lowest class with a deliverable command; within it the inbox whose turn it is, up to its
WEIGHT, then the next one in ascending order, wrapping. The class, and what has been taken in the turn before. -/
def scanNext (s : State) (d : Nat) : Option (Nat × Nat × Nat) :=
  (firstBy (fun a b => decide (a < b)) (((s.enabledInboxes d).filter (s.deliverable d)).map fun i => bits (s.reg d (inboxReg i)) 62 61)).bind fun cls =>
    let mine := (s.enabledInboxes d).filter fun i => bits (s.reg d (inboxReg i)) 62 61 == cls && s.deliverable d i
    let (p, n) := SMap.get (4096, 0) (s.dieAt d).scan cls
    if mine.contains p && decide (n < max 1 (bits (s.reg d (inboxReg p)) 60 57)) then some (cls, p, n)
    else (((mine.filter fun i => decide (p < i)) ++ mine.filter fun i => decide (i ≤ p)).head?).map fun i => (cls, i, 0)

/-- The slot at HEAD is given back to the host, and HEAD advances. -/
def freeHostSlot (s : State) (d i : Nat) : State :=
  let o := inboxReg i + 8
  let h := bits (s.reg d o) 39 32
  let s := s.pokeNat (hloc d (0x8000 * i + 0x80 * h)) 8 (putBits (s.slotWord d i 0) 28 28 0).toNat
  s.setReg d o (putBits (s.reg d o) 39 32 (h + 1))
/-- The command at HEAD as a message for a core (R17); its ordinal is 0 (R15). VALID counts as observed by the scan that delivers the command
(log entry 77). -/
def hostMsg (s : State) (d i core : Nat) : Msg :=
  let w := s.slotWord d i
  let r := s.reg d (inboxReg i)
  { dst := 4 * core + bits r 33 32, src := i, srcPkg := s.pkg.num, dstPkg := s.pkg.num, cls := bits r 62 61, kind := .host, tag := (w 0).setWidth 16,
    entry := w 1, sendTick := s.tick d, key := bits r 53 44, payload := (upto 0 (bits (w 0) 33 29)).map fun k => w (5 + k), arr := s.tick (core / 256) }

/-- A kernel-table entry names an ENTRY (R384). -/
def kernelOf (s : State) (entry : Word) : Option Nat :=
  (upto 0 64).find? fun k => (s.reg 0 (0x401000 + 64 * k)).getLsbD 63 && bits (s.reg 0 (0x401000 + 64 * k)) 55 0 == bits entry 55 0
def setStatus (s : State) (v : Nat) : State := s.setReg 0 0x400400 (putBits (s.reg 0 0x400400) 55 52 v)
def modReplay (s : State) (f : Replay → Replay) : State := s.modPkg fun p => { p with replay := f p.replay }
/-- How many commands the capture region can hold beside its crates: none when these do not fit (the form of a captured crate is the
device's; log entry 5). -/
def logRoom (s : State) : Option Nat := Config.captureSlots (s.reg 0 0x400410).toNat s.pkg.replay.crates.length
/-- BUSY of replay control. -/
def setBusy (s : State) (v : Nat) : State := s.setReg 0 0x400400 (putBits (s.reg 0 0x400400) 63 63 v)
/-- Where the log slots of the capture region begin: behind the captured crates and inboxes (log entry 5). -/
def logBase (s : State) : Nat :=
  bits (s.reg 0 0x400408) 51 16 * 65536 + (Config.captureSize (s.reg 0 0x400410).toNat s.pkg.replay.crates.length + 127) / 128 * 128
/-- The location of a command's log slot. -/
def logLoc (s : State) (n : Nat) : Nat := gloc 0 (s.logBase + 128 * n)
/-- The next command is recorded in a line that is reserved: its delivery waits (R183). -/
def logHeld (s : State) : Bool := s.pkg.replay.recording && s.lineBusy 0 (lineOf (s.logLoc s.pkg.replay.log.length))
/-- Words 0 to 4 of a message (R14). -/
def msgWords (m : Msg) : List Word :=
  [BitVec.ofNat 64 (m.dst % 4096 * 2 ^ 52 + m.src % 4096 * 2 ^ 40 + m.cls % 4 * 2 ^ 38 + m.kind.num * 2 ^ 34 + m.payload.length % 16 * 2 ^ 29 + m.tag.toNat), m.entry,
   BitVec.ofNat 64 m.sendTick, BitVec.ofNat 64 (m.key % 1024 * 2 ^ 54 + m.ord % 2 ^ 48), BitVec.ofNat 64 (m.dstPkg % 1024 * 2 ^ 10 + m.srcPkg % 1024)]
/-- A log slot: words 0 to 4, the payload from word 5 on, and the delivery tick in word 13 (R383; log entry 5). -/
def logSlot (m : Msg) (tick : Nat) : List Word :=
  msgWords m ++ (upto 0 8).map (fun i => m.payload.getD i 0#64) ++ [BitVec.ofNat 64 tick, 0#64, 0#64]
/-- Record a delivered command (R383): its message carries the kernel instance that it starts. -/
def record (s : State) (m : Msg) : Msg × State :=
  let r := s.pkg.replay
  let n := r.log.length
  if r.recording = false then (m, s)
  else if 2 ^ 20 ≤ n then (m, s.modReplay fun r => { r with recording := false })
  else if (match s.logRoom with | some k => decide (k ≤ n) | none => true) then (m, (s.modReplay fun r => { r with recording := false }).setStatus 2)
  else
    let e := s.kernelOf m.entry
    let k := e.isSome
    let s := s.modReplay fun r =>
      { r with log := r.log ++ [{ msg := m, tick := s.tick (dieOf m.dst) }], insts := if k then r.insts ++ [n] else r.insts, kernels := SMap.set 0 r.kernels n (e.getD 0) }
    let s := (s.store (s.logLoc n) ((logSlot m (s.tick (dieOf m.dst))).map fun w => natToBytes 8 w.toNat).flatten).setReg 0 0x400430 (putBits (s.reg 0 0x400430) 63 32 (n + 1))
    ({ m with inst := if k then some n else m.inst }, s)

/-- A class-0 delivery uses the token of the core's cluster; the next is granted ADMIT ticks later, at once when ADMIT is 0 (R325, R332). -/
def useToken (s : State) (core : Nat) : State :=
  let a := bits (s.reg (core / 256) 0x3000) 63 48
  s.modClu (core / 16) fun c => { c with token := a == 0, tokenDue := s.tick (core / 256) + a }

/-- Inboxes whose turn the scan ends: the command at HEAD cannot be placed (R324). -/
def stuckTurns (s : State) (d : Nat) : List (Nat × Nat) :=
  (upto 0 4).filterMap fun cls =>
    let (p, n) := SMap.get (4096, 0) (s.dieAt d).scan cls
    if (s.enabledInboxes d).contains p && bits (s.reg d (inboxReg p)) 62 61 == cls && s.slotValid d p && !s.deliverable d p && decide (n < 64) then some (cls, p) else none
/-- The turns of inboxes end: the scan moves on to the next one of their class. -/
def endTurns (s : State) (d : Nat) (ts : List (Nat × Nat)) : State :=
  s.modDie d fun y => { y with scan := ts.foldl (fun m t => SMap.set (4096, 0) m t.1 (t.2, 64)) y.scan }
/-- How a replay stands once a command has been delivered or an instance has ended (R385): it is over when every command has been delivered and every
instance has ended; an instance that alone still runs after LAST gives STATUS 4 while it runs (log entry 96). -/
def judge (s : State) : State :=
  let r := s.pkg.replay
  let st := bits (s.reg 0 0x400400) 55 52
  if r.replaying = false then s
  else if r.insts.isEmpty && decide (r.log.length ≤ r.next) then
    ((if st = 4 then s.setStatus 0 else s).modReplay fun r => { r with replaying := false }).setBusy 0
  else if r.insts.length = 1 ∧ bits (s.reg 0 0x400428) 63 32 < r.next ∧ st = 0 then s.setStatus 4
  else s
/-- A replay's next command is delivered to its recorded site, once its inbox has room; one of class 0 uses a token of its cluster, as a host command
does. A command of a kernel starts an instance (R384, R385). -/
def replayNext (s : State) (d : Nat) : Option State :=
  let i := s.pkg.replay.next
  match s.pkg.replay.log[i]? with
  | none => none
  | some r =>
    let c := coreOf r.msg.dst
    if dieOf r.msg.dst ≠ d ∨ s.inboxRoom c (inboxOf r.msg) = false ∨ (r.msg.cls = 0 ∧ (s.cluAt (c / 16)).token = false) then none
    else
      let e := s.kernelOf r.msg.entry
      let k := e.isSome
      let s := s.modReplay fun x => { x with next := i + 1, insts := if k then x.insts ++ [i] else x.insts, kernels := SMap.set 0 x.kernels i (e.getD 0) }
      let s := s.append { r.msg with sendTick := s.tick d, arr := s.tick d, inst := if k then some i else none }
      let s := (if r.msg.cls = 0 then s.useToken c else s).modDie d fun y => { y with scanAt := s.cycle + 8 }
      some s.judge
/-- The scan's next delivery or rejection (R17, R324); it ends the turns of inboxes whose commands it cannot place. After a checkpoint it delivers
nothing before the RESUME (R383); while a replay has commands left it delivers those (log entry 96). -/
def scanDie (s : State) (d : Nat) : Option State :=
  if s.cycle < (s.dieAt d).scanAt ∨ s.booted = false ∨ s.pkg.replay.armed = true ∨ s.logHeld = true then none
  else if s.pkg.replay.replaying && decide (s.pkg.replay.next < s.pkg.replay.log.length) then s.replayNext d
  else match s.scanNext d with
  | none => if (s.stuckTurns d).isEmpty then none else some (s.endTurns d (s.stuckTurns d))
  | some x => some <|
    let i := x.2.1
    let s := (s.endTurns d (s.stuckTurns d)).modDie d fun y => { y with scan := SMap.set (4096, 0) y.scan x.1 (i, x.2.2 + 1), scanAt := s.cycle + 8 }
    if s.slotBad d i then
      let o := inboxReg i + 8
      (s.setReg d o (putBits (s.reg d o) 31 0 (bits (s.reg d o) 31 0 + 1))).freeHostSlot d i
    else match s.inboxCore d i with
      | none => s
      | some c =>
        let (m, t) := s.record (s.hostMsg d i c)
        let t := t.append m
        let t := if m.cls = 0 then t.useToken c else t
        let t := (t.bumpReg d (inboxReg i + 16)).freeHostSlot d i
        t.modDie d fun y => { y with lastCore := SMap.set 0 y.lastCore i (c + 1) }

/-- A cluster receives its next token (R325). -/
def grantToken (s : State) (c : Nat) : Option State :=
  let x := s.cluAt c
  if x.token = false ∧ x.tokenDue ≤ s.tick (c / 16) ∧ s.coreEn c ≠ 0 then some (s.setClu c { x with token := true }) else none

/-! ## Timed launches, alarms -/

/-- Deliver timed launches that are due, in ascending site order (R351). ARRT is their tick. -/
def launchDue (s : State) : List (Nat × Msg) → State
  | [] => s
  | (t, m) :: ms =>
    let r := (0, coreOf m.dst, inboxOf m)
    let s := (s.modPkg fun p => { p with rsvd := p.rsvd.erase r }).append { m with arr := t }
    launchDue (s.modDie (dieOf m.dst) fun d => { d with timed := d.timed.erase (t, m) }) ms
/-- The timed launches that are due. -/
def timedDue (s : State) : List (Nat × Msg) :=
  ((((upto 0 4).map fun d => (s.dieAt d).timed).flatten).filter fun x => decide (x.1 ≤ s.tick (dieOf x.2.dst))).mergeSort fun a b => decide (a.2.dst ≤ b.2.dst)

/-- What the power monitor of a die measured in tick `t`, in sixteenths of a watt (R334). -/
def powerAt (ps : List (Nat × Nat)) (t : Nat) : Nat := ((ps.find? fun p => decide (p.1 ≤ t)).map (·.2)).getD 0
/-- The sum of 100 ticks' power up to tick `t`: a hundred times the average. -/
def powerSum (ps : List (Nat × Nat)) (t : Nat) : Nat := ((upto 0 100).map fun i => powerAt ps (t - i)).foldl (· + ·) 0
/-- Readings that a later one cannot need. -/
def recent (t : Nat) : List (Nat × Nat) → List (Nat × Nat)
  | [] => []
  | p :: ps => if p.1 + 200 < t then [p] else p :: recent t ps
/-- A die's power from this tick on. -/
def measure (s : State) (d p : Nat) : State := s.modDie d fun x => { x with power := (s.tick d, p) :: recent (s.tick d) x.power }
/-- The average over the last 100 ticks exceeds PLIMIT; it has stayed below 15/16 of PLIMIT for 100 ticks (R334). -/
def powerHigh (s : State) (d : Nat) : Bool :=
  let ps := (s.dieAt d).power
  !ps.isEmpty && decide (1600 * bits (s.reg d 0x3008) 47 32 < powerSum ps (s.tick d))
def powerLow (s : State) (d : Nat) : Bool :=
  (upto 0 100).all fun i => decide (powerSum (s.dieAt d).power (s.tick d - i) < 1500 * bits (s.reg d 0x3008) 47 32)
/-- The power monitor sets or clears ALARM (R334). -/
def setAlarm (s : State) (d : Nat) (on : Bool) : Option State :=
  if s.alarm d = on ∨ (if on then s.powerHigh d else s.powerLow d) = false then none
  else
    let s := s.setReg d 0x3008 (putBits (s.reg d 0x3008) 63 63 (if on then 1 else 0))
    some (s.modDie d fun x => if on then { x with alarms := x.alarms + 1, alarmAt := s.tick d } else { x with throttle := x.throttle + (s.tick d - x.alarmAt) })

/-! ## The task stream, the lower bound, commits -/

/-- The core that a bound entry's task goes to (R312). -/
def waveCore (s : State) (b : Bind) (bid : Nat) : Option Nat :=
  let es := s.spanCores b.site b.span
  es[bid % es.length]?
/-- The sequencer dispatches its lowest entry (R293): at class 3 to the bound handler (R312), when the core's queue has room. -/
def dispatchNext (s : State) (d : Nat) : Option State :=
  match lowest (((s.handles d).filter fun h => (s.bindOf h).isSome).flatMap s.readyOf) with
  | none => none
  | some e => match s.bindOf e.handle with
    | none => none
    | some b => match s.waveCore b e.blk.bid with
      | none => none
      | some c => if 256 ≤ (s.queued c).length then none else some (s.dispatch e c 3 b.entry)

/-- Domains that hold or have held something. -/
def doms (s : State) : List Nat :=
  (SMap.keys s.pkg.largest ++ (s.pkg.senders.map (·.msg.key)) ++ (s.allSites.flatMap fun x => ((s.ctxAt x).wait.bind (·.holds)).toList.map (·.1)) ++
    ((SMap.vals s.dies).map fun (d : Die) => (SMap.vals d.recs).filterMap fun r => r.map (·.key)).flatten).eraseDups
/-- The published bounds: those of some domains, which never decrease. -/
def publishFor (s : State) (now : State) : List Nat → State
  | [] => s
  | k :: ks => publishFor (s.modPkg fun p => { p with gvt := SMap.set 1 p.gvt k (max (SMap.get 1 p.gvt k) (now.lower k)) }) now ks
/-- The sample and its publication (R329): then completed tasks below their bound are committed (R328), and versions are freed (R287). -/
def publishBounds (s : State) : State :=
  let s := s.publishFor s s.doms
  let live := fun (t : OrdTask) => !(t.done && decide (t.msg.ord < s.gvtOf t.msg.key))
  let s := { s with cores := SMap.mapVals {} (fun (c : Core) => { c with ordq := c.ordq.filter live }) s.cores }
  (upto 0 4).foldl (fun (s : State) d => s.prune d) s

/-! ## Links (R366, R367) -/

/-- A message from its words (R14), when it is one that the link carries; for a LAUNCH, a word after the payload gives the tick of its delivery, if one
stands there (log entry 91). -/
def linkMsg (ws : List Word) : Option Msg :=
  let w := fun (i : Nat) => ws.getD i 0#64
  let kinds : List (Nat × Kind) := [(1, .send), (2, .hop), (4, .task), (10, .launch), (11, .reduce)]
  match kinds.find? fun k => k.1 == bits (w 0) 37 34 with
  | none => none
  | some k => some
    { dst := bits (w 0) 63 52, src := bits (w 0) 51 40, srcPkg := bits (w 4) 9 0, dstPkg := bits (w 4) 19 10, cls := bits (w 0) 39 38, kind := k.2,
      tag := (w 0).setWidth 16, entry := w 1 &&& fmask 55 0, sendTick := (w 2).toNat, key := bits (w 3) 63 54, ord := bits (w 3) 47 0,
      payload := (upto 0 (bits (w 0) 33 29)).map fun i => w (5 + i)
      at' := if k.2 = .launch then (ws[5 + bits (w 0) 33 29]?).map (·.toNat) else none }

/-- A message is dropped for want of its site: a HOP's loss is logged (R18, R343), the sender of another one is told. -/
def dropHere (s : State) (m : Msg) : State :=
  if m.kind = .hop then s.faultRecord (dieOf (m.dst % 4096)) 2 0 (s.pkg.num * 4096 + m.dst) 0#64 0#64 m.ord else s.tellPeer m 2
/-- A message whose route is down is dropped (R367): its sender is told, in its own package or in another; a HOP is logged in its sender's. -/
def dropDown (s : State) (tok : Nat) (m : Msg) : State :=
  let s := s.dropFor m.dstPkg
  if m.srcPkg ≠ s.pkg.num then (if m.kind = .hop then s else s.tellPeer m 5)
  else if m.kind = .hop then s.faultRecord 0 2 0 (m.dstPkg * 4096 + m.dst) 0#64 0#64 m.ord
  else if tok = 0 then s
  else s.modPkg fun p => { p with results := p.results.map fun r =>
    if r.2.token = tok then (r.1, { r.2 with value := statusWord 5 (r.2.value.toNat % 2 ^ 56 - 1) }) else r }
/-- A message from a peer takes its place as SEND.B's does, or waits for it (R342); its sender is sent status 0. -/
def arrive (s : State) (m : Msg) : State :=
  let m := { m with arr := s.tick (dieOf m.dst) }
  if s.inboxRoom (coreOf m.dst) (inboxOf m) then (if m.kind = .hop then s.deliverAt m else (s.deliverAt m).tellPeer m 0)
  else s.modPkg fun p => { p with senders := p.senders ++ [{ site := homeAgent, token := 0, msg := m }] }
/-- A message arrives over a link: delivered here, sent on, or dropped; its status is returned (R366). A TASK is judged by this package's bound (R368).
Whether a SEND is of the append form or SEND.B, the message does not say (log entry 91). -/
def linkArrive (s : State) (m : Msg) : State :=
  match s.routeOf m.dstPkg with
  | .port p => s.modPkg fun x => { x with sent := x.sent ++ [(p, 0, m)] }
  | .down => s.dropDown 0 m
  | .here =>
    match m.kind with
    | .task =>
      if s.siteEnabled (m.dst / 4 * 4) = false then s.tellPeer m 2
      else if m.ord = 0 ∨ m.ord < s.gvtOf m.key then s.tellPeer m 4
      else if (s.queued (coreOf m.dst)).length < 256 then (s.enqueue (coreOf m.dst) m).tellPeer m 0
      else s.modPkg fun p => { p with senders := p.senders ++ [{ site := homeAgent, token := 0, msg := m }] }
    | .reduce => if s.siteEnabled (m.dst / 4 * 4) then s.arrive { m with dst := m.dst / 4 * 4 + 3 } else s.dropHere m
    | .send =>
      if s.siteEnabled m.dst = false then s.dropHere m
      else if s.inboxRoom (coreOf m.dst) (inboxOf m) = false ∧ s.choose 52000 2 = 0 then s.tellPeer m 1
      else s.arrive m
    | _ => if s.siteEnabled m.dst then s.arrive m else s.dropHere m

/-- Messages of a port that went down are dropped (R367). -/
def dropSent (s : State) : List (Nat × Nat × Msg) → State
  | [] => s
  | (_, tok, m) :: ms => dropSent (s.dropDown tok m) ms
/-- The `lost` ones, by their places, of the messages not yet acknowledged on a port are dropped; the others have arrived. -/
def portDown (s : State) (port : Nat) (lost : List Nat) : State :=
  let mine := s.pkg.sent.filter fun m => m.1 == port
  let gone := (upto 0 mine.length).filterMap fun i => if lost.contains i then mine[i]? else none
  (s.modPkg fun p => { p with sent := p.sent.filter fun m => m.1 != port }).dropSent gone

/-! ## The host's requests to memory (R362, R363) -/

/-- A request at its home: answered, or waiting there. In device bias an exclusive holder is recalled; in host bias no cache is consulted. A write with
poison leaves its line uncorrectable. -/
def hostServe (s : State) (r : HostReq) : Option State :=
  let loc := gloc 0 (r.dpa / 64 * 64)
  let die := crateOf loc % 4
  if (s.medium (crateOf loc) == .absent) then
    some ((s.faultRecord die 4 0 0 0#64 (BitVec.ofNat 64 r.dpa) 0).modPkg fun p => { p with hostReply := (true, []) })
  else match s.homeTry [lineOf loc] with
    | .busy => none
    | .started t => some (t.modPkg fun p => { p with hostReqs := p.hostReqs ++ [r] })
    | .ready t =>
      let t := if t.hostBias (lineOf loc) then t
        else t.modPkg fun p => { p with coh := SMap.set {} p.coh (lineOf loc) { SMap.get {} p.coh (lineOf loc) with holder := none } }
      if r.write then
        let t := t.homeWrite [(loc, 64)] ((r.data ++ List.replicate 64 0#8).take 64)
        let t := if r.poison then t.modPkg fun p => { p with bad := SMap.set false p.bad (lineOf loc) true } else t
        some (t.modPkg fun p => { p with hostReply := (false, []) })
      else
        let bad := SMap.get false t.pkg.bad (lineOf loc)
        let t := if bad then t.countErr die 32 else t
        let bs := if bad then [] else t.rdN loc 64
        some (((t.touch [lineOf loc]).rangeServed homeAgent [lineOf loc]).modPkg fun p => { p with hostReply := (bad, bs) })
/-- A host request arrives, or one that waits tries again: it is answered, or waits at its home behind the others. -/
def hostRequest (s : State) (r : HostReq) : State :=
  let s := s.modPkg fun p => { p with hostReqs := p.hostReqs.erase r }
  (s.hostServe r).getD (s.modPkg fun p => { p with hostReqs := p.hostReqs ++ [r] })

/-! ## Extents (R196) -/

/-- Crates of an extent. -/
def inExtent (first count crate : Nat) : Bool := decide (first ≤ crate) && decide (crate < first + count)
/-- A line lies in the extent. -/
def extentLine (first count l : Nat) : Bool := isGlobal (l * 128) && inExtent first count (crateOf (l * 128))
/-- Some core still holds a line of the extent; or a drain of a partial line of it is on the way to its home (R187, R196). -/
def extentHeld (s : State) (first count : Nat) : Bool :=
  (s.pkg.coh.any fun l => extentLine first count l.1 && l.2.holder.isSome) || s.partsOut (extentLine first count)
/-- The extent is gone: its lines are dropped, partial ones too, its crates have no medium, and accesses to them fault. -/
def releaseExtent (s : State) (first count : Nat) : State :=
  let s := (s.loseParts (extentLine first count)).modPkg fun p => { p with
    coh := SMap.keep (fun l _ => !extentLine first count l) p.coh
    releasing := p.releasing.filter (· != (first, count)) }
  (upto first count).foldl (fun (s : State) k => s.modCrate k fun c => { c with medium := .absent, moving := none, released := true }) s
/-- The fabric manager asks for an extent of cellar crates: acknowledged once every line of it has been written back, the partial ones by drains. -/
def askExtent (s : State) (first count : Nat) : Option State :=
  if (upto first count).any fun k => s.medium k != .cellar then none
  else if s.extentHeld first count then
    some ((s.flushParts (extentLine first count)).modPkg fun p => { p with releasing := p.releasing.filter (· != (first, count)) ++ [(first, count)] })
  else some (s.releaseExtent first count)
/-- The bytes of lost lines, line by line: unspecified. -/
def loseLines (s : State) : List Nat → State
  | [] => s
  | l :: ls => loseLines (s.poke (l * 128) ((upto 0 128).map fun i => Config.freeByte (mkidOf (l * 128)) (s.free + l * 128 + i))) ls
/-- A release that its time-out forces: the dirty lines not yet written back, some of those still held, are lost. -/
def forceExtent (s : State) (first count : Nat) (lost : List Nat) : Option State :=
  if s.pkg.releasing.contains (first, count) then
    some ((s.loseLines (lost.filter fun l => extentLine first count l && (SMap.get {} s.pkg.coh l).holder.isSome)).releaseExtent
      first count)
  else none

end State

/-! ## The steps -/

/-- HOST_INBOX_WRITE (R361). -/
def execHostInboxWrite (die off : Nat) (data : List Byte) (s : State) : Host.Outcome State Fault Refusal := s.event (.ok (s.inboxWrite (die % 4) off data))
/-- INBOX_SCAN_DELIVERY (R324). -/
def execInboxScanDelivery (die : Nat) (s : State) : Host.Outcome State Fault Refusal := s.stepIf "INBOX_SCAN_DELIVERY" (s.scanDie die)
/-- ADMISSION_TOKEN_GRANT (R325). -/
def execAdmissionTokenGrant (cluster : Nat) (s : State) : Host.Outcome State Fault Refusal := s.stepIf "ADMISSION_TOKEN_GRANT" (s.grantToken cluster)
/-- TIMED_LAUNCH_DELIVERY (R351). -/
def execTimedLaunchDelivery (s : State) : Host.Outcome State Fault Refusal :=
  s.stepIf "TIMED_LAUNCH_DELIVERY" (match s.timedDue with | [] => none | ms => some (s.launchDue ms))
/-- ALARM_RAISE (R334). -/
def execAlarmRaise (die : Nat) (s : State) : Host.Outcome State Fault Refusal := s.stepIf "ALARM_RAISE" (s.setAlarm die true)
/-- ALARM_CLEAR (R334). -/
def execAlarmClear (die : Nat) (s : State) : Host.Outcome State Fault Refusal := s.stepIf "ALARM_CLEAR" (s.setAlarm die false)
/-- WAVETASK_DISPATCH (R293). -/
def execWavetaskDispatch (die : Nat) (s : State) : Host.Outcome State Fault Refusal := s.stepIf "WAVETASK_DISPATCH" (s.dispatchNext die)
/-- GVT_PUBLICATION (R329): once a multiple of 16 ticks is reached. -/
def execGvtPublication (s : State) : Host.Outcome State Fault Refusal :=
  s.stepIf "GVT_PUBLICATION" (if s.pkg.gvtAt / 16 < s.tick 0 / 16 then some (s.publishBounds.modPkg fun p => { p with gvtAt := s.tick 0 }) else none)
/-- VERSION_COMMIT (R287). -/
def execVersionCommit (die bid layer part : Nat) (s : State) : Host.Outcome State Fault Refusal :=
  s.stepIf "VERSION_COMMIT" (s.commit { die := die, bid := bid, layer := layer, part := part })
/-- LINK_MESSAGE_ARRIVAL (R366): a message of another kind is none. -/
def execLinkMessageArrival (words : List Word) (s : State) : Host.Outcome State Fault Refusal :=
  s.stepIf "LINK_MESSAGE_ARRIVAL" ((State.linkMsg words).map s.linkArrive)
/-- PORT_DOWN (R367). -/
def execPortDown (port : Nat) (lost : List Nat) (s : State) : Host.Outcome State Fault Refusal := s.event (.ok (s.portDown port lost))
/-- HOST_MEM_REQUEST (R362): none is accepted before every die has booted (R388). -/
def execHostMemRequest (write poison : Bool) (dpa : Nat) (data : List Byte) (s : State) : Host.Outcome State Fault Refusal :=
  s.stepIf "HOST_MEM_REQUEST" (if s.booted then some (s.hostRequest { write := write, poison := poison, dpa := dpa, data := data }) else none)
/-- EXTENT_RELEASE (R196). -/
def execExtentRelease (first count : Nat) (s : State) : Host.Outcome State Fault Refusal := s.stepIf "EXTENT_RELEASE" (s.askExtent first count)
/-- EXTENT_RELEASE_TIMEOUT (R196). -/
def execExtentReleaseTimeout (first count : Nat) (lost : List Nat) (s : State) : Host.Outcome State Fault Refusal :=
  s.stepIf "EXTENT_RELEASE_TIMEOUT" (s.forceExtent first count lost)

end Sys2Proof.Machine
end

