-- ==== Sys2Proof/Machine/Home.lean ====
section
/-! DEFINITION. What the memory engine and the fault gatherer do by themselves: coherence, the messages of commutative ranges, shelf
switches, tiers, and lists of absent pages (10_memory_hierarchy R173, R182, R189 to R196; 12_memory_ordering R224; 25_system R393, R394). -/
namespace Sys2Proof.Machine
open Sys2Proof
namespace State

/-! ## Coherence (R181, R182): an outline, in which no value changes -/

def cohOf (s : State) (line : Nat) : Coh := SMap.get {} s.pkg.coh line
def setCoh (s : State) (line : Nat) (c : Coh) : State := s.modPkg fun p => { p with coh := SMap.set {} p.coh line c }
/-- The exclusive holder's write-back reaches the home: there is no holder. -/
def writtenBack (s : State) (line : Nat) : Option State :=
  if (s.cohOf line).holder.isSome then some (s.setCoh line { s.cohOf line with holder := none }) else none
/-- A request of `core` that the home forwarded reaches the holder: a read leaves the line with no holder; a write moves ownership. -/
def forwarded (s : State) (line core : Nat) (write : Bool) : Option State :=
  let c := s.cohOf line
  match c.holder with
  | none => none
  | some h =>
    if h = core then none
    else some (s.setCoh line (if write && !s.hostBias line then { holder := some core, wts := c.rts + 1, rts := c.rts + 1 } else { c with holder := none }))
/-- A renewal at the home, once no ownership moves: the lease grows; by how much, the spec leaves open (log entry 7). -/
def renewed (s : State) (line : Nat) : Option State :=
  let c := s.cohOf line
  if c.holder.isSome then none else some (s.setCoh line { c with rts := c.rts + s.choose 44000 (2 ^ 20) })

/-! ## Shelf switches (R173) -/

/-- Bytes of a shelf below its save area. -/
def shelfSize (shelf : Nat) : Nat := if shelf % 2 = 0 then 0x40000 else 0x36000
/-- Every byte of a shelf below its save area reads 0. -/
def clearShelf (s : State) (clu shelf : Nat) : State :=
  let lo := ploc clu shelf 0
  let inside := fun (a : Nat) => decide (lo ≤ a) && decide (a < lo + shelfSize shelf)
  let s := { s with mem := SMap.keep (fun a _ => !inside a) s.mem }
  s.modPkg fun p => { p with bad := SMap.keep (fun l _ => !inside (l * 128)) p.bad }
/-- A switch ends: between SCRATCH and FIFO the contents stay; to and from CACHE the shelf is zero or its contents are discarded. The writes of zeros
wait for the commands that have reserved lines of the shelf (M10 of R227; log entry 88). -/
def endSwitch (s : State) (clu shelf : Nat) : Option State :=
  let x := SMap.get {} (s.cluAt clu).shelves shelf
  match x.target with
  | none => none
  | some m =>
    if x.mode = .cache ∧ s.pkg.resv.any (fun r => isPantry (r.1 * 128) && shelfOf (r.1 * 128) == clu * 32 + shelf && decide (shelfOff (r.1 * 128) < shelfSize shelf) && !r.2.ids.isEmpty) = true then none
    else
    let s := if x.mode = .cache ∨ m = .cache then s.clearShelf clu shelf else s
    some (s.modClu clu fun c => { c with shelves := SMap.set {} c.shelves shelf { mode := m } })

/-! ## Tiers (R192 to R194) -/

/-- PERIOD as it acts. -/
def period (s : State) (d : Nat) : Nat := max 1000 (bits (s.reg d 0x2000) 31 12)
/-- The end of a tracking period (R192): a crate's count, 16 bits and saturating, is that of its accesses that reached the medium; how many did, and
whether HBM slots are short, the spec leaves open (log entry 7). A crate with no entry is in HBM and has had no access. Queued moves are `moving`. -/
def evaluate (s : State) (d : Nat) : State :=
  let r := s.reg d 0x2000
  let up := bits r 63 48
  let down := bits r 47 32
  let short := s.choose 39000 2 == 1
  let queue := fun (m : Medium) (k : Nat) (c : Crate) =>
    let n := min 65535 (s.choose (65536 * (k + 1)) (c.accesses + 1))
    if c.moving.isSome then c.moving
    else if m = .cellar ∧ up ≤ n then some Medium.hbm
    else if m = .hbm ∧ n ≤ down ∧ short = true then some .cellar
    else none
  let judge := fun (e : Nat × Crate) => if e.1 % 4 = d then (e.1, { e.2 with accesses := 0, moving := queue (s.medium e.1) e.1 e.2 }) else e
  let idle := ((upto 0 (if short then s.choose 39001 4096 else 0)).map fun i => s.choose (40000 + i) (Config.channelCrates * 96)).filter fun k =>
    k % 4 == d && s.medium k == .hbm && !(SMap.keys s.pkg.crates).contains k
  let t := s.modPkg fun p => { p with crates := SMap.keep (fun _ c => c != ({} : Crate)) (p.crates.map judge) }
  idle.foldl (fun (t : State) k => t.modCrate k fun c => { c with moving := some .cellar }) t
def endPeriod (s : State) (d : Nat) : Option State :=
  if (s.reg d 0x2000).getLsbD 0 && decide ((s.dieAt d).evalAt / s.period d < s.tick d / s.period d) then
    some ((s.evaluate d).modDie d fun x => { x with evalAt := s.tick d })
  else none
/-- A move completes: only the crate's entry changes; its place in the new medium is free (log entry 7). A promotion that at least one access overtook is
counted in LATEPROMO (R193). -/
def endMove (s : State) (k : Nat) : Option State :=
  let d := k % 4
  let c := SMap.get {} s.pkg.crates k
  match c.moving with
  | none => none
  | some m =>
    let s := s.modCrate k fun c => { c with medium := m, place := s.choose 38000 (2 ^ 36), moving := none, late := 0 }
    if m = .hbm then
      let s := s.bumpReg d 0x2008
      some (if c.late = 0 then s else s.bumpReg d 0x2020)
    else some (s.bumpReg d 0x2010)

/-! ## Gathered faults (R393, R394) -/

def faultWin (s : State) (d : Nat) : Nat := max 64 (min 4096 (bits (s.reg d 0x1000) 12 0))
/-- One entry of a list: the first park on a page, and how many there were. -/
def mergeParks : List Park → List (Park × Nat)
  | [] => []
  | p :: ps =>
    match mergeParks ps with
    | (q, n) :: rest => if q.key = p.key ∧ q.page = p.page then (p, n + 1) :: rest else (p, 1) :: (q, n) :: rest
    | [] => [(p, 1)]
def parkBefore (a b : Park) : Bool := decide (a.key < b.key) || (a.key == b.key && decide (a.page ≤ b.page))
/-- Entries in order of key and page; the parks of one page stay in their own order. -/
def faultList (ps : List Park) : List (Park × Nat) := mergeParks (ps.mergeSort parkBefore)
/-- Write entries from the i-th on. -/
def writeList (s : State) (base : Nat) : Nat → List (Park × Nat) → State
  | _, [] => s
  | i, (p, n) :: es =>
    let w := fun (x : Nat) => natToBytes 8 x
    let info := n % 2 ^ 32 * 2 ^ 32 + p.access % 4 * 2 ^ 28 + p.agent % 8 * 2 ^ 24 + p.site % 2 ^ 22
    let s := s.store (gloc 0 (base + 16 * i)) (w (p.page % 2 ^ 40 * 2 ^ 16) ++ w (p.key % 1024))
    writeList (s.store (gloc 0 (base + 0x10000 + 16 * i)) (w info ++ w p.tick)) base (i + 1) es
/-- A line of the area of a list of `n` entries is reserved: the list waits (M10 of R227; log entry 88). -/
def listHeld (s : State) (d n : Nat) : Bool :=
  let base := gloc 0 (bits (s.reg d 0x1008) 51 12 * 4096)
  (linesOf [(base, 16 * n), (base + 0x10000, 16 * n)]).any (s.lineBusy 0)
/-- Write the list that waits, if there is one and its area is free: at most 4,096 entries, the parks of the others are carried over; READY is set. -/
def emitList (s : State) (d : Nat) : State :=
  let es := faultList (s.dieAt d).formed
  let now := es.take 4096
  if now.isEmpty || s.listHeld d now.length then s
  else
    let left := (s.dieAt d).formed.filter fun p => !now.any fun e => e.1.key == p.key && e.1.page == p.page
    let s := s.writeList (bits (s.reg d 0x1008) 51 12 * 4096) 0 now
    let s := (s.setReg d 0x1010 (BitVec.ofNat 64 now.length)).modDie d fun x => { x with formed := left }
    s.setReg d 0x1000 (putBits (s.reg d 0x1000) 62 62 1)
/-- A window closes (R393): later parks open a new one. The list is written only if READY is 0; one that its area has kept waiting is written once
that is free. -/
def closeWindow (s : State) (d : Nat) : Option State :=
  let ready := (s.reg d 0x1000).getLsbD 62
  match (s.dieAt d).winStart.filter fun t => decide (t + s.faultWin d ≤ s.tick d) with
  | none =>
    let n := ((faultList (s.dieAt d).formed).take 4096).length
    if ready || n == 0 || s.listHeld d n then none else some (s.emitList d)
  | some t =>
    let e := t + s.faultWin d
    let ps := (s.dieAt d).parks
    let late := ps.filter fun p => decide (e ≤ p.tick)
    let s := s.modDie d fun x => { x with
      formed := x.formed ++ ps.filter fun p => decide (p.tick < e)
      parks := late
      winStart := late.head?.map (·.tick) }
    some (if ready then s else s.emitList d)
/-- READY is cleared: the list that waits is written. -/
def clearReady (s : State) (d : Nat) : State := (s.setReg d 0x1000 (putBits (s.reg d 0x1000) 62 62 0)).emitList d

end State

/-! ## The steps -/

/-- WRITE_BACK (R182). -/
def execWriteBack (line : Nat) (s : State) : Host.Outcome State Fault Refusal := s.stepIf "WRITE_BACK" (s.writtenBack line)
/-- FORWARDED_REQUEST (R182). -/
def execForwardedRequest (line core : Nat) (write : Bool) (s : State) : Host.Outcome State Fault Refusal :=
  s.stepIf "FORWARDED_REQUEST" (s.forwarded line core write)
/-- LEASE_RENEWAL (R182). -/
def execLeaseRenewal (line _core : Nat) (s : State) : Host.Outcome State Fault Refusal := s.stepIf "LEASE_RENEWAL" (s.renewed line)
/-- RANGE_JOIN_MESSAGE (R189). -/
def execRangeJoinMessage (line core : Nat) (s : State) : Host.Outcome State Fault Refusal := s.stepIf "RANGE_JOIN_MESSAGE" (s.joinMsg line core)
/-- DRAIN_ARRIVAL (R189). -/
def execDrainArrival (line core : Nat) (s : State) : Host.Outcome State Fault Refusal := s.stepIf "DRAIN_ARRIVAL" (s.drainMsg line core)
/-- BUDGET_MESSAGE (R231). -/
def execBudgetMessage (line core : Nat) (s : State) : Host.Outcome State Fault Refusal := s.stepIf "BUDGET_MESSAGE" (s.budgetMsg line core)
/-- BUDGET_ACK (R224). -/
def execBudgetAck (line core : Nat) (s : State) : Host.Outcome State Fault Refusal := s.stepIf "BUDGET_ACK" (s.ackMsg line core)
/-- FORCED_DRAIN_REQUEST (R188). -/
def execForcedDrainRequest (line core : Nat) (s : State) : Host.Outcome State Fault Refusal := s.stepIf "FORCED_DRAIN_REQUEST" (s.forceMsg line core)
/-- DRAIN_ACK (R224). -/
def execDrainAck (line core : Nat) (s : State) : Host.Outcome State Fault Refusal := s.stepIf "DRAIN_ACK" (s.drainAckMsg line core)
/-- PANTRY_SWITCH_END (R173). -/
def execPantrySwitchEnd (cluster shelf : Nat) (s : State) : Host.Outcome State Fault Refusal := s.stepIf "PANTRY_SWITCH_END" (s.endSwitch cluster shelf)
/-- TRACKING_PERIOD_END (R192). -/
def execTrackingPeriodEnd (die : Nat) (s : State) : Host.Outcome State Fault Refusal := s.stepIf "TRACKING_PERIOD_END" (s.endPeriod die)
/-- CRATE_MOVE_COMPLETE (R193). -/
def execCrateMoveComplete (crate : Nat) (s : State) : Host.Outcome State Fault Refusal := s.stepIf "CRATE_MOVE_COMPLETE" (s.endMove crate)
/-- FAULT_WINDOW_CLOSE (R393). -/
def execFaultWindowClose (die : Nat) (s : State) : Host.Outcome State Fault Refusal := s.stepIf "FAULT_WINDOW_CLOSE" (s.closeWindow die)
/-- FAULT_LIST_READY_CLEAR (R394). -/
def execFaultListReadyClear (die : Nat) (s : State) : Host.Outcome State Fault Refusal := s.event (.ok (s.clearReady die))

end Sys2Proof.Machine
end

