-- ==== Sys2Proof/Machine/Debugger.lean ====
section
/-! DEFINITION. Stop control, checkpoints, replay and kernel instances (24_debug_trace_replay, R378 to R385). -/
namespace Sys2Proof.Machine
open Sys2Proof
namespace State

/-! ## Stops -/

/-- A context of a stopped domain that still issues: it runs on until it waits (R378). -/
def issuing (c : Ctx) : Bool := (c.st == .ready || c.st == .stalled) && !c.frozen && !c.inPlace && !isService c
/-- Sites of a stop's domain whose activations still issue. -/
def stillIssue (s : State) (t : Stop) : List Nat := s.allSites.filter fun x => Stop.covers t x && issuing (s.ctxAt x)

/-- Set the stop-control bits of dies from the stops that stand (R380). -/
def showStops (s : State) : List Nat → State
  | [] => s
  | d :: ds =>
    let here := s.pkg.stops.filter fun t => (stopDies t.dom t.site).contains d
    let r := s.reg d 0x400000
    let r := putBits (putBits r 63 63 (if here.any (·.landed) then 1 else 0)) 62 62 (if here.any fun t => !t.landed then 1 else 0)
    showStops (s.setReg d 0x400000 (if here.isEmpty then putBits r 61 61 0 else r)) ds
/-- Contexts that no stop covers any more are let go (R379): their images may be selected, and those halted in place issue again. -/
def letGo (s : State) : List Nat → State
  | [] => s
  | x :: xs =>
    let s := if s.stopped x then s else s.modCtxAt x fun c =>
      { c with inPlace := false, frozen := false, skipBp := c.skipBp || c.inPlace, buf := if c.inPlace then [] else c.buf, img := c.img.map fun i => { i with stopHeld := false } }
    letGo s xs
/-- Stops are removed by a test. A recording that waits for this RESUME begins (R383). -/
def liftStops (s : State) (p : Stop → Bool) : State :=
  let s := s.modPkg fun k => { k with stops := k.stops.filter fun t => !p t }
  let s := (s.showStops [0, 1, 2, 3]).letGo s.allSites
  let s := if s.allStopped then s else s.landWrites
  s.modPkg fun k => { k with replay := { k.replay with recording := k.replay.recording || k.replay.armed, armed := false } }

/-- A write of GO (R380). -/
def stopGo (s : State) (d : Nat) (v : Word) : State := s.requestStop d (bits v 61 59) (bits v 21 0) 0 0
/-- A write of RESUME: landed stops that cover the die end; others end when they have landed (R380, R381). -/
def stopResume (s : State) (d : Nat) : State :=
  let here := fun (t : Stop) => (stopDies t.dom t.site).contains d
  let s := s.modPkg fun k => { k with stops := k.stops.map fun (t : Stop) => if here t = true ∧ t.landed = false then { t with resuming := true } else t }
  s.liftStops fun t => here t && t.landed
/-- A stop of the die lands: no activation of its domain issues. -/
def stopLand (s : State) (d : Nat) : Option State :=
  match s.pkg.stops.find? fun t => t.die == d && !t.landed && (s.stillIssue t).isEmpty with
  | none => none
  | some t =>
    let s := s.modPkg fun k => { k with stops := k.stops.replace t { t with landed := true } }
    let s := setRegs (s.showStops [0, 1, 2, 3]) (stopDies t.dom t.site)
    some (if t.resuming then s.liftStops (· == { t with landed := true }) else s)
where
  /-- TICK of the covered dies. -/
  setRegs (s : State) : List Nat → State
    | [] => s
    | k :: ks => setRegs (s.setReg k 0x400018 (BitVec.ofNat 64 (s.tick k))) ks

/-- Halt contexts that still issue: at a unit boundary, in a frame at a pass boundary (R99). One whose save area holds another image stays in
its context (log entry 1). -/
def forceHalt (s : State) : List Nat → State
  | [] => s
  | x :: xs =>
    let c := s.ctxAt x
    let s := if atBoundary c = false then s
      else if c.img.isSome then s.setCtxAt x { c with inPlace := true }
      else (s.haltAt x).modCtxAt x fun c => { c with img := c.img.map fun i => { i with stopHeld := true, skipBp := true } }
    forceHalt s xs
/-- STOPLIM ticks after its request, a stop of the die halts what still issues, and FORCED is set. -/
def stopForce (s : State) (d : Nat) : Option State :=
  let late := fun (t : Stop) => decide (t.tick + max 1 (bits (s.reg d 0x400000) 31 16) ≤ s.tick d)
  match s.pkg.stops.find? fun t => t.die == d && !t.landed && late t && (s.stillIssue t).any fun x => atBoundary (s.ctxAt x) with
  | none => none
  | some t =>
    let s := s.forceHalt (s.stillIssue t)
    some ((stopDies t.dom t.site).foldl (fun (s : State) k => s.setReg k 0x400000 (putBits (s.reg k 0x400000) 61 61 1)) s)

/-! ## Checkpoints (R382, R383) -/

/-- The crate of a location is listed. -/
def inCrates (ks : List Nat) (loc : Nat) : Bool := isGlobal loc && ks.contains (crateOf loc)
/-- The listed crates. -/
def crateList (s : State) : List Nat :=
  (upto 0 (min (2 ^ 20) (s.reg 0 0x400420).toNat)).map fun i =>
    bits (BitVec.ofNat 64 (s.load (gloc 0 (bits (s.reg 0 0x400418) 51 3 * 8 + 8 * i)) 8)) 51 16
/-- HEAD registers of every die that differ from 0. -/
def headRegs (s : State) : List (Nat × Nat × Word) :=
  ((upto 0 4).map fun d => (SMap.keys (s.dieAt d).regs).filterMap fun o =>
    if 0x20000 ≤ o ∧ o < 0x40000 ∧ o % 32 = 8 then some (d, o, s.reg d o) else none).flatten
/-- The memory keys of captured crates, each with its key at their home die: those of their lines that hold something or have been written. -/
def keysOf (s : State) (ks : List Nat) (cells : List Host.Cell) : List (Nat × Nat) :=
  let at' := cells.map (·.1) ++ ((SMap.keys s.pkg.code).map (· * 128)).filter (inCrates ks)
  ((at'.map fun a => mkidOf a * 4 + crateOf a % 4).filter fun k => decide (4 ≤ k)).eraseDups.map fun k =>
    (k, SMap.get 0 (s.dieAt (k % 4)).keyVals (k / 4))
/-- CHECKPOINT. The form in which the region holds the crates and the inboxes is the device's: its bytes are free (log entry 5). -/
def checkpoint (s : State) : State :=
  if s.allStopped = false then s.setStatus 1
  else
    let ks := s.crateList
    let cells := SMap.keep (fun a _ => inCrates ks a) s.mem
    let s := s.setReg 0 0x400430 (putBits (s.reg 0 0x400430) 63 32 0)
    let s := s.modReplay fun _ => {
      armed := true
      crates := ks.map fun k => (gloc 0 (k * 65536), SMap.keep (fun a _ => inCrates [k] a) cells)
      inboxes := SMap.keep (fun a _ => decide (2 ^ 63 ≤ a)) s.mem
      heads := s.headRegs
      mkids := s.keysOf ks cells }
    let n := Config.captureSize (s.reg 0 0x400410).toNat ks.length
    let s := s.store (gloc 0 (bits (s.reg 0 0x400408) 51 16 * 65536)) ((upto 0 n).map fun i => Config.freeByte 0 (s.free + i))
    let s := s.landWrites
    if s.logRoom.isSome then s.setStatus 0 else (s.modReplay fun r => { r with armed := false }).setStatus 2
/-- ENDREC. -/
def endRec (s : State) : State := s.modReplay fun r => { r with recording := false, armed := false }

/-! ## Replay (R385) -/

/-- A host inbox holds a committed command: a slot has VALID set. -/
def inboxesHold (s : State) : Bool := s.mem.any fun c => decide (2 ^ 63 ≤ c.1) && c.1 % 128 == 3 && c.2.getLsbD 4
/-- Nothing runs, is held or waits, and the captured crates' keys are those of the checkpoint. -/
def replayOk (s : State) : Bool :=
  !s.inboxesHold && s.pkg.heldWrites.isEmpty && s.pkg.xfers.isEmpty && ((SMap.vals s.clus).all fun (c : Cluster) => c.cmds.isEmpty) &&
    ((upto 0 4).all fun d => (s.dieAt d).timed.isEmpty) && (s.allSites.all fun x => (s.ctxAt x).st == .dormant && (s.ctxAt x).img.isNone) &&
    ((SMap.vals s.cores).all fun (c : Core) => c.inbox.isEmpty && c.deque.isEmpty && c.ordq.all (·.done)) && s.pkg.senders.isEmpty &&
    s.pkg.replay.mkids.all fun k => SMap.get KeySt.none (s.dieAt (k.1 % 4)).keys (k.1 / 4) == .loaded && SMap.get 0 (s.dieAt (k.1 % 4)).keyVals (k.1 / 4) == k.2
/-- Put cells into memory. -/
def putCells (s : State) : List Host.Cell → State
  | [] => s
  | (a, b) :: cs => putCells { s with mem := Memory.write s.mem a b } cs
/-- The captured crates and inboxes are restored; the lines of the crates are closed and correctable (R162). -/
def restoreCrates (s : State) : State :=
  let r := s.pkg.replay
  let ks := r.crates.map fun c => crateOf c.1
  let s := { s with mem := SMap.keep (fun a _ => !(inCrates ks a || decide (2 ^ 63 ≤ a))) s.mem }
  let s := (s.putCells (r.crates.map (·.2)).flatten).putCells r.inboxes
  let s := s.modPkg fun p => { p with
    code := SMap.keep (fun l _ => !inCrates ks (l * 128)) p.code
    bad := SMap.keep (fun l _ => !inCrates ks (l * 128)) p.bad }
  let head := fun (s : State) (x : Nat × Nat × Word) (v : Nat) => s.setReg x.1 x.2.1 (putBits (s.reg x.1 x.2.1) 39 32 v)
  let s := s.headRegs.foldl (fun (s : State) x => head s x 0) s
  r.heads.foldl (fun (s : State) x => head s x (bits x.2.2 39 32)) s
/-- REPLAY: the scans then deliver the recorded commands, one after the other (`replayNext`). -/
def replay (s : State) : State :=
  if s.replayOk = false then s.setStatus 1
  else
    let s := (s.restoreCrates.modReplay fun r => { r with replaying := true, recording := false, armed := false, insts := [], next := 0 }).setStatus 0
    (s.setBusy 1).judge
/-- ABORT: the machine is left as it stands. -/
def abortReplay (s : State) : State := (s.modReplay fun r => { r with recording := false, armed := false, replaying := false, insts := [] }).setBusy 0

/-! ## Kernel instances (R384) -/

/-- Something of an instance remains: an activation or its image, a message, an ordered task, a command, or a wave with work outstanding. -/
def instLives (s : State) (k : Nat) : Bool :=
  let msg := fun (m : Msg) => m.inst == some k || m.also.contains k
  let act := fun (a : Act) => a.msg.any msg
  let wave := fun (h : Nat) => match s.crec h with
    | none => false
    | some r => (s.blocksOf h).any fun b => (upto 0 r.layers).any fun l => (s.entInsts r.key (s.ent (h / 16384) b.bid l)).contains k
  (s.allSites.any fun x => let c := s.ctxAt x; (c.st != .dormant && act c.act) || c.img.any fun i => act i.act) ||
    ((SMap.vals s.cores).any fun (c : Core) => ((SMap.vals c.inbox).any fun ms => ms.any msg) || c.deque.any (fun e => msg e.msg) ||
      c.server.any (fun v => v.insts.contains k) || c.ordq.any fun t => msg t.msg) ||
    s.pkg.senders.any (fun w => msg w.msg) || s.pkg.xfers.any (fun x => x.inst == some k) ||
    ((SMap.vals s.clus).any fun (c : Cluster) => c.cmds.any fun m => m.inst == some k) ||
    (upto 0 4).any fun d => (s.dieAt d).timed.any (fun t => msg t.2) || (s.handles d).any wave

/-- One byte into a CRC-64/ECMA-182. -/
def crcBits (n : Nat) (c : Word) : Word :=
  match n with
  | 0 => c
  | n + 1 => crcBits n (if c.getLsbD 63 then (c <<< 1) ^^^ 0x42F0E1EBA9EA3693#64 else c <<< 1)
def crcByte (c : Word) (b : Byte) : Word := crcBits 8 (c ^^^ (b.setWidth 64 <<< 56))

/-- A range's CRC: the value, whether a byte faulted; or the line that has to be drained or released first. -/
inductive Crc where
  | value (c : Word) (fault : Bool)
  | wait (line : Nat)
/-- The CRC over `n` bytes at `a`, read as ordinary accesses, from a value on. -/
def crcRun (s : State) (w : Who) (a : Nat) : Nat → Word → Crc
  | 0, c => .value c false
  | n + 1, c =>
    match s.headFault w 0 (BitVec.ofNat 64 a) 1, s.place w .read 0 a 0 with
    | none, .at loc _ =>
      if SMap.get false s.pkg.bad (lineOf loc) || (isGlobal loc && (SMap.get {} s.pkg.crates (crateOf loc)).released) then .value c true
      else if s.lineBusy 0 (lineOf loc) || !(s.rline (lineOf loc)).sharers.isEmpty then .wait (lineOf loc)
      else crcRun s w (a + 1) n (crcByte c (s.rdByte loc))
    | _, _ => .value c true
/-- The CRCs after each of the ranges i, i + 1, … of a kernel-table entry, and whether one faulted. -/
def crcAll (s : State) (k : Nat) (c : Word) : Nat → Nat → List Word × Bool ⊕ Nat
  | _, 0 => .inl ([], false)
  | i, n + 1 =>
    let a := s.reg 0 (0x401000 + 64 * k + 8 + 16 * i)
    let len := bits (s.reg 0 (0x401000 + 64 * k + 16 + 16 * i)) 31 0
    let key := bits a 63 54
    let b := s.bind0 0 key
    match s.crcRun { site := 0, key := key, mkid := if b.getLsbD 63 then bits b 9 0 else 0, priv := key == 0 } (bits a 55 0) len c with
    | .wait l => .inr l
    | .value x f => match crcAll s k x (i + 1) n with
      | .inl (xs, g) => .inl (x :: xs, f || g)
      | .inr l => .inr l

/-- The first range whose CRC differs. -/
def firstDiff : Nat → List Word → List Word → Nat
  | i, x :: xs, y :: ys => if x = y then firstDiff (i + 1) xs ys else i
  | i, _, _ => i
/-- The end of an instance: logged, or compared with the recording (R385). -/
def instEnd (s : State) (k : Nat) : Option State :=
  let r := s.pkg.replay
  if (r.insts.contains k && !s.instLives k) = false then none
  else
    match s.crcAll (SMap.get 0 r.kernels k) 0#64 0 3 with
    | .inr l => (match s.homeTry [l] with | .started t => some t | .ready t => some (t.rangeServed homeAgent [l]) | .busy => none)
    | .inl (cs, f) =>
      let s := s.modReplay fun r => { r with insts := r.insts.filter (· != k) }
      if r.replaying = false then some (s.modReplay fun r => { r with crcs := r.crcs ++ [(k, cs ++ [if f then 1#64 else 0#64])] })
      else
        let span := s.reg 0 0x400428
        let old := ((r.crcs.find? fun c => c.1 == k).map (·.2)).getD []
        let s := s.judge
        if bits span 31 0 ≤ k ∧ k ≤ bits span 63 32 ∧ old.getD 2 0#64 ≠ cs.getD 2 0#64 ∧ bits (s.reg 0 0x400400) 55 52 ≠ 3 then
          let s := (s.setStatus 3).setReg 0 0x400430 (putBits (s.reg 0 0x400430) 31 0 k)
          let s := (s.setReg 0 0x400438 (old.getD 2 0#64)).setReg 0 0x400440 (cs.getD 2 0#64)
          some ((s.setReg 0 0x400448 (BitVec.ofNat 64 (firstDiff 0 old cs))).requestStop 0 5 0 2 0)
        else some s

end State

/-! ## The steps -/

/-- STOP_GO (R380). -/
def execStopGo (die : Nat) (value : Word) (s : State) : Host.Outcome State Fault Refusal := s.event (.ok (s.stopGo die value))
/-- STOP_RESUME (R380). -/
def execStopResume (die : Nat) (s : State) : Host.Outcome State Fault Refusal := s.event (.ok (s.stopResume die))
/-- STOP_LANDED (R378). -/
def execStopLanded (die : Nat) (s : State) : Host.Outcome State Fault Refusal := s.stepIf "STOP_LANDED" (s.stopLand die)
/-- STOPLIM_EXPIRY (R378). -/
def execStoplimExpiry (die : Nat) (s : State) : Host.Outcome State Fault Refusal := s.stepIf "STOPLIM_EXPIRY" (s.stopForce die)
/-- CHECKPOINT (R383). -/
def execCheckpoint (s : State) : Host.Outcome State Fault Refusal := s.event (.ok s.checkpoint)
/-- ENDREC (R383). -/
def execEndrec (s : State) : Host.Outcome State Fault Refusal := s.event (.ok s.endRec)
/-- REPLAY (R385). -/
def execReplay (s : State) : Host.Outcome State Fault Refusal := s.event (.ok s.replay)
/-- ABORT (R385). -/
def execAbort (s : State) : Host.Outcome State Fault Refusal := s.event (.ok s.abortReplay)
/-- KERNEL_INSTANCE_END (R384). -/
def execKernelInstanceEnd (index : Nat) (s : State) : Host.Outcome State Fault Refusal := s.stepIf "KERNEL_INSTANCE_END" (s.instEnd index)

end Sys2Proof.Machine
end

