-- ==== Sys2Proof/Machine/Firmware.lean ====
section
/-! DEFINITION. What the system cores and the host's register writes do: publication, memory keys, attestation, telemetry, and the resets
(08_core_fetch R162; 25_system R388 to R392, R398, R400; R4). -/
namespace Sys2Proof.Machine
open Sys2Proof
namespace State

/-! ## The publish register (R162) -/

/-- Close for every fetcher the written lines of a range that have a medium. -/
def closeRange (s : State) (line count mkid : Nat) : State :=
  let first := lineOf (gloc mkid (line * 128))
  let hit := fun (l : Nat) => decide (first ≤ l) && decide (l < first + count) && s.medium (crateOf (l * 128)) != .absent
  s.modPkg fun p => { p with code := p.code.map fun e => if hit e.1 then (e.1, e.2.map fun cs => { scope := 6, site := 0 } :: cs) else e }
/-- A write of GO sets BUSY and starts the publication; while BUSY it is ignored. -/
def publishGo (s : State) (d : Nat) : State :=
  if (s.dieAt d).publishing.isSome then s
  else
    let line := bits (s.reg d 0x7000) 51 7
    let n := min (bits (s.reg d 0x7008) 24 0) (2 ^ 24)
    let mkid := bits (s.reg d 0x7008) 41 32
    s.modDie d fun x => { x with publishing := some (line, n, mkid), pubWrites := s.pkg.hostReqs.filter (·.write) }
/-- The publication takes its place, after every host write that was accepted before it (R162), closes its lines, and BUSY clears. -/
def publishEnd (s : State) (d : Nat) : Option State :=
  match (s.dieAt d).publishing with
  | none => none
  | some (line, n, mkid) =>
    if (s.dieAt d).pubWrites.any fun r => s.pkg.hostReqs.contains r then none
    else some ((s.closeRange line n mkid).modDie d fun x => { x with publishing := none, pubWrites := [] })

/-! ## Memory keys (R398) -/

/-- The staging registers are cleared, and BUSY. -/
def clearStaged (s : State) (d : Nat) : State := (upto 0 8).foldl (fun (s : State) i => s.setReg d (0x8000 + 8 * i) 0#64) (s.modDie d fun x => { x with loading := none })
/-- Lines of global memory that hold something: written ones and those with a listed byte. -/
def usedLines (s : State) : List Nat :=
  ((SMap.keys s.pkg.code) ++ ((SMap.keys s.mem).filter isGlobal).map lineOf).eraseDups
/-- A load of the keys staged at the write of GO. Under a key other than the one a line was written with, its bytes are not those written. -/
def keyLoad (s : State) (d mkid : Nat) : State :=
  let st := SMap.get KeySt.none (s.dieAt d).keys mkid
  if mkid = 0 ∨ st = .loaded then (s.faultRecord d 7 0 0 0#64 0#64 0).clearStaged d
  else
    let v := ((s.dieAt d).loading.map (·.2)).getD (s.staged d)
    let same := SMap.get 0 (s.dieAt d).keyVals mkid == v && st == .retired
    let s := s.modDie d fun x => { x with keys := SMap.set KeySt.none x.keys mkid .loaded, keyVals := SMap.set 0 x.keyVals mkid v }
    let s := if same then s else s.loseLines (s.usedLines.filter fun l => mkidOf (l * 128) == mkid && crateOf (l * 128) % 4 == d)
    s.clearStaged d

/-! ## Attestation and telemetry (R391, R400) -/

/-- The nonce at a location, as a write of ATGO takes it: of an uncorrectable line no data comes, and its bytes are free (R397; log entry 102). -/
def nonceAt (s : State) (loc : Nat) : List Byte :=
  if SMap.get false s.pkg.bad (lineOf loc) then (upto 0 32).map fun i => Config.freeByte 0 (s.free + i) else s.rdN loc 32
/-- The report: nonce, digests, identity key, signature. -/
def report (d : Nat) (nonce : List Byte) : List Byte :=
  let hash := fun (i : Nat) => natToBytes 64 (Config.digest d i).toNat
  let body := nonce ++ hash 0 ++ hash 1 ++ ((upto 0 4).map fun i => natToBytes 8 (Config.idPub d i).toNat).flatten
  body ++ natToBytes 64 (Config.signature d body).toNat
/-- The report to a location as ordinary writes at the lines' homes, when they can be written (R391, R183, R190). -/
def attestTry (s : State) (d : Nat) (a : Nat × List Byte) : Option State :=
  match s.homeTry (linesOf [(a.1, 256)]) with
  | .busy => none
  | .started t => some (t.modDie d fun x => { x with attesting := some a })
  | .ready t => some ((t.homeWrite [(a.1, 256)] (report d a.2)).modDie d fun x => { x with attesting := none })
/-- A write of ATGO takes the nonce, and the report follows; or the report that it has asked for. -/
def attest (s : State) (d : Nat) : State :=
  let at' := gloc 0 (bits (s.reg d 0x120) 51 8 * 256)
  let (a, s) := match (s.dieAt d).attesting with
    | some a => (a, s)
    | none => ((at', s.nonceAt at'), if SMap.get false s.pkg.bad (lineOf at') then s.countErr (crateOf at' % 4) 32 else s)
  (s.attestTry d a).getD (s.modDie d fun x => { x with attesting := some a })

/-- The record of the next multiple of 100,000 ticks, once it has come; power, current and temperature are the environment's: free values (log entry 7).
It waits while its line is reserved (log entry 54). While EN is clear no tick is due; one that was due before is written still. -/
def telemetry (s : State) (d : Nat) : Option State :=
  let r := s.reg d 0x4000
  let q := (s.reg d 0x4008).toNat
  let x := s.dieAt d
  let loc := gloc 0 (bits r 51 12 * 4096 + 64 * (q % 2 ^ (max 6 (min 16 (bits r 4 0)))))
  let due := x.telOwed.headD ((x.lastTel / 100000 + 1) * 100000)
  if (!x.telOwed.isEmpty || r.getLsbD 63 && decide (due ≤ s.tick d)) && !s.lineBusy 0 (lineOf loc) then
    let throttle := x.throttle + (if s.alarm d then s.tick d - x.alarmAt else 0)
    let ws : List Word := [BitVec.ofNat 64 due, BitVec.ofNat 64 (q % 2 ^ 32 * 2 ^ 32 + d), s.freeBits 64 52000,
      BitVec.ofNat 64 ((s.freeBits 16 52001).toNat * 2 ^ 48 + x.alarms % 2 ^ 32), BitVec.ofNat 64 x.halfGroups, s.reg d 0x3010, BitVec.ofNat 64 throttle, 0#64]
    let s := s.store loc ((ws.map fun w => natToBytes 8 w.toNat).flatten)
    some ((s.bumpReg d 0x4008).modDie d fun x => if x.telOwed.isEmpty then { x with lastTel := due } else { x with telOwed := x.telOwed.tail })
  else none

/-! ## Resets (R388, R392) -/

/-- The boot ROMs have run: BOOTST of each die, free anew at each boot, and READY when all four have passed. -/
def boot (s : State) : State :=
  let st := fun (d : Nat) => Config.bootStatus d s.free % 5
  let ok := (upto 0 4).all fun d => st d == 0
  (upto 0 4).foldl (fun (s : State) d => s.setReg d 0x0A8 (BitVec.ofNat 64 (st d + if ok then 2 ^ 63 else 0))) s

/-- Writes of a command's rows: some of the lines that it holds are written whole, the others keep their values (R392). -/
def writeSome (s : State) (held : Nat → Bool) : List (Area × List (Nat × Nat) × Nat) → State
  | [] => s
  | (a, runs, v) :: ws =>
    let hit := fun (l : Nat) => held l && s.choose (53000 + l) 2 == 1
    writeSome (parts s hit runs (s.areaBytes a runs v)) held ws
where
  /-- The parts of runs that lie in chosen lines. -/
  parts (s : State) (hit : Nat → Bool) : List (Nat × Nat) → List Byte → State
    | [], _ => s
    | (loc, n) :: rs, bs => parts (if hit (lineOf loc) then s.wrRuns [(loc, n)] (bs.take n) else s) hit rs (bs.drop n)
/-- What a matrix command that is in progress writes: the rows of a direct one, the segments of a drain whose handlers are done. -/
def cmdWrites (s : State) (m : MCmd) : List (Area × List (Nat × Nat) × Nat) :=
  match m.op with
  | .mma _ _ => []
  | .macc _ true =>
    (m.slots.filter fun t => t.st == 1).flatMap fun t =>
      let (i, col, n) := segAt m t.seg
      let dst := Tensor.elems (m.ten 0) (m.arg 2 + i) (m.arg 3 + col) n
      match (s.engNow m.who m.id { addr := slotAddr m t.slot, bit := 0, len := 32 * n }).bind fun v s => (s.engRuns m.who .write dst.addr dst.bytes).bind fun rs s => .ok (v, rs) s with
      | .ok x _ => [(dst, x.2, drainVals m ((unpackBits 32 x.1 n).map (BitVec.ofNat 32)))]
      | _ => []
  | _ => if turn (s.dieCmds (dieOf m.site)) m then (s.cmdRows m 0 m.rowsM).1.flatten else []
/-- The commands in progress have written any of their destination lines when the reset halts them (R392). -/
def halfWritten (s : State) : State :=
  let t := s.pkg.xfers.foldl (fun (t : State) c => t.writeSome (t.granted c.id) (s.rowsData c 0 c.n).1.flatten) s
  (((SMap.vals s.clus).map fun (c : Cluster) => c.cmds).flatten).foldl (fun (t : State) m => t.writeSome (t.granted m.id) (s.cmdWrites m)) t
/-- What of a die survives a warm reset in its tick `now`; telemetry starts anew (R400). -/
def keepDie (now : Nat) (x : Die) : Die :=
  { phase := x.phase, regs := SMap.keep (fun o _ => decide (0x400000 ≤ o)) x.regs, lastTel := now, evalAt := x.evalAt, power := x.power,
    tracedAt := x.tracedAt, traced := x.traced }
/-- A warm reset: HBM, the crate table with the moves of its crates, the debug block and what it has recorded survive; TICK keeps counting. -/
def warmReset (s : State) : State :=
  let t := s.halfWritten
  let t := t.loseLines (t.usedLines.filter fun l => mkidOf (l * 128) != 0)
  let p := t.pkg
  let t : State := {
    dies := [0, 1, 2, 3].foldl (fun m d => SMap.set {} m d (keepDie (t.tick d) (t.dieAt d))) []
    mem := SMap.keep (fun a _ => isGlobal a) t.mem
    cycle := t.cycle
    free := t.free
    plan := t.plan
    pkg := {
      num := p.num
      crates := SMap.mapVals {} (fun (c : Crate) => { c with flips := [] }) p.crates
      bad := SMap.keep (fun l _ => isGlobal (l * 128) && mkidOf (l * 128) == 0) p.bad
      stops := p.stops
      replay := { p.replay with recording := false, armed := false, replaying := false, insts := [] }
      releasing := p.releasing
      gvtAt := p.gvtAt
      nextId := p.nextId } }
  (t.setBusy 0).boot

/-- A cold reset; the model's own fields go on. How far each die's tick counter runs before the others is free (R19). -/
def coldReset (s : State) : State :=
  ((upto 0 4).foldl (fun (t : State) d => t.modDie d fun x => { x with phase := s.choose (56000 + d) 45 }) { State.reset with free := s.free, plan := s.plan }).boot

end State

/-! ## The steps -/

/-- PUBLISH_GO (R162). -/
def execPublishGo (die : Nat) (s : State) : Host.Outcome State Fault Refusal := s.event (.ok (s.publishGo (die % 4)))
/-- PUBLISH_COMPLETE (R162). -/
def execPublishComplete (die : Nat) (s : State) : Host.Outcome State Fault Refusal := s.stepIf "PUBLISH_COMPLETE" (s.publishEnd (die % 4))
/-- KEY_LOAD (R398): a write of GO with an MKID. -/
def execKeyLoad (die : Nat) (value : Word) (s : State) : Host.Outcome State Fault Refusal := s.event (.ok (s.keyLoad (die % 4) (bits value 9 0)))
/-- ATTESTATION (R391). -/
def execAttestation (die : Nat) (s : State) : Host.Outcome State Fault Refusal := s.event (.ok (s.attest (die % 4)))
/-- WARM_RESET (R392). -/
def execWarmReset (s : State) : Host.Outcome State Fault Refusal := s.event (.ok s.warmReset)
/-- COLD_RESET (R388). -/
def execColdReset (s : State) : Host.Outcome State Fault Refusal := s.event (.ok s.coldReset)
/-- TELEMETRY_RECORD (R400). -/
def execTelemetryRecord (die : Nat) (s : State) : Host.Outcome State Fault Refusal := s.stepIf "TELEMETRY_RECORD" (s.telemetry (die % 4))
/-- REGISTER_WRITE (R4): the host's write through BAR 2, or firmware's. -/
def execRegisterWrite (die off : Nat) (value : Word) (s : State) : Host.Outcome State Fault Refusal :=
  s.event (.ok (s.ctlWrite (die % 4) (off % 2 ^ 24 / 8 * 8) value (BitVec.allOnes 64)))

end Sys2Proof.Machine
end

