-- ==== Sys2Proof/Machine/Scalar.lean ====
section
/-! DEFINITION. Scalar arithmetic: ALU, ALUW, MUL, DIV, BIT, CMOV, the immediates, shifts by immediate and constants (06_core_scalar, R103 to R113). -/
namespace Sys2Proof.Machine
open Sys2Proof

/-- A MOD prefix adds a cycle of latency (R91). -/
def modLat (p : Pre) : Nat := if p.mod.isSome then 1 else 0

namespace State
/-- A two-source register function: g[rd] ← f(a, b), with latency `lat` (R103). -/
def fn2 (s : State) (p : Pre) (stl : BitVec 3) (d a b : BitVec 5) (lat : Nat) (f : Word → Word → Word) : Host.Outcome State Fault Refusal :=
  s.unit (1 + p.words) stl [(.g, a.toNat), (.g, b.toNat)] fun s => .ok (s.putG d (f (s.rg 0 a) (s.rg 1 b)) (lat + modLat p))
/-- A one-source register function. -/
def fn1 (s : State) (stl : BitVec 3) (d a : BitVec 5) (lat : Nat) (f : Word → Word) : Host.Outcome State Fault Refusal :=
  s.unit 1 stl [(.g, a.toNat)] fun s => .ok (s.putG d (f (s.rg 0 a)) lat)
/-- ALU at 64 bits (R105). -/
def alu (s : State) (fn : AluFn) (p : Pre) (stl : BitVec 3) (d a b : BitVec 5) : Host.Outcome State Fault Refusal :=
  s.fn2 p stl d a b 1 fun x y => aluRes fn p.mod x y
/-- ALUW: at 32 bits, sign-extended (R105). -/
def aluw (s : State) (fn : AluFn) (p : Pre) (stl : BitVec 3) (d a b : BitVec 5) : Host.Outcome State Fault Refusal :=
  s.fn2 p stl d a b 1 fun x y => sext64 (aluRes fn p.mod (low32 x) (low32 y))
/-- MUL (R106). -/
def mul (s : State) (fn : MulFn) (p : Pre) (stl : BitVec 3) (d a b : BitVec 5) : Host.Outcome State Fault Refusal :=
  s.fn2 p stl d a b 3 fun x y => mulRes fn p.mod x y
/-- DIV at 64 bits, and at 32 bits with sign extension (R107); the scoreboard tracks the result. -/
def div64 (s : State) (signed quot : Bool) (stl : BitVec 3) (d a b : BitVec 5) : Host.Outcome State Fault Refusal :=
  s.fn2 Pre.none stl d a b 0 fun x y => if quot then (divRes signed x y).1 else (divRes signed x y).2
def div32 (s : State) (signed quot : Bool) (stl : BitVec 3) (d a b : BitVec 5) : Host.Outcome State Fault Refusal :=
  s.fn2 Pre.none stl d a b 0 fun x y => sext64 (if quot then (divRes signed (low32 x) (low32 y)).1 else (divRes signed (low32 x) (low32 y)).2)
/-- CMOV: g[rd] ← a, or the R38 result, when the condition holds on b (R109); g[rd] has its latency either way (R91; log entry 78). -/
def cmov (s : State) (cond : Word → Bool) (p : Pre) (stl : BitVec 3) (d a b : BitVec 5) : Host.Outcome State Fault Refusal :=
  s.unit (1 + p.words) stl [(.g, a.toNat), (.g, b.toNat)] fun s =>
    .ok (s.putG d (if cond (s.rg 1 b) then (match p.mod with
        | none => s.rg 0 a
        | some m => modInt true 64 (some m) (modSrcInt m.absa m.nega (s.rg 0 a).toInt)) else s.g d) (1 + modLat p))
/-- SHI: the shift of ALU by an immediate, at 64 bits or on the low word (R111). -/
def shi (s : State) (fn : AluFn) (stl : BitVec 3) (d a : BitVec 5) (w : BitVec 1) (h : BitVec 6) : Host.Outcome State Fault Refusal :=
  s.fn1 stl d a 1 fun x =>
    if w = 1#1 then sext64 (aluVal fn (low32 x) (BitVec.ofNat 32 h.toNat)) else aluVal fn x (BitVec.ofNat 64 h.toNat)
end State

/-- ALU.ADD (R105). -/
def execAluAdd (p : Pre) (stl : BitVec 3) (d a b : BitVec 5) (s : State) : Host.Outcome State Fault Refusal := s.alu .add p stl d a b
/-- ALU.SUB (R105). -/
def execAluSub (p : Pre) (stl : BitVec 3) (d a b : BitVec 5) (s : State) : Host.Outcome State Fault Refusal := s.alu .sub p stl d a b
/-- ALU.AND (R105). -/
def execAluAnd (stl : BitVec 3) (d a b : BitVec 5) (s : State) : Host.Outcome State Fault Refusal := s.alu .and Pre.none stl d a b
/-- ALU.OR (R105). -/
def execAluOr (stl : BitVec 3) (d a b : BitVec 5) (s : State) : Host.Outcome State Fault Refusal := s.alu .or Pre.none stl d a b
/-- ALU.XOR (R105). -/
def execAluXor (stl : BitVec 3) (d a b : BitVec 5) (s : State) : Host.Outcome State Fault Refusal := s.alu .xor Pre.none stl d a b
/-- ALU.ANDN (R105). -/
def execAluAndn (stl : BitVec 3) (d a b : BitVec 5) (s : State) : Host.Outcome State Fault Refusal := s.alu .andn Pre.none stl d a b
/-- ALU.ORN (R105). -/
def execAluOrn (stl : BitVec 3) (d a b : BitVec 5) (s : State) : Host.Outcome State Fault Refusal := s.alu .orn Pre.none stl d a b
/-- ALU.XNOR (R105). -/
def execAluXnor (stl : BitVec 3) (d a b : BitVec 5) (s : State) : Host.Outcome State Fault Refusal := s.alu .xnor Pre.none stl d a b
/-- ALU.SHL (R105). -/
def execAluShl (stl : BitVec 3) (d a b : BitVec 5) (s : State) : Host.Outcome State Fault Refusal := s.alu .shl Pre.none stl d a b
/-- ALU.SHR (R105). -/
def execAluShr (stl : BitVec 3) (d a b : BitVec 5) (s : State) : Host.Outcome State Fault Refusal := s.alu .shr Pre.none stl d a b
/-- ALU.SAR (R105). -/
def execAluSar (stl : BitVec 3) (d a b : BitVec 5) (s : State) : Host.Outcome State Fault Refusal := s.alu .sar Pre.none stl d a b
/-- ALU.ROL (R105). -/
def execAluRol (stl : BitVec 3) (d a b : BitVec 5) (s : State) : Host.Outcome State Fault Refusal := s.alu .rol Pre.none stl d a b
/-- ALU.ROR (R105). -/
def execAluRor (stl : BitVec 3) (d a b : BitVec 5) (s : State) : Host.Outcome State Fault Refusal := s.alu .ror Pre.none stl d a b
/-- ALU.SLT (R105). -/
def execAluSlt (stl : BitVec 3) (d a b : BitVec 5) (s : State) : Host.Outcome State Fault Refusal := s.alu .slt Pre.none stl d a b
/-- ALU.SLTN (R105). -/
def execAluSltn (stl : BitVec 3) (d a b : BitVec 5) (s : State) : Host.Outcome State Fault Refusal := s.alu .sltn Pre.none stl d a b
/-- ALU.MIN (R105). -/
def execAluMin (stl : BitVec 3) (d a b : BitVec 5) (s : State) : Host.Outcome State Fault Refusal := s.alu .min Pre.none stl d a b
/-- ALU.MAX (R105). -/
def execAluMax (stl : BitVec 3) (d a b : BitVec 5) (s : State) : Host.Outcome State Fault Refusal := s.alu .max Pre.none stl d a b
/-- ALU.MINN (R105). -/
def execAluMinn (stl : BitVec 3) (d a b : BitVec 5) (s : State) : Host.Outcome State Fault Refusal := s.alu .minn Pre.none stl d a b
/-- ALU.MAXN (R105). -/
def execAluMaxn (stl : BitVec 3) (d a b : BitVec 5) (s : State) : Host.Outcome State Fault Refusal := s.alu .maxn Pre.none stl d a b
/-- ALU.ABSD (R105). -/
def execAluAbsd (p : Pre) (stl : BitVec 3) (d a b : BitVec 5) (s : State) : Host.Outcome State Fault Refusal := s.alu .absd p stl d a b
/-- ALUW.ADD (R105). -/
def execAluwAdd (p : Pre) (stl : BitVec 3) (d a b : BitVec 5) (s : State) : Host.Outcome State Fault Refusal := s.aluw .add p stl d a b
/-- ALUW.SUB (R105). -/
def execAluwSub (p : Pre) (stl : BitVec 3) (d a b : BitVec 5) (s : State) : Host.Outcome State Fault Refusal := s.aluw .sub p stl d a b
/-- ALUW.AND (R105). -/
def execAluwAnd (stl : BitVec 3) (d a b : BitVec 5) (s : State) : Host.Outcome State Fault Refusal := s.aluw .and Pre.none stl d a b
/-- ALUW.OR (R105). -/
def execAluwOr (stl : BitVec 3) (d a b : BitVec 5) (s : State) : Host.Outcome State Fault Refusal := s.aluw .or Pre.none stl d a b
/-- ALUW.XOR (R105). -/
def execAluwXor (stl : BitVec 3) (d a b : BitVec 5) (s : State) : Host.Outcome State Fault Refusal := s.aluw .xor Pre.none stl d a b
/-- ALUW.ANDN (R105). -/
def execAluwAndn (stl : BitVec 3) (d a b : BitVec 5) (s : State) : Host.Outcome State Fault Refusal := s.aluw .andn Pre.none stl d a b
/-- ALUW.ORN (R105). -/
def execAluwOrn (stl : BitVec 3) (d a b : BitVec 5) (s : State) : Host.Outcome State Fault Refusal := s.aluw .orn Pre.none stl d a b
/-- ALUW.XNOR (R105). -/
def execAluwXnor (stl : BitVec 3) (d a b : BitVec 5) (s : State) : Host.Outcome State Fault Refusal := s.aluw .xnor Pre.none stl d a b
/-- ALUW.SHL (R105). -/
def execAluwShl (stl : BitVec 3) (d a b : BitVec 5) (s : State) : Host.Outcome State Fault Refusal := s.aluw .shl Pre.none stl d a b
/-- ALUW.SHR (R105). -/
def execAluwShr (stl : BitVec 3) (d a b : BitVec 5) (s : State) : Host.Outcome State Fault Refusal := s.aluw .shr Pre.none stl d a b
/-- ALUW.SAR (R105). -/
def execAluwSar (stl : BitVec 3) (d a b : BitVec 5) (s : State) : Host.Outcome State Fault Refusal := s.aluw .sar Pre.none stl d a b
/-- ALUW.ROL (R105). -/
def execAluwRol (stl : BitVec 3) (d a b : BitVec 5) (s : State) : Host.Outcome State Fault Refusal := s.aluw .rol Pre.none stl d a b
/-- ALUW.ROR (R105). -/
def execAluwRor (stl : BitVec 3) (d a b : BitVec 5) (s : State) : Host.Outcome State Fault Refusal := s.aluw .ror Pre.none stl d a b
/-- ALUW.SLT (R105). -/
def execAluwSlt (stl : BitVec 3) (d a b : BitVec 5) (s : State) : Host.Outcome State Fault Refusal := s.aluw .slt Pre.none stl d a b
/-- ALUW.SLTN (R105). -/
def execAluwSltn (stl : BitVec 3) (d a b : BitVec 5) (s : State) : Host.Outcome State Fault Refusal := s.aluw .sltn Pre.none stl d a b
/-- ALUW.MIN (R105). -/
def execAluwMin (stl : BitVec 3) (d a b : BitVec 5) (s : State) : Host.Outcome State Fault Refusal := s.aluw .min Pre.none stl d a b
/-- ALUW.MAX (R105). -/
def execAluwMax (stl : BitVec 3) (d a b : BitVec 5) (s : State) : Host.Outcome State Fault Refusal := s.aluw .max Pre.none stl d a b
/-- ALUW.MINN (R105). -/
def execAluwMinn (stl : BitVec 3) (d a b : BitVec 5) (s : State) : Host.Outcome State Fault Refusal := s.aluw .minn Pre.none stl d a b
/-- ALUW.MAXN (R105). -/
def execAluwMaxn (stl : BitVec 3) (d a b : BitVec 5) (s : State) : Host.Outcome State Fault Refusal := s.aluw .maxn Pre.none stl d a b
/-- ALUW.ABSD (R105). -/
def execAluwAbsd (p : Pre) (stl : BitVec 3) (d a b : BitVec 5) (s : State) : Host.Outcome State Fault Refusal := s.aluw .absd p stl d a b
/-- MUL.LO (R106). -/
def execMulLo (p : Pre) (stl : BitVec 3) (d a b : BitVec 5) (s : State) : Host.Outcome State Fault Refusal := s.mul .lo p stl d a b
/-- MUL.HI (R106). -/
def execMulHi (stl : BitVec 3) (d a b : BitVec 5) (s : State) : Host.Outcome State Fault Refusal := s.mul .hi Pre.none stl d a b
/-- MUL.HIN (R106). -/
def execMulHin (stl : BitVec 3) (d a b : BitVec 5) (s : State) : Host.Outcome State Fault Refusal := s.mul .hin Pre.none stl d a b
/-- MUL.HISN (R106). -/
def execMulHisn (stl : BitVec 3) (d a b : BitVec 5) (s : State) : Host.Outcome State Fault Refusal := s.mul .hisn Pre.none stl d a b
/-- MUL.W (R106). -/
def execMulW (p : Pre) (stl : BitVec 3) (d a b : BitVec 5) (s : State) : Host.Outcome State Fault Refusal := s.mul .w p stl d a b
/-- MUL.WN (R106). -/
def execMulWn (stl : BitVec 3) (d a b : BitVec 5) (s : State) : Host.Outcome State Fault Refusal := s.mul .wn Pre.none stl d a b
/-- DIV.Q (R107). -/
def execDivQ (stl : BitVec 3) (d a b : BitVec 5) (s : State) : Host.Outcome State Fault Refusal := s.div64 true true stl d a b
/-- DIV.QN (R107). -/
def execDivQn (stl : BitVec 3) (d a b : BitVec 5) (s : State) : Host.Outcome State Fault Refusal := s.div64 false true stl d a b
/-- DIV.REM (R107). -/
def execDivRem (stl : BitVec 3) (d a b : BitVec 5) (s : State) : Host.Outcome State Fault Refusal := s.div64 true false stl d a b
/-- DIV.REMN (R107). -/
def execDivRemn (stl : BitVec 3) (d a b : BitVec 5) (s : State) : Host.Outcome State Fault Refusal := s.div64 false false stl d a b
/-- DIV.QW (R107). -/
def execDivQw (stl : BitVec 3) (d a b : BitVec 5) (s : State) : Host.Outcome State Fault Refusal := s.div32 true true stl d a b
/-- DIV.QNW (R107). -/
def execDivQnw (stl : BitVec 3) (d a b : BitVec 5) (s : State) : Host.Outcome State Fault Refusal := s.div32 false true stl d a b
/-- DIV.REMW (R107). -/
def execDivRemw (stl : BitVec 3) (d a b : BitVec 5) (s : State) : Host.Outcome State Fault Refusal := s.div32 true false stl d a b
/-- DIV.REMNW (R107). -/
def execDivRemnw (stl : BitVec 3) (d a b : BitVec 5) (s : State) : Host.Outcome State Fault Refusal := s.div32 false false stl d a b
/-- BIT.CLZ (R108). -/
def execBitClz (stl : BitVec 3) (d a : BitVec 5) (s : State) : Host.Outcome State Fault Refusal := s.fn1 stl d a 1 fun x => BitVec.ofNat 64 (clz x)
/-- BIT.CTZ (R108). -/
def execBitCtz (stl : BitVec 3) (d a : BitVec 5) (s : State) : Host.Outcome State Fault Refusal := s.fn1 stl d a 1 fun x => BitVec.ofNat 64 (ctz x)
/-- BIT.POPC (R108). -/
def execBitPopc (stl : BitVec 3) (d a : BitVec 5) (s : State) : Host.Outcome State Fault Refusal := s.fn1 stl d a 1 fun x => BitVec.ofNat 64 (popc x)
/-- BIT.BREV (R108). -/
def execBitBrev (stl : BitVec 3) (d a : BitVec 5) (s : State) : Host.Outcome State Fault Refusal := s.fn1 stl d a 1 fun x => x.reverse
/-- BIT.BSWAP (R108). -/
def execBitBswap (stl : BitVec 3) (d a : BitVec 5) (s : State) : Host.Outcome State Fault Refusal := s.fn1 stl d a 1 fun x => bswap x
/-- BIT.SEXT8 (R108). -/
def execBitSext8 (stl : BitVec 3) (d a : BitVec 5) (s : State) : Host.Outcome State Fault Refusal := s.fn1 stl d a 1 fun x => (x.setWidth 8).signExtend 64
/-- BIT.SEXT16 (R108). -/
def execBitSext16 (stl : BitVec 3) (d a : BitVec 5) (s : State) : Host.Outcome State Fault Refusal := s.fn1 stl d a 1 fun x => (x.setWidth 16).signExtend 64
/-- BIT.SEXT32 (R108). -/
def execBitSext32 (stl : BitVec 3) (d a : BitVec 5) (s : State) : Host.Outcome State Fault Refusal := s.fn1 stl d a 1 fun x => (x.setWidth 32).signExtend 64
/-- BIT.ZEXT8 (R108). -/
def execBitZext8 (stl : BitVec 3) (d a : BitVec 5) (s : State) : Host.Outcome State Fault Refusal := s.fn1 stl d a 1 fun x => (x.setWidth 8).setWidth 64
/-- BIT.ZEXT16 (R108). -/
def execBitZext16 (stl : BitVec 3) (d a : BitVec 5) (s : State) : Host.Outcome State Fault Refusal := s.fn1 stl d a 1 fun x => (x.setWidth 16).setWidth 64
/-- BIT.ZEXT32 (R108). -/
def execBitZext32 (stl : BitVec 3) (d a : BitVec 5) (s : State) : Host.Outcome State Fault Refusal := s.fn1 stl d a 1 fun x => (x.setWidth 32).setWidth 64
/-- BIT.EXTR and BIT.EXTRN (R108). -/
def execBitExtr (stl : BitVec 3) (d a b : BitVec 5) (s : State) : Host.Outcome State Fault Refusal := s.fn2 Pre.none stl d a b 1 fun x y => extrRes true x y
def execBitExtrn (stl : BitVec 3) (d a b : BitVec 5) (s : State) : Host.Outcome State Fault Refusal := s.fn2 Pre.none stl d a b 1 fun x y => extrRes false x y
/-- BIT.DEP reads g[rd] too (R108). -/
def execBitDep (stl : BitVec 3) (d a b : BitVec 5) (s : State) : Host.Outcome State Fault Refusal :=
  s.unit 1 stl [(.g, a.toNat), (.g, b.toNat), (.g, d.toNat)] fun s => .ok (s.putG d (depRes (s.rg 2 d) (s.rg 0 a) (s.rg 1 b)) 1)
/-- CMOV.NZ (R109). -/
def execCmovNz (p : Pre) (stl : BitVec 3) (d a b : BitVec 5) (s : State) : Host.Outcome State Fault Refusal := s.cmov (fun x => x != 0#64) p stl d a b
/-- CMOV.Z (R109). -/
def execCmovZ (p : Pre) (stl : BitVec 3) (d a b : BitVec 5) (s : State) : Host.Outcome State Fault Refusal := s.cmov (fun x => x == 0#64) p stl d a b
/-- CMOV.LT (R109). -/
def execCmovLt (p : Pre) (stl : BitVec 3) (d a b : BitVec 5) (s : State) : Host.Outcome State Fault Refusal := s.cmov (fun x => x.slt 0#64) p stl d a b
/-- CMOV.GE (R109). -/
def execCmovGe (p : Pre) (stl : BitVec 3) (d a b : BitVec 5) (s : State) : Host.Outcome State Fault Refusal := s.cmov (fun x => !x.slt 0#64) p stl d a b
/-- ADDI (R110). -/
def execAddi (stl : BitVec 3) (d a : BitVec 5) (i : BitVec 12) (s : State) : Host.Outcome State Fault Refusal := s.fn1 stl d a 1 fun x => x + sext64 i
/-- ANDI (R110). -/
def execAndi (stl : BitVec 3) (d a : BitVec 5) (i : BitVec 12) (s : State) : Host.Outcome State Fault Refusal := s.fn1 stl d a 1 fun x => x &&& sext64 i
/-- ORI (R110). -/
def execOri (stl : BitVec 3) (d a : BitVec 5) (i : BitVec 12) (s : State) : Host.Outcome State Fault Refusal := s.fn1 stl d a 1 fun x => x ||| zext64 i
/-- XORI (R110). -/
def execXori (stl : BitVec 3) (d a : BitVec 5) (i : BitVec 12) (s : State) : Host.Outcome State Fault Refusal := s.fn1 stl d a 1 fun x => x ^^^ zext64 i
/-- SLTI (R110). -/
def execSlti (stl : BitVec 3) (d a : BitVec 5) (i : BitVec 12) (s : State) : Host.Outcome State Fault Refusal := s.fn1 stl d a 1 fun x => if x.slt (sext64 i) then 1#64 else 0#64
/-- SLTIN (R110). -/
def execSltin (stl : BitVec 3) (d a : BitVec 5) (i : BitVec 12) (s : State) : Host.Outcome State Fault Refusal := s.fn1 stl d a 1 fun x => if x.ult (zext64 i) then 1#64 else 0#64
/-- SHI.SHL (R111). -/
def execShiShl (stl : BitVec 3) (d a : BitVec 5) (w : BitVec 1) (h : BitVec 6) (s : State) : Host.Outcome State Fault Refusal := s.shi .shl stl d a w h
/-- SHI.SHR (R111). -/
def execShiShr (stl : BitVec 3) (d a : BitVec 5) (w : BitVec 1) (h : BitVec 6) (s : State) : Host.Outcome State Fault Refusal := s.shi .shr stl d a w h
/-- SHI.SAR (R111). -/
def execShiSar (stl : BitVec 3) (d a : BitVec 5) (w : BitVec 1) (h : BitVec 6) (s : State) : Host.Outcome State Fault Refusal := s.shi .sar stl d a w h
/-- SHI.ROR (R111). -/
def execShiRor (stl : BitVec 3) (d a : BitVec 5) (w : BitVec 1) (h : BitVec 6) (s : State) : Host.Outcome State Fault Refusal := s.shi .ror stl d a w h
/-- LIL: the literal, sign-extended (R112). -/
def execLil (stl : BitVec 3) (d : BitVec 5) (lit : BitVec 32) (s : State) : Host.Outcome State Fault Refusal :=
  s.unit 2 stl [] fun s => .ok (s.putG d (sext64 lit) 1)
/-- LIH: the literal above the low word of g[rd] (R112). -/
def execLih (stl : BitVec 3) (d : BitVec 5) (lit : BitVec 32) (s : State) : Host.Outcome State Fault Refusal :=
  s.unit 2 stl [(.g, d.toNat)] fun s => .ok (s.putG d (lit ++ low32 (s.rg 0 d)) 1)
/-- ADPC: an address relative to the program counter (R113). -/
def execAdpc (stl : BitVec 3) (d : BitVec 5) (o : BitVec 17) (s : State) : Host.Outcome State Fault Refusal :=
  s.unit 1 stl [] fun s => .ok (s.putG d (s.ctx.pc.setWidth 64 + sext64 (o ++ 0#2)) 1)

end Sys2Proof.Machine
end

