-- ==== Sys2Proof/Machine/VecMove.lean ====
section
/-! DEFINITION. Moving lanes: VPERM, VMOV, KMASK (07_core_vector, R145 to R147). -/
namespace Sys2Proof.Machine
open Sys2Proof
namespace State

/-- VPERM: lane i of the result from the lanes of a, b and the old d, as patterns (R145). -/
def vperm (s : State) (f : (n : Nat) → (a b d : Nat → BitVec n) → (cnt : Nat) → Nat → BitVec n) (p : Pre) (stl : BitVec 3) (d a b : BitVec 5)
    (e : BitVec 3) (srcs : List (BitVec 5)) : Host.Outcome State Fault Refusal :=
  s.unit (1 + p.words) stl (s.vsrc srcs ++ maskSrc p) fun s =>
    let n := intBits e
    let va := s.rv 0 a
    let vb := s.rv 1 b
    let vd := s.rv 2 d
    let r := laneOp (s.maskOf p) n (s.lanes n) (s.vcur d) fun i => (f n (lane n va) (lane n vb) (lane n vd) (s.lanes n) i, 0#5)
    .ok (s.putV d r.1 (s.vlat p 3 7))

/-- The lanes of the 256 bits that GETV and SETV move (R146): active ones from `x`, the others from `old`. -/
def move256 (s : State) (p : Pre) (e : BitVec 3) (x old : BitVec 256) : BitVec 256 :=
  let b := floatBits e
  (laneOp (s.maskOf p) b (256 / b) (old.setWidth 4096) fun i => (lane b (x.setWidth 4096) i, 0#5)).1.setWidth 256

/-- A bitwise function of k registers (R147). -/
def kfn (s : State) (f : BitVec 512 → BitVec 512 → BitVec 512) (stl : BitVec 3) (d a b : BitVec 5) (srcs : List (BitVec 5)) :
    Host.Outcome State Fault Refusal :=
  s.unit 1 stl (srcs.map fun r => (.k, r.toNat)) fun s => .ok (s.putK d.toNat (f (s.rk 0 a.toNat) (s.rk 1 b.toNat)) (if s.ctx.long then 6 else 2))
end State

/-- Part p of a mask (R147). -/
def kpart (x : BitVec 512) (p : Nat) : Word := x.extractLsb' (64 * p) 64
/-- The lowest one among the low n bits, or all ones (R147). -/
def kfirst (x : BitVec 512) (n : Nat) : Word := if popcTo x n = 0 then BitVec.allOnes 64 else BitVec.ofNat 64 (ctzFrom x 0 n)

/-- VPERM.TBL (R145). -/
def execVpermTbl (p : Pre) (stl : BitVec 3) (d a b : BitVec 5) (e : BitVec 3) (s : State) : Host.Outcome State Fault Refusal :=
  s.vperm (fun n a b _ cnt i => if (b i).toNat < cnt then a (b i).toNat else 0#n) p stl d a b e [a, b]
/-- VPERM.TBL2 (R145). -/
def execVpermTbl2 (p : Pre) (stl : BitVec 3) (d a b : BitVec 5) (e : BitVec 3) (s : State) : Host.Outcome State Fault Refusal :=
  s.vperm (fun n a b d cnt i => let j := (b i).toNat; if j < cnt then a j else if j < 2 * cnt then d (j - cnt) else 0#n) p stl d a b e [a, b, d]
/-- VPERM.ZIPLO (R145). -/
def execVpermZiplo (p : Pre) (stl : BitVec 3) (d a b : BitVec 5) (e : BitVec 3) (s : State) : Host.Outcome State Fault Refusal :=
  s.vperm (fun _ a b _ _ i => if i % 2 = 0 then a (i / 2) else b (i / 2)) p stl d a b e [a, b]
/-- VPERM.ZIPHI (R145). -/
def execVpermZiphi (p : Pre) (stl : BitVec 3) (d a b : BitVec 5) (e : BitVec 3) (s : State) : Host.Outcome State Fault Refusal :=
  s.vperm (fun _ a b _ cnt i => if i % 2 = 0 then a (cnt / 2 + i / 2) else b (cnt / 2 + i / 2)) p stl d a b e [a, b]
/-- VPERM.UNZE (R145). -/
def execVpermUnze (p : Pre) (stl : BitVec 3) (d a b : BitVec 5) (e : BitVec 3) (s : State) : Host.Outcome State Fault Refusal :=
  s.vperm (fun _ a b _ cnt i => if i < cnt / 2 then a (2 * i) else b (2 * (i - cnt / 2))) p stl d a b e [a, b]
/-- VPERM.UNZO (R145). -/
def execVpermUnzo (p : Pre) (stl : BitVec 3) (d a b : BitVec 5) (e : BitVec 3) (s : State) : Host.Outcome State Fault Refusal :=
  s.vperm (fun _ a b _ cnt i => if i < cnt / 2 then a (2 * i + 1) else b (2 * (i - cnt / 2) + 1)) p stl d a b e [a, b]
/-- VPERM.BCAST (R145). -/
def execVpermBcast (p : Pre) (stl : BitVec 3) (d a c : BitVec 5) (e : BitVec 3) (s : State) : Host.Outcome State Fault Refusal :=
  s.vperm (fun n a _ _ cnt _ => if c.toNat < cnt then a c.toNat else 0#n) p stl d a 0#5 e [a]
/-- VPERM.SLUP (R145). -/
def execVpermSlup (p : Pre) (stl : BitVec 3) (d a c : BitVec 5) (e : BitVec 3) (s : State) : Host.Outcome State Fault Refusal :=
  s.vperm (fun n a _ _ _ i => if c.toNat ≤ i then a (i - c.toNat) else 0#n) p stl d a 0#5 e [a]
/-- VPERM.SLDN (R145). -/
def execVpermSldn (p : Pre) (stl : BitVec 3) (d a c : BitVec 5) (e : BitVec 3) (s : State) : Host.Outcome State Fault Refusal :=
  s.vperm (fun n a _ _ cnt i => if i + c.toNat < cnt then a (i + c.toNat) else 0#n) p stl d a 0#5 e [a]
/-- VPERM.REV (R145). -/
def execVpermRev (p : Pre) (stl : BitVec 3) (d a : BitVec 5) (e : BitVec 3) (s : State) : Host.Outcome State Fault Refusal := s.vperm (fun _ a _ _ cnt i => a (cnt - 1 - i)) p stl d a 0#5 e [a]
/-- VPERM.CMPR: the mask selects source lanes, and every destination lane is written (R145). -/
def execVpermCmpr (p : Pre) (stl : BitVec 3) (d a : BitVec 5) (e : BitVec 3) (s : State) : Host.Outcome State Fault Refusal :=
  s.unit (1 + p.words) stl (s.vsrc [a] ++ State.maskSrc p) fun s =>
    let n := intBits e
    let va := s.rv 0 a
    let m := s.maskOf p
    let xs := ((upto 0 (s.lanes n)).filter fun i => m.getLsbD i).map (lane n va)
    .ok (s.putV d (ofLanes n xs) (s.vlat p 3 7))
/-- VMOV (R146). -/
def execVmov (p : Pre) (stl : BitVec 3) (d a : BitVec 5) (e : BitVec 3) (s : State) : Host.Outcome State Fault Refusal :=
  s.unit (1 + p.words) stl (s.vsrc [a] ++ State.maskSrc p) fun s =>
    let b := floatBits e
    let va := s.rv 0 a
    .ok (s.putV d (laneOp (s.maskOf p) b (s.lanes b) (s.vcur d) fun i => (lane b va i, 0#5)).1 (s.vlat p 2 6))
/-- VMOV.BCG: the low bits of a g register into every active lane (R146). -/
def execVmovBcg (p : Pre) (stl : BitVec 3) (d a : BitVec 5) (e : BitVec 3) (s : State) : Host.Outcome State Fault Refusal :=
  s.unit (1 + p.words) stl ((.g, a.toNat) :: State.maskSrc p) fun s =>
    let b := floatBits e
    let x := (s.rg 0 a).setWidth b
    .ok (s.putV d (laneOp (s.maskOf p) b (s.lanes b) (s.vcur d) fun _ => (x, 0#5)).1 (s.vlat p 2 6))
/-- VMOV.INSG: into one lane, when it exists and is active (R146). -/
def execVmovInsg (p : Pre) (stl : BitVec 3) (d a c : BitVec 5) (e : BitVec 3) (s : State) : Host.Outcome State Fault Refusal :=
  s.unit (1 + p.words) stl ((.g, a.toNat) :: State.maskSrc p) fun s =>
    let b := floatBits e
    let x := (s.rg 0 a).setWidth b
    let m := s.maskOf p
    .ok (s.putV d (laneOp m b (s.lanes b) (s.vcur d) fun i => (if i = c.toNat then x else lane b (s.vcur d) i, 0#5)).1 (s.vlat p 2 6))
/-- VMOV.EXTG: one lane into a g register, without a mask (R146). -/
def execVmovExtg (p : Pre) (stl : BitVec 3) (d a c : BitVec 5) (e : BitVec 3) (s : State) : Host.Outcome State Fault Refusal :=
  s.unit (1 + p.words) stl (s.vsrc [a]) fun s =>
    let b := floatBits e
    .ok (s.putG d (if c.toNat < s.lanes b then (lane b (s.rv 0 a) c.toNat).setWidth 64 else 0#64) (s.vlat p 2 6))
/-- VMOV.GETV: v[va] into the low 256 bits of w[vd] (R146). -/
def execVmovGetv (p : Pre) (stl : BitVec 3) (d a : BitVec 5) (e : BitVec 3) (s : State) : Host.Outcome State Fault Refusal :=
  s.unit (1 + p.words) stl ((.v, a.toNat) :: State.maskSrc p) fun s =>
    let x := s.early 0 .v a.toNat (s.v a)
    .ok (s.putVLong d (((s.w d) >>> 256) <<< 256 ||| (s.move256 p e x ((s.w d).setWidth 256)).setWidth 4096) (s.vlat p 2 6))
/-- VMOV.SETV: the low 256 bits of w[va] into v[vd] (R146). -/
def execVmovSetv (p : Pre) (stl : BitVec 3) (d a : BitVec 5) (e : BitVec 3) (s : State) : Host.Outcome State Fault Refusal :=
  s.unit (1 + p.words) stl ((.w, a.toNat) :: State.maskSrc p) fun s =>
    let x := (s.early 0 .w a.toNat (s.w a)).setWidth 256
    .ok (s.putVShort d (s.move256 p e x (s.v d)) (s.vlat p 2 6))
/-- KMASK.AND (R147). -/
def execKmaskAnd (stl : BitVec 3) (d a b : BitVec 5) (s : State) : Host.Outcome State Fault Refusal := s.kfn (fun x y => x &&& y) stl d a b [a, b]
/-- KMASK.OR (R147). -/
def execKmaskOr (stl : BitVec 3) (d a b : BitVec 5) (s : State) : Host.Outcome State Fault Refusal := s.kfn (fun x y => x ||| y) stl d a b [a, b]
/-- KMASK.XOR (R147). -/
def execKmaskXor (stl : BitVec 3) (d a b : BitVec 5) (s : State) : Host.Outcome State Fault Refusal := s.kfn (fun x y => x ^^^ y) stl d a b [a, b]
/-- KMASK.ANDN (R147). -/
def execKmaskAndn (stl : BitVec 3) (d a b : BitVec 5) (s : State) : Host.Outcome State Fault Refusal := s.kfn (fun x y => x &&& ~~~y) stl d a b [a, b]
/-- KMASK.NOT (R147). -/
def execKmaskNot (stl : BitVec 3) (d a : BitVec 5) (s : State) : Host.Outcome State Fault Refusal := s.kfn (fun x _ => ~~~x) stl d a 0#5 [a]
/-- KMASK.MOV (R147). -/
def execKmaskMov (stl : BitVec 3) (d a : BitVec 5) (s : State) : Host.Outcome State Fault Refusal := s.kfn (fun x _ => x) stl d a 0#5 [a]
/-- KMASK.FROMG: part p of k[vd] from a g register (R147). -/
def execKmaskFromg (stl : BitVec 3) (d a : BitVec 5) (p : BitVec 3) (s : State) : Host.Outcome State Fault Refusal :=
  s.unit 1 stl [(.g, a.toNat)] fun s =>
    let m : BitVec 512 := (BitVec.allOnes 64).setWidth 512 <<< (64 * p.toNat)
    .ok (s.putK d.toNat ((s.k d.toNat &&& ~~~m) ||| ((s.rg 0 a).setWidth 512 <<< (64 * p.toNat))) (if s.ctx.long then 6 else 2))
/-- KMASK.TOG (R147). -/
def execKmaskTog (stl : BitVec 3) (d a : BitVec 5) (p : BitVec 3) (s : State) : Host.Outcome State Fault Refusal :=
  s.unit 1 stl [(.k, a.toNat)] fun s => .ok (s.putG d (kpart (s.rk 0 a.toNat) p.toNat) (if s.ctx.long then 6 else 2))
/-- KMASK.POPC (R147). -/
def execKmaskPopc (stl : BitVec 3) (d a : BitVec 5) (e : BitVec 3) (s : State) : Host.Outcome State Fault Refusal :=
  s.unit 1 stl [(.k, a.toNat)] fun s =>
    .ok (s.putG d (BitVec.ofNat 64 (popcTo (s.rk 0 a.toNat) (s.lanes (intBits e)))) (if s.ctx.long then 6 else 2))
/-- KMASK.FIRST (R147). -/
def execKmaskFirst (stl : BitVec 3) (d a : BitVec 5) (e : BitVec 3) (s : State) : Host.Outcome State Fault Refusal :=
  s.unit 1 stl [(.k, a.toNat)] fun s => .ok (s.putG d (kfirst (s.rk 0 a.toNat) (s.lanes (intBits e))) (if s.ctx.long then 6 else 2))
/-- KMASK.FILL: the first g[va] of n bits set, the rest of n cleared (R147). -/
def execKmaskFill (stl : BitVec 3) (d a : BitVec 5) (e : BitVec 3) (s : State) : Host.Outcome State Fault Refusal :=
  s.unit 1 stl [(.g, a.toNat)] fun s =>
    let n := s.lanes (intBits e)
    let x := (s.rg 0 a).toNat
    .ok (s.putK d.toNat (maskBits (BitVec.allOnes 512) (s.k d.toNat) n fun i => decide (i < x)) (if s.ctx.long then 6 else 2))

end Sys2Proof.Machine
end

