-- ==== Sys2Proof/Machine/Dispatch.lean ====
section
/-! DEFINITION. The one match from instructions to their meanings. -/
namespace Sys2Proof.Machine
open Sys2Proof

/-- The effect of a step of the device, instruction by instruction and event by event. -/
def exec (i : Instr) (s : State) : Host.Outcome State Fault Refusal :=
  match i with
  | .aluAdd p stl d a b => Sys2Proof.Machine.execAluAdd p stl d a b s
  | .aluSub p stl d a b => Sys2Proof.Machine.execAluSub p stl d a b s
  | .aluAnd stl d a b => Sys2Proof.Machine.execAluAnd stl d a b s
  | .aluOr stl d a b => Sys2Proof.Machine.execAluOr stl d a b s
  | .aluXor stl d a b => Sys2Proof.Machine.execAluXor stl d a b s
  | .aluAndn stl d a b => Sys2Proof.Machine.execAluAndn stl d a b s
  | .aluOrn stl d a b => Sys2Proof.Machine.execAluOrn stl d a b s
  | .aluXnor stl d a b => Sys2Proof.Machine.execAluXnor stl d a b s
  | .aluShl stl d a b => Sys2Proof.Machine.execAluShl stl d a b s
  | .aluShr stl d a b => Sys2Proof.Machine.execAluShr stl d a b s
  | .aluSar stl d a b => Sys2Proof.Machine.execAluSar stl d a b s
  | .aluRol stl d a b => Sys2Proof.Machine.execAluRol stl d a b s
  | .aluRor stl d a b => Sys2Proof.Machine.execAluRor stl d a b s
  | .aluSlt stl d a b => Sys2Proof.Machine.execAluSlt stl d a b s
  | .aluSltn stl d a b => Sys2Proof.Machine.execAluSltn stl d a b s
  | .aluMin stl d a b => Sys2Proof.Machine.execAluMin stl d a b s
  | .aluMax stl d a b => Sys2Proof.Machine.execAluMax stl d a b s
  | .aluMinn stl d a b => Sys2Proof.Machine.execAluMinn stl d a b s
  | .aluMaxn stl d a b => Sys2Proof.Machine.execAluMaxn stl d a b s
  | .aluAbsd p stl d a b => Sys2Proof.Machine.execAluAbsd p stl d a b s
  | .aluwAdd p stl d a b => Sys2Proof.Machine.execAluwAdd p stl d a b s
  | .aluwSub p stl d a b => Sys2Proof.Machine.execAluwSub p stl d a b s
  | .aluwAnd stl d a b => Sys2Proof.Machine.execAluwAnd stl d a b s
  | .aluwOr stl d a b => Sys2Proof.Machine.execAluwOr stl d a b s
  | .aluwXor stl d a b => Sys2Proof.Machine.execAluwXor stl d a b s
  | .aluwAndn stl d a b => Sys2Proof.Machine.execAluwAndn stl d a b s
  | .aluwOrn stl d a b => Sys2Proof.Machine.execAluwOrn stl d a b s
  | .aluwXnor stl d a b => Sys2Proof.Machine.execAluwXnor stl d a b s
  | .aluwShl stl d a b => Sys2Proof.Machine.execAluwShl stl d a b s
  | .aluwShr stl d a b => Sys2Proof.Machine.execAluwShr stl d a b s
  | .aluwSar stl d a b => Sys2Proof.Machine.execAluwSar stl d a b s
  | .aluwRol stl d a b => Sys2Proof.Machine.execAluwRol stl d a b s
  | .aluwRor stl d a b => Sys2Proof.Machine.execAluwRor stl d a b s
  | .aluwSlt stl d a b => Sys2Proof.Machine.execAluwSlt stl d a b s
  | .aluwSltn stl d a b => Sys2Proof.Machine.execAluwSltn stl d a b s
  | .aluwMin stl d a b => Sys2Proof.Machine.execAluwMin stl d a b s
  | .aluwMax stl d a b => Sys2Proof.Machine.execAluwMax stl d a b s
  | .aluwMinn stl d a b => Sys2Proof.Machine.execAluwMinn stl d a b s
  | .aluwMaxn stl d a b => Sys2Proof.Machine.execAluwMaxn stl d a b s
  | .aluwAbsd p stl d a b => Sys2Proof.Machine.execAluwAbsd p stl d a b s
  | .mulLo p stl d a b => Sys2Proof.Machine.execMulLo p stl d a b s
  | .mulHi stl d a b => Sys2Proof.Machine.execMulHi stl d a b s
  | .mulHin stl d a b => Sys2Proof.Machine.execMulHin stl d a b s
  | .mulHisn stl d a b => Sys2Proof.Machine.execMulHisn stl d a b s
  | .mulW p stl d a b => Sys2Proof.Machine.execMulW p stl d a b s
  | .mulWn stl d a b => Sys2Proof.Machine.execMulWn stl d a b s
  | .divQ stl d a b => Sys2Proof.Machine.execDivQ stl d a b s
  | .divQn stl d a b => Sys2Proof.Machine.execDivQn stl d a b s
  | .divRem stl d a b => Sys2Proof.Machine.execDivRem stl d a b s
  | .divRemn stl d a b => Sys2Proof.Machine.execDivRemn stl d a b s
  | .divQw stl d a b => Sys2Proof.Machine.execDivQw stl d a b s
  | .divQnw stl d a b => Sys2Proof.Machine.execDivQnw stl d a b s
  | .divRemw stl d a b => Sys2Proof.Machine.execDivRemw stl d a b s
  | .divRemnw stl d a b => Sys2Proof.Machine.execDivRemnw stl d a b s
  | .bitClz stl d a => Sys2Proof.Machine.execBitClz stl d a s
  | .bitCtz stl d a => Sys2Proof.Machine.execBitCtz stl d a s
  | .bitPopc stl d a => Sys2Proof.Machine.execBitPopc stl d a s
  | .bitBrev stl d a => Sys2Proof.Machine.execBitBrev stl d a s
  | .bitBswap stl d a => Sys2Proof.Machine.execBitBswap stl d a s
  | .bitSext8 stl d a => Sys2Proof.Machine.execBitSext8 stl d a s
  | .bitSext16 stl d a => Sys2Proof.Machine.execBitSext16 stl d a s
  | .bitSext32 stl d a => Sys2Proof.Machine.execBitSext32 stl d a s
  | .bitZext8 stl d a => Sys2Proof.Machine.execBitZext8 stl d a s
  | .bitZext16 stl d a => Sys2Proof.Machine.execBitZext16 stl d a s
  | .bitZext32 stl d a => Sys2Proof.Machine.execBitZext32 stl d a s
  | .bitExtr stl d a b => Sys2Proof.Machine.execBitExtr stl d a b s
  | .bitExtrn stl d a b => Sys2Proof.Machine.execBitExtrn stl d a b s
  | .bitDep stl d a b => Sys2Proof.Machine.execBitDep stl d a b s
  | .cmovNz p stl d a b => Sys2Proof.Machine.execCmovNz p stl d a b s
  | .cmovZ p stl d a b => Sys2Proof.Machine.execCmovZ p stl d a b s
  | .cmovLt p stl d a b => Sys2Proof.Machine.execCmovLt p stl d a b s
  | .cmovGe p stl d a b => Sys2Proof.Machine.execCmovGe p stl d a b s
  | .addi stl d a im => Sys2Proof.Machine.execAddi stl d a im s
  | .andi stl d a im => Sys2Proof.Machine.execAndi stl d a im s
  | .ori stl d a im => Sys2Proof.Machine.execOri stl d a im s
  | .xori stl d a im => Sys2Proof.Machine.execXori stl d a im s
  | .slti stl d a im => Sys2Proof.Machine.execSlti stl d a im s
  | .sltin stl d a im => Sys2Proof.Machine.execSltin stl d a im s
  | .shiShl stl d a w h => Sys2Proof.Machine.execShiShl stl d a w h s
  | .shiShr stl d a w h => Sys2Proof.Machine.execShiShr stl d a w h s
  | .shiSar stl d a w h => Sys2Proof.Machine.execShiSar stl d a w h s
  | .shiRor stl d a w h => Sys2Proof.Machine.execShiRor stl d a w h s
  | .lil stl d lit => Sys2Proof.Machine.execLil stl d lit s
  | .lih stl d lit => Sys2Proof.Machine.execLih stl d lit s
  | .adpc stl d o => Sys2Proof.Machine.execAdpc stl d o s
  | .beq stl a b o => Sys2Proof.Machine.execBeq stl a b o s
  | .bne stl a b o => Sys2Proof.Machine.execBne stl a b o s
  | .blt stl a b o => Sys2Proof.Machine.execBlt stl a b o s
  | .bge stl a b o => Sys2Proof.Machine.execBge stl a b o s
  | .bltn stl a b o => Sys2Proof.Machine.execBltn stl a b o s
  | .bgen stl a b o => Sys2Proof.Machine.execBgen stl a b o s
  | .loop stl a b o => Sys2Proof.Machine.execLoop stl a b o s
  | .jal stl d o => Sys2Proof.Machine.execJal stl d o s
  | .jalr stl d a im => Sys2Proof.Machine.execJalr stl d a im s
  | .rpt stl a l d p b w => Sys2Proof.Machine.execRpt stl a l d p b w s
  | .nop stl => Sys2Proof.Machine.execNop stl s
  | .srd stl d n => Sys2Proof.Machine.execSrd stl d n s
  | .swr stl d n => Sys2Proof.Machine.execSwr stl d n s
  | .trap stl c => Sys2Proof.Machine.execTrap stl c s
  | .brk stl c => Sys2Proof.Machine.execBrk stl c s
  | .eret stl => Sys2Proof.Machine.execEret stl s
  | .yield stl => Sys2Proof.Machine.execYield stl s
  | .getid stl d x => Sys2Proof.Machine.execGetid stl d x s
  | .pubf stl a b c => Sys2Proof.Machine.execPubf stl a b c s
  | .done stl => Sys2Proof.Machine.execDone stl s
  | .doneDec stl a => Sys2Proof.Machine.execDoneDec stl a s
  | .actqEntry stl d => Sys2Proof.Machine.execActqEntry stl d s
  | .actqKind stl d => Sys2Proof.Machine.execActqKind stl d s
  | .actqSendt stl d => Sys2Proof.Machine.execActqSendt stl d s
  | .actqArrt stl d => Sys2Proof.Machine.execActqArrt stl d s
  | .actqStartt stl d => Sys2Proof.Machine.execActqStartt stl d s
  | .actqPend stl d a => Sys2Proof.Machine.execActqPend stl d a s
  | .actqDeq stl d => Sys2Proof.Machine.execActqDeq stl d s
  | .ld stl t a z m o => Sys2Proof.Machine.execLd stl t a z m o s
  | .st stl t a z m o => Sys2Proof.Machine.execSt stl t a z m o s
  | .vaddiAdd p stl d a b e => Sys2Proof.Machine.execVaddiAdd p stl d a b e s
  | .vaddiSub p stl d a b e => Sys2Proof.Machine.execVaddiSub p stl d a b e s
  | .vaddiMin p stl d a b e => Sys2Proof.Machine.execVaddiMin p stl d a b e s
  | .vaddiMax p stl d a b e => Sys2Proof.Machine.execVaddiMax p stl d a b e s
  | .vaddiAbsd p stl d a b e => Sys2Proof.Machine.execVaddiAbsd p stl d a b e s
  | .vaddiAvg p stl d a b e => Sys2Proof.Machine.execVaddiAvg p stl d a b e s
  | .vaddiNeg p stl d a e => Sys2Proof.Machine.execVaddiNeg p stl d a e s
  | .vaddiAbs p stl d a e => Sys2Proof.Machine.execVaddiAbs p stl d a e s
  | .vlogiAnd p stl d a b e => Sys2Proof.Machine.execVlogiAnd p stl d a b e s
  | .vlogiOr p stl d a b e => Sys2Proof.Machine.execVlogiOr p stl d a b e s
  | .vlogiXor p stl d a b e => Sys2Proof.Machine.execVlogiXor p stl d a b e s
  | .vlogiAndn p stl d a b e => Sys2Proof.Machine.execVlogiAndn p stl d a b e s
  | .vlogiShl p stl d a b e => Sys2Proof.Machine.execVlogiShl p stl d a b e s
  | .vlogiShr p stl d a b e => Sys2Proof.Machine.execVlogiShr p stl d a b e s
  | .vlogiSar p stl d a b e => Sys2Proof.Machine.execVlogiSar p stl d a b e s
  | .vlogiRol p stl d a b e => Sys2Proof.Machine.execVlogiRol p stl d a b e s
  | .vlogiRor p stl d a b e => Sys2Proof.Machine.execVlogiRor p stl d a b e s
  | .vlogiNot p stl d a e => Sys2Proof.Machine.execVlogiNot p stl d a e s
  | .vlogiPopc p stl d a e => Sys2Proof.Machine.execVlogiPopc p stl d a e s
  | .vlogiClz p stl d a e => Sys2Proof.Machine.execVlogiClz p stl d a e s
  | .vmuliLo p stl d a b e => Sys2Proof.Machine.execVmuliLo p stl d a b e s
  | .vmuliHi p stl d a b e => Sys2Proof.Machine.execVmuliHi p stl d a b e s
  | .vmuliMac p stl d a b e => Sys2Proof.Machine.execVmuliMac p stl d a b e s
  | .vmuliMsb p stl d a b e => Sys2Proof.Machine.execVmuliMsb p stl d a b e s
  | .vcmpiEq p stl d a b e => Sys2Proof.Machine.execVcmpiEq p stl d a b e s
  | .vcmpiNe p stl d a b e => Sys2Proof.Machine.execVcmpiNe p stl d a b e s
  | .vcmpiLt p stl d a b e => Sys2Proof.Machine.execVcmpiLt p stl d a b e s
  | .vcmpiLe p stl d a b e => Sys2Proof.Machine.execVcmpiLe p stl d a b e s
  | .vcmpiGt p stl d a b e => Sys2Proof.Machine.execVcmpiGt p stl d a b e s
  | .vcmpiGe p stl d a b e => Sys2Proof.Machine.execVcmpiGe p stl d a b e s
  | .vaddfAdd p stl d a b e => Sys2Proof.Machine.execVaddfAdd p stl d a b e s
  | .vaddfSub p stl d a b e => Sys2Proof.Machine.execVaddfSub p stl d a b e s
  | .vaddfMin p stl d a b e => Sys2Proof.Machine.execVaddfMin p stl d a b e s
  | .vaddfMax p stl d a b e => Sys2Proof.Machine.execVaddfMax p stl d a b e s
  | .vmulfMul p stl d a b e => Sys2Proof.Machine.execVmulfMul p stl d a b e s
  | .vmulfFma p stl d a b e => Sys2Proof.Machine.execVmulfFma p stl d a b e s
  | .vmulfFms p stl d a b e => Sys2Proof.Machine.execVmulfFms p stl d a b e s
  | .vcmpfEq p stl d a b e => Sys2Proof.Machine.execVcmpfEq p stl d a b e s
  | .vcmpfNe p stl d a b e => Sys2Proof.Machine.execVcmpfNe p stl d a b e s
  | .vcmpfLt p stl d a b e => Sys2Proof.Machine.execVcmpfLt p stl d a b e s
  | .vcmpfLe p stl d a b e => Sys2Proof.Machine.execVcmpfLe p stl d a b e s
  | .vcmpfGt p stl d a b e => Sys2Proof.Machine.execVcmpfGt p stl d a b e s
  | .vcmpfGe p stl d a b e => Sys2Proof.Machine.execVcmpfGe p stl d a b e s
  | .vcmpfUn p stl d a b e => Sys2Proof.Machine.execVcmpfUn p stl d a b e s
  | .vdot p stl d a b e => Sys2Proof.Machine.execVdot p stl d a b e s
  | .vdotAcc p stl d a b e => Sys2Proof.Machine.execVdotAcc p stl d a b e s
  | .vdotI8 p stl d a b => Sys2Proof.Machine.execVdotI8 p stl d a b s
  | .vdotAccI8 p stl d a b => Sys2Proof.Machine.execVdotAccI8 p stl d a b s
  | .vdotI4 p stl d a b => Sys2Proof.Machine.execVdotI4 p stl d a b s
  | .vdotAccI4 p stl d a b => Sys2Proof.Machine.execVdotAccI4 p stl d a b s
  | .vcvt p stl d a x y t e im m => Sys2Proof.Machine.execVcvt p stl d a x y t e im m s
  | .vsfuRcp p stl d a e => Sys2Proof.Machine.execVsfuRcp p stl d a e s
  | .vsfuRsqrt p stl d a e => Sys2Proof.Machine.execVsfuRsqrt p stl d a e s
  | .vsfuSqrt p stl d a e => Sys2Proof.Machine.execVsfuSqrt p stl d a e s
  | .vsfuExp2 p stl d a e => Sys2Proof.Machine.execVsfuExp2 p stl d a e s
  | .vsfuLog2 p stl d a e => Sys2Proof.Machine.execVsfuLog2 p stl d a e s
  | .vsfuExp p stl d a e => Sys2Proof.Machine.execVsfuExp p stl d a e s
  | .vsfuLn p stl d a e => Sys2Proof.Machine.execVsfuLn p stl d a e s
  | .vsfuSinpi p stl d a e => Sys2Proof.Machine.execVsfuSinpi p stl d a e s
  | .vsfuCospi p stl d a e => Sys2Proof.Machine.execVsfuCospi p stl d a e s
  | .vsfuTanh p stl d a e => Sys2Proof.Machine.execVsfuTanh p stl d a e s
  | .vsfuSigm p stl d a e => Sys2Proof.Machine.execVsfuSigm p stl d a e s
  | .vsfuSilu p stl d a e => Sys2Proof.Machine.execVsfuSilu p stl d a e s
  | .vredSum p stl d a e => Sys2Proof.Machine.execVredSum p stl d a e s
  | .vredMax p stl d a e => Sys2Proof.Machine.execVredMax p stl d a e s
  | .vredMin p stl d a e => Sys2Proof.Machine.execVredMin p stl d a e s
  | .vredSumi p stl d a t => Sys2Proof.Machine.execVredSumi p stl d a t s
  | .vredMaxi p stl d a t => Sys2Proof.Machine.execVredMaxi p stl d a t s
  | .vredMini p stl d a t => Sys2Proof.Machine.execVredMini p stl d a t s
  | .vredAndi p stl d a t => Sys2Proof.Machine.execVredAndi p stl d a t s
  | .vredOri p stl d a t => Sys2Proof.Machine.execVredOri p stl d a t s
  | .vredXori p stl d a t => Sys2Proof.Machine.execVredXori p stl d a t s
  | .vpermTbl p stl d a b e => Sys2Proof.Machine.execVpermTbl p stl d a b e s
  | .vpermTbl2 p stl d a b e => Sys2Proof.Machine.execVpermTbl2 p stl d a b e s
  | .vpermBcast p stl d a c e => Sys2Proof.Machine.execVpermBcast p stl d a c e s
  | .vpermSlup p stl d a c e => Sys2Proof.Machine.execVpermSlup p stl d a c e s
  | .vpermSldn p stl d a c e => Sys2Proof.Machine.execVpermSldn p stl d a c e s
  | .vpermZiplo p stl d a b e => Sys2Proof.Machine.execVpermZiplo p stl d a b e s
  | .vpermZiphi p stl d a b e => Sys2Proof.Machine.execVpermZiphi p stl d a b e s
  | .vpermUnze p stl d a b e => Sys2Proof.Machine.execVpermUnze p stl d a b e s
  | .vpermUnzo p stl d a b e => Sys2Proof.Machine.execVpermUnzo p stl d a b e s
  | .vpermRev p stl d a e => Sys2Proof.Machine.execVpermRev p stl d a e s
  | .vpermCmpr p stl d a e => Sys2Proof.Machine.execVpermCmpr p stl d a e s
  | .vmov p stl d a e => Sys2Proof.Machine.execVmov p stl d a e s
  | .vmovBcg p stl d a e => Sys2Proof.Machine.execVmovBcg p stl d a e s
  | .vmovInsg p stl d a c e => Sys2Proof.Machine.execVmovInsg p stl d a c e s
  | .vmovExtg p stl d a c e => Sys2Proof.Machine.execVmovExtg p stl d a c e s
  | .vmovGetv p stl d a e => Sys2Proof.Machine.execVmovGetv p stl d a e s
  | .vmovSetv p stl d a e => Sys2Proof.Machine.execVmovSetv p stl d a e s
  | .kmaskAnd stl d a b => Sys2Proof.Machine.execKmaskAnd stl d a b s
  | .kmaskOr stl d a b => Sys2Proof.Machine.execKmaskOr stl d a b s
  | .kmaskXor stl d a b => Sys2Proof.Machine.execKmaskXor stl d a b s
  | .kmaskAndn stl d a b => Sys2Proof.Machine.execKmaskAndn stl d a b s
  | .kmaskNot stl d a => Sys2Proof.Machine.execKmaskNot stl d a s
  | .kmaskFromg stl d a p => Sys2Proof.Machine.execKmaskFromg stl d a p s
  | .kmaskTog stl d a p => Sys2Proof.Machine.execKmaskTog stl d a p s
  | .kmaskPopc stl d a e => Sys2Proof.Machine.execKmaskPopc stl d a e s
  | .kmaskFirst stl d a e => Sys2Proof.Machine.execKmaskFirst stl d a e s
  | .kmaskFill stl d a e => Sys2Proof.Machine.execKmaskFill stl d a e s
  | .kmaskMov stl d a => Sys2Proof.Machine.execKmaskMov stl d a s
  | .vmodeShort stl => Sys2Proof.Machine.execVmodeShort stl s
  | .vmodeLong stl => Sys2Proof.Machine.execVmodeLong stl s
  | .vqnt p stl d a e g => Sys2Proof.Machine.execVqnt p stl d a e g s
  | .vld p stl t a z m o => Sys2Proof.Machine.execVld p stl t a z m o s
  | .vst p stl t a z m o => Sys2Proof.Machine.execVst p stl t a z m o s
  | .vldx stl d a b k c g w => Sys2Proof.Machine.execVldx stl d a b k c g w s
  | .vstx stl d a b k c g w => Sys2Proof.Machine.execVstx stl d a b k c g w s
  | .ldt stl t a z o => Sys2Proof.Machine.execLdt stl t a z o s
  | .acc stl t a z o => Sys2Proof.Machine.execAcc stl t a z o s
  | .accVec stl t a z o => Sys2Proof.Machine.execAccVec stl t a z o s
  | .amoAdd stl d a b w => Sys2Proof.Machine.execAmoAdd stl d a b w s
  | .amoMin stl d a b w => Sys2Proof.Machine.execAmoMin stl d a b w s
  | .amoMax stl d a b w => Sys2Proof.Machine.execAmoMax stl d a b w s
  | .amoMinn stl d a b w => Sys2Proof.Machine.execAmoMinn stl d a b w s
  | .amoMaxn stl d a b w => Sys2Proof.Machine.execAmoMaxn stl d a b w s
  | .amoAnd stl d a b w => Sys2Proof.Machine.execAmoAnd stl d a b w s
  | .amoOr stl d a b w => Sys2Proof.Machine.execAmoOr stl d a b w s
  | .amoXor stl d a b w => Sys2Proof.Machine.execAmoXor stl d a b w s
  | .amoSwap stl d a b w => Sys2Proof.Machine.execAmoSwap stl d a b w s
  | .amoCas stl d a b w => Sys2Proof.Machine.execAmoCas stl d a b w s
  | .amoFadd stl d a b => Sys2Proof.Machine.execAmoFadd stl d a b s
  | .amoFmin stl d a b => Sys2Proof.Machine.execAmoFmin stl d a b s
  | .amsg stl d a b c => Sys2Proof.Machine.execAmsg stl d a b c s
  | .fence stl => Sys2Proof.Machine.execFence stl s
  | .fenceDrain stl c => Sys2Proof.Machine.execFenceDrain stl c s
  | .fenceEng stl => Sys2Proof.Machine.execFenceEng stl s
  | .hintL1 stl a o => Sys2Proof.Machine.execHintL1 stl a o s
  | .hintClu stl a o => Sys2Proof.Machine.execHintClu stl a o s
  | .hintMsc stl a o => Sys2Proof.Machine.execHintMsc stl a o s
  | .hintCrate stl a o => Sys2Proof.Machine.execHintCrate stl a o s
  | .hintLast stl a o => Sys2Proof.Machine.execHintLast stl a o s
  | .hintCnt stl t => Sys2Proof.Machine.execHintCnt stl t s
  | .rangeDecl stl d a => Sys2Proof.Machine.execRangeDecl stl d a s
  | .rangeBound stl a b => Sys2Proof.Machine.execRangeBound stl a b s
  | .rangeDrain stl a => Sys2Proof.Machine.execRangeDrain stl a s
  | .rangeFree stl a => Sys2Proof.Machine.execRangeFree stl a s
  | .xferCopy stl d a b => Sys2Proof.Machine.execXferCopy stl d a b s
  | .xferGather stl d a b => Sys2Proof.Machine.execXferGather stl d a b s
  | .xferScatter stl d a b => Sys2Proof.Machine.execXferScatter stl d a b s
  | .xferFill stl d a b => Sys2Proof.Machine.execXferFill stl d a b s
  | .xferQcopy stl d a b => Sys2Proof.Machine.execXferQcopy stl d a b s
  | .xferRgather stl d a b => Sys2Proof.Machine.execXferRgather stl d a b s
  | .xwaitOne stl a b => Sys2Proof.Machine.execXwaitOne stl a b s
  | .xwaitAll stl b => Sys2Proof.Machine.execXwaitAll stl b s
  | .xwaitTest stl d a b => Sys2Proof.Machine.execXwaitTest stl d a b s
  | .pageInvp stl d a b => Sys2Proof.Machine.execPageInvp stl d a b s
  | .pageInvk stl d b => Sys2Proof.Machine.execPageInvk stl d b s
  | .pageInva stl d => Sys2Proof.Machine.execPageInva stl d s
  | .pageBias stl d a b => Sys2Proof.Machine.execPageBias stl d a b s
  | .pageResume stl d a b => Sys2Proof.Machine.execPageResume stl d a b s
  | .pageKret stl d b => Sys2Proof.Machine.execPageKret stl d b s
  | .mlseAcq stl => Sys2Proof.Machine.execMlseAcq stl s
  | .mlseTry stl d => Sys2Proof.Machine.execMlseTry stl d s
  | .mlseRel stl => Sys2Proof.Machine.execMlseRel stl s
  | .mlseJoin stl d a => Sys2Proof.Machine.execMlseJoin stl d a s
  | .tdefSet stl d a b => Sys2Proof.Machine.execTdefSet stl d a b s
  | .tdefGet stl a b => Sys2Proof.Machine.execTdefGet stl a b s
  | .tdefClr stl b => Sys2Proof.Machine.execTdefClr stl b s
  | .mmaNew stl a p => Sys2Proof.Machine.execMmaNew stl a p s
  | .mmaAcc stl a p => Sys2Proof.Machine.execMmaAcc stl a p s
  | .mmaqNew stl a p => Sys2Proof.Machine.execMmaqNew stl a p s
  | .mmaqAcc stl a p => Sys2Proof.Machine.execMmaqAcc stl a p s
  | .maccSt stl a x p => Sys2Proof.Machine.execMaccSt stl a x p s
  | .maccDrain stl a x p => Sys2Proof.Machine.execMaccDrain stl a x p s
  | .mgangForm stl d a => Sys2Proof.Machine.execMgangForm stl d a s
  | .mgangDiss stl d => Sys2Proof.Machine.execMgangDiss stl d s
  | .mstat stl d => Sys2Proof.Machine.execMstat stl d s
  | .mstatWait stl d => Sys2Proof.Machine.execMstatWait stl d s
  | .xexp stl a n f p => Sys2Proof.Machine.execXexp stl a n f p s
  | .mbar stl => Sys2Proof.Machine.execMbar stl s
  | .mhndSet stl a b => Sys2Proof.Machine.execMhndSet stl a b s
  | .mhndClr stl => Sys2Proof.Machine.execMhndClr stl s
  | .mcfgGet stl d => Sys2Proof.Machine.execMcfgGet stl d s
  | .mcfgRun stl d a => Sys2Proof.Machine.execMcfgRun stl d a s
  | .ctxNew stl d a => Sys2Proof.Machine.execCtxNew stl d a s
  | .ctxFork stl d a => Sys2Proof.Machine.execCtxFork stl d a s
  | .ctxFree stl a => Sys2Proof.Machine.execCtxFree stl a s
  | .ctxInfo stl d a => Sys2Proof.Machine.execCtxInfo stl d a s
  | .editIns stl d a b => Sys2Proof.Machine.execEditIns stl d a b s
  | .editDel stl d a => Sys2Proof.Machine.execEditDel stl d a s
  | .editRep stl d a b => Sys2Proof.Machine.execEditRep stl d a b s
  | .walk stl d a => Sys2Proof.Machine.execWalk stl d a s
  | .dmapGet stl d a => Sys2Proof.Machine.execDmapGet stl d a s
  | .dmapThr stl a b => Sys2Proof.Machine.execDmapThr stl a b s
  | .dmapCnt stl d a => Sys2Proof.Machine.execDmapCnt stl d a s
  | .settle stl a b => Sys2Proof.Machine.execSettle stl a b s
  | .settleTry stl d a b => Sys2Proof.Machine.execSettleTry stl d a b s
  | .vldwSnap stl d a b y => Sys2Proof.Machine.execVldwSnap stl d a b y s
  | .vldwCur stl d a b y => Sys2Proof.Machine.execVldwCur stl d a b y s
  | .vldwSettled stl d a b y => Sys2Proof.Machine.execVldwSettled stl d a b y s
  | .vstw stl d a y => Sys2Proof.Machine.execVstw stl d a y s
  | .waveBind stl d a b => Sys2Proof.Machine.execWaveBind stl d a b s
  | .waveNext stl d a b => Sys2Proof.Machine.execWaveNext stl d a b s
  | .delta stl d => Sys2Proof.Machine.execDelta stl d s
  | .kvapPool stl d a b => Sys2Proof.Machine.execKvapPool stl d a b s
  | .kvapApp stl d a b => Sys2Proof.Machine.execKvapApp stl d a b s
  | .send stl d a b c => Sys2Proof.Machine.execSend stl d a b c s
  | .sendB stl d a b c => Sys2Proof.Machine.execSendB stl d a b c s
  | .hop stl a b => Sys2Proof.Machine.execHop stl a b s
  | .fork stl d a b x c => Sys2Proof.Machine.execFork stl d a b x c s
  | .join stl d a b => Sys2Proof.Machine.execJoin stl d a b s
  | .task stl d a b c => Sys2Proof.Machine.execTask stl d a b c s
  | .wait stl d a => Sys2Proof.Machine.execWait stl d a s
  | .barInit stl d a b => Sys2Proof.Machine.execBarInit stl d a b s
  | .barArr stl d a => Sys2Proof.Machine.execBarArr stl d a s
  | .barWait stl d a b => Sys2Proof.Machine.execBarWait stl d a b s
  | .barSync stl d a => Sys2Proof.Machine.execBarSync stl d a s
  | .launch stl d a b c => Sys2Proof.Machine.execLaunch stl d a b c s
  | .launchAt stl d a b c => Sys2Proof.Machine.execLaunchAt stl d a b c s
  | .steal stl d a => Sys2Proof.Machine.execSteal stl d a s
  | .rsrvPin stl d a b => Sys2Proof.Machine.execRsrvPin stl d a b s
  | .rsrvUnpin stl d a b => Sys2Proof.Machine.execRsrvUnpin stl d a b s
  | .rsrvPut stl d a b c => Sys2Proof.Machine.execRsrvPut stl d a b c s
  | .ordqVt stl d => Sys2Proof.Machine.execOrdqVt stl d s
  | .ordqLen stl d => Sys2Proof.Machine.execOrdqLen stl d s
  | .ordqHead stl d => Sys2Proof.Machine.execOrdqHead stl d s
  | .ordqSpec stl d => Sys2Proof.Machine.execOrdqSpec stl d s
  | .ordqRset stl d => Sys2Proof.Machine.execOrdqRset stl d s
  | .pri stl d a => Sys2Proof.Machine.execPri stl d a s
  | .hostInboxWrite die off data => Sys2Proof.Machine.execHostInboxWrite die off data s
  | .inboxScanDelivery die => Sys2Proof.Machine.execInboxScanDelivery die s
  | .activationStart core => Sys2Proof.Machine.execActivationStart core s
  | .resultArrival site => Sys2Proof.Machine.execResultArrival site s
  | .longSlotGrant quad => Sys2Proof.Machine.execLongSlotGrant quad s
  | .preEmptionRequest core => Sys2Proof.Machine.execPreEmptionRequest core s
  | .preEmptionHalt site => Sys2Proof.Machine.execPreEmptionHalt site s
  | .imageComplete site => Sys2Proof.Machine.execImageComplete site s
  | .imageRestore site => Sys2Proof.Machine.execImageRestore site s
  | .monitorRecheck site => Sys2Proof.Machine.execMonitorRecheck site s
  | .coarseRecheck site => Sys2Proof.Machine.execCoarseRecheck site s
  | .waitTimeout site => Sys2Proof.Machine.execWaitTimeout site s
  | .gvtPublication => Sys2Proof.Machine.execGvtPublication s
  | .versionCommit die bid layer part => Sys2Proof.Machine.execVersionCommit die bid layer part s
  | .taskAbort site => Sys2Proof.Machine.execTaskAbort site s
  | .wavetaskDispatch die => Sys2Proof.Machine.execWavetaskDispatch die s
  | .admissionTokenGrant cluster => Sys2Proof.Machine.execAdmissionTokenGrant cluster s
  | .timedLaunchDelivery => Sys2Proof.Machine.execTimedLaunchDelivery s
  | .arrayStartGrant die => Sys2Proof.Machine.execArrayStartGrant die s
  | .alarmRaise die => Sys2Proof.Machine.execAlarmRaise die s
  | .alarmClear die => Sys2Proof.Machine.execAlarmClear die s
  | .reduceMessage core => Sys2Proof.Machine.execReduceMessage core s
  | .amoExecute core => Sys2Proof.Machine.execAmoExecute core s
  | .linkMessageArrival words => Sys2Proof.Machine.execLinkMessageArrival words s
  | .portDown port lost => Sys2Proof.Machine.execPortDown port lost s
  | .hostMemRequest write poison dpa data => Sys2Proof.Machine.execHostMemRequest write poison dpa data s
  | .extentRelease first count => Sys2Proof.Machine.execExtentRelease first count s
  | .extentReleaseTimeout first count lost => Sys2Proof.Machine.execExtentReleaseTimeout first count lost s
  | .writeBack line => Sys2Proof.Machine.execWriteBack line s
  | .forwardedRequest line core write => Sys2Proof.Machine.execForwardedRequest line core write s
  | .leaseRenewal line core => Sys2Proof.Machine.execLeaseRenewal line core s
  | .reservationGrant line => Sys2Proof.Machine.execReservationGrant line s
  | .rangeJoinMessage line core => Sys2Proof.Machine.execRangeJoinMessage line core s
  | .drainArrival line core => Sys2Proof.Machine.execDrainArrival line core s
  | .budgetMessage line core => Sys2Proof.Machine.execBudgetMessage line core s
  | .budgetAck line core => Sys2Proof.Machine.execBudgetAck line core s
  | .forcedDrainRequest line core => Sys2Proof.Machine.execForcedDrainRequest line core s
  | .drainAck line core => Sys2Proof.Machine.execDrainAck line core s
  | .pantrySwitchEnd cluster shelf => Sys2Proof.Machine.execPantrySwitchEnd cluster shelf s
  | .trackingPeriodEnd die => Sys2Proof.Machine.execTrackingPeriodEnd die s
  | .crateMoveComplete crate => Sys2Proof.Machine.execCrateMoveComplete crate s
  | .transferCompletion id => Sys2Proof.Machine.execTransferCompletion id s
  | .faultWindowClose die => Sys2Proof.Machine.execFaultWindowClose die s
  | .faultListReadyClear die => Sys2Proof.Machine.execFaultListReadyClear die s
  | .kgroupComplete cluster => Sys2Proof.Machine.execKgroupComplete cluster s
  | .matrixCommandComplete cluster => Sys2Proof.Machine.execMatrixCommandComplete cluster s
  | .rowStage cluster => Sys2Proof.Machine.execRowStage cluster s
  | .rowCommit cluster => Sys2Proof.Machine.execRowCommit cluster s
  | .leaseHandoff cluster => Sys2Proof.Machine.execLeaseHandoff cluster s
  | .stopGo die value => Sys2Proof.Machine.execStopGo die value s
  | .stopResume die => Sys2Proof.Machine.execStopResume die s
  | .stopLanded die => Sys2Proof.Machine.execStopLanded die s
  | .stoplimExpiry die => Sys2Proof.Machine.execStoplimExpiry die s
  | .checkpoint => Sys2Proof.Machine.execCheckpoint s
  | .endrec => Sys2Proof.Machine.execEndrec s
  | .replay => Sys2Proof.Machine.execReplay s
  | .abort => Sys2Proof.Machine.execAbort s
  | .kernelInstanceEnd index => Sys2Proof.Machine.execKernelInstanceEnd index s
  | .publishGo die => Sys2Proof.Machine.execPublishGo die s
  | .publishComplete die => Sys2Proof.Machine.execPublishComplete die s
  | .keyLoad die value => Sys2Proof.Machine.execKeyLoad die value s
  | .attestation die => Sys2Proof.Machine.execAttestation die s
  | .warmReset => Sys2Proof.Machine.execWarmReset s
  | .coldReset => Sys2Proof.Machine.execColdReset s
  | .telemetryRecord die => Sys2Proof.Machine.execTelemetryRecord die s
  | .registerWrite die off value => Sys2Proof.Machine.execRegisterWrite die off value s
  | .illegalOpcode cause value => Sys2Proof.Machine.execIllegalOpcode cause value s
  | .stallCountSpent site => Sys2Proof.Machine.execStallCountSpent site s

end Sys2Proof.Machine
end

