-- ==== Sys2Proof/Machine/Schedule.lean ====
section
/-! DEFINITION. Which step comes next, the issue of a unit, and where a unit is placed so that it is fetched next (05_core_model R80, R81, R83,
R94, R95, R97; 08_core_fetch R151 to R155; 24_debug_trace_replay R377 to R379; log entry 1). Some definitions are noncomputable because they name
steps or units of later opcodes (see Decode). -/
namespace Sys2Proof.Machine
open Sys2Proof

/-- A step that is taken. -/
def isNext : Host.Outcome State Fault Refusal → Bool
  | .next _ => true
  | _ => false

namespace State

/-! ## Steps of engines and of the host -/

/-- The step that a register write has started (R4). -/
noncomputable def todoStep (d : Nat) : Todo → Instr
  | .warmReset => .warmReset
  | .attestation => .attestation d
  | .readyClear => .faultListReadyClear d
  | .publishGo => .publishGo d
  | .stopGo v => .stopGo d v
  | .stopResume => .stopResume d
  | .checkpoint => .checkpoint
  | .endrec => .endrec
  | .replay => .replay
  | .abort => .abort

/-- Steps that a tick makes due. -/
noncomputable def timedSteps (s : State) : List Instr :=
  [Instr.gvtPublication, .timedLaunchDelivery] ++ (SMap.keys s.clus).map .admissionTokenGrant ++
    (SMap.keys s.dies).flatMap (fun d => [Instr.faultWindowClose d]) ++
    (upto 0 4).flatMap fun d => [Instr.telemetryRecord d, .trackingPeriodEnd d] ++ if (s.dieAt d).power.isEmpty then [] else [.alarmRaise d, .alarmClear d]
/-- The re-checks of a wait on conditions (R331). -/
noncomputable def monSteps (s : State) (x : Nat) : List Instr :=
  match s.monWaits x with
  | none => []
  | some w =>
    (if (s.focus x).recheckDue w then [.monitorRecheck x] else []) ++ (if w.data.getD 1 0 = 1 ∧ w.coarseAt ≤ s.tick (dieOf x) then [.coarseRecheck x] else [])
/-- Steps of a context. -/
noncomputable def siteSteps (s : State) (x : Nat) : List Instr :=
  let c := s.ctxAt x
  (if c.st == .stalled then [.stallCountSpent x] else []) ++
    (if c.aborting || c.img.any (·.aborting) then [.taskAbort x] else []) ++ (if c.victim then [.preEmptionHalt x] else []) ++
    (if c.st == .saving || c.img.isSome then [.imageComplete x] else []) ++ s.monSteps x ++
    (if c.img.isSome then [.imageRestore x] else []) ++ (if c.st == .waiting then [.longSlotGrant (quadOf x)] else [])
/-- Messages of a range line. -/
noncomputable def rangeSteps (l : Nat) (x : RLine) : List Instr :=
  x.up.map (fun m => match m with
    | .join c => Instr.rangeJoinMessage l c
    | .drain d => .drainArrival l d.core
    | .ack c _ => .budgetAck l c) ++
  x.down.map fun m => match m with
    | .budget c _ _ => Instr.budgetMessage l c
    | .force c _ => .forcedDrainRequest l c
    | .drainAck c => .drainAck l c
/-- Steps of homes, transfers and the pantry. -/
noncomputable def memSteps (s : State) : List Instr :=
  (s.pkg.rlines.flatMap fun e => rangeSteps e.1 e.2) ++ (SMap.keys s.pkg.resv).map .reservationGrant ++
    (s.pkg.xfers.map fun x => .transferCompletion x.id) ++
    (s.clus.flatMap fun e => (SMap.keys e.2.shelves).map fun h => .pantrySwitchEnd e.1 h) ++
    ((s.pkg.crates.filter fun e => e.2.moving.isSome).map fun e => .crateMoveComplete e.1) ++
    s.pkg.releasing.flatMap fun r =>
      (((SMap.keys s.pkg.coh).filter (extentLine r.1 r.2)).map Instr.writeBack) ++
        (if s.extentHeld r.1 r.2 && !s.partsHeld (extentLine r.1 r.2) then [] else [.extentRelease r.1 r.2])
/-- Steps of the matrix units and of the context engine. -/
noncomputable def engineSteps (s : State) : List Instr :=
  (s.clus.flatMap fun e => if e.2.cmds.isEmpty && e.2.pairs.isEmpty then []
    else [Instr.kgroupComplete e.1, .rowStage e.1, .rowCommit e.1, .matrixCommandComplete e.1, .leaseHandoff e.1, .arrayStartGrant (e.1 / 16)]) ++
  s.dies.flatMap fun e => (if e.2.recs.isEmpty then [] else [Instr.wavetaskDispatch e.1]) ++
    e.2.attic.map fun v => .versionCommit v.slot.die v.slot.bid v.slot.layer v.slot.part
/-- Steps of a core's dispatch logic. -/
noncomputable def coreSteps (s : State) (c : Nat) : List Instr := [Instr.amoExecute c, .reduceMessage c, .activationStart c] ++ if s.wantsVictim c then [.preEmptionRequest c] else []
/-- Steps of the dies, of stop control and of the host's requests. -/
noncomputable def dieSteps (s : State) : List Instr :=
  (s.pkg.stops.flatMap fun t => [.stopLanded t.die, .stoplimExpiry t.die]) ++
    (s.dies.flatMap fun e => (e.2.loading.toList.map fun k => .keyLoad e.1 k.1) ++ [.publishComplete e.1, .inboxScanDelivery e.1] ++
      if e.2.attesting.any fun l => (s.attestTry e.1 l).isSome then [.attestation e.1] else []) ++
    ((s.pkg.hostReqs.filter fun r => (s.hostServe r).isSome).map fun r => .hostMemRequest r.write r.poison r.dpa r.data) ++
    s.pkg.replay.insts.map Instr.kernelInstanceEnd ++ (if s.pkg.replay.replaying then (upto 0 4).map .inboxScanDelivery else [])

/-- What some engine may do next; whether it can, its own rule says. -/
noncomputable def candidates (s : State) : List Instr :=
  s.timedSteps ++ s.pkg.results.map (fun r => .resultArrival r.1) ++ s.allSites.flatMap s.siteSteps ++ s.memSteps ++ s.engineSteps ++
    (SMap.keys s.cores).flatMap s.coreSteps ++ s.dieSteps ++ (s.allSites.filter fun x => (s.monWaits x).isSome).map .waitTimeout
/-- The engine step that is taken of itself. -/
noncomputable def due (s : State) : Option Instr := s.candidates.find? fun i => isNext (exec i s)

/-! ## Which context issues (R80) -/

/-- A READY context may issue: not in a domain stop that holds it (R378), nor as a victim or an aborting task at a boundary (R99, R330). -/
def mayIssue (s : State) (x : Nat) : Bool :=
  let c := s.ctxAt x
  c.st == .ready && !c.inPlace && (!s.stopped x || isService c || !c.frozen) && !(c.victim && atBoundary c) &&
    !(c.aborting && (s.abortTask x).isSome)
/-- A WAITING context whose unit tries again; a wait on conditions is re-checked instead (R331). -/
def polls (s : State) (x : Nat) : Bool :=
  let c := s.ctxAt x
  c.st == .waiting && (s.monWaits x).isNone && !c.inPlace && (!s.stopped x || isService c) && !(c.victim && atBoundary c) && !c.aborting
/-- The least class of some contexts. -/
def leastClass (s : State) : List Nat → Option Nat
  | [] => none
  | x :: xs => match leastClass s xs with
    | none => some (s.ctxAt x).pri.toNat
    | some k => some (min k (s.ctxAt x).pri.toNat)
/-- READY contexts of a core of the lowest class present. -/
def front (s : State) (core : Nat) : List Nat :=
  let rs := (ctxsOf core).filter s.mayIssue
  rs.filter fun x => s.leastClass rs == some (s.ctxAt x).pri.toNat
/-- The context that a core issues from. -/
def coreNext (s : State) (core : Nat) : Option Nat :=
  let cs := s.front core
  let k := s.coreAt core
  let last := 4 * core + k.last
  if cs.contains last && (decide (k.run < 64) || cs.length == 1) then some last
  else match cs.filter fun x => decide (last < x) with
    | x :: _ => some x
    | [] => cs.head?
/-- The contexts that can take the next turn: one per core, and those that try again. -/
def turns (s : State) : List Nat := (s.allSites.map coreOf).eraseDups.filterMap s.coreNext ++ s.allSites.filter s.polls
/-- The site whose turn it is: the plan's, else the next one after the last. -/
def nextSite (s : State) : Option Nat :=
  let ts := s.turns
  match s.plan.turns with
  | x :: _ => if ts.contains x then some x else rotate ts
  | [] => rotate ts
where
  rotate (ts : List Nat) : Option Nat :=
    firstBy (fun a b => decide ((a + 4095 - s.site) % 4096 < (b + 4095 - s.site) % 4096)) ts
/-- The core remembers whom it serves, and for how many units in a row while another context of the class is READY. -/
def noteTurn (s : State) : State :=
  let s := { s with plan := { s.plan with turns := s.plan.turns.tail } }
  let other := decide (1 < (s.front (coreOf s.site)).length)
  if s.ctx.st = .waiting then s
  else s.modCore (coreOf s.site) fun c =>
    { c with turnBefore := c.turnAt, turnAt := s.cycle, last := s.site % 4, run := if other then (if c.last = s.site % 4 then c.run + 1 else 1) else 0 }

/-! ## The issue of a unit -/

/-- The 65th unit of an activation that is not pre-emptible (R83). -/
def overrun (s : State) : Bool := s.nonPre (coreOf s.site) s.ctx && decide (64 ≤ s.ctx.units) && s.ctx.wait.isNone
/-- A breakpoint on the unit's address: the activation halts before the unit issues (R377, R379). -/
def addressHit (s : State) : Option State :=
  if isService s.ctx || s.ctx.skipBp || s.ctx.wait.isSome then none
  else (s.bpTest s.site s.ctx.tag.toNat [(4, s.ctx.pc.toNat)] 1).map fun t =>
    if t.ctx.img.isSome then t.setCtx { t.ctx with inPlace := true }
    else (t.haltAt t.site).modCtxAt t.site fun c => { c with img := c.img.map fun i => { i with stopHeld := true, skipBp := true } }

/-- A unit that waits stays the context's unit in progress. -/
def keepUnit (i : Instr) : Host.Outcome State Fault Refusal → Host.Outcome State Fault Refusal
  | .next t => .next (if t.ctx.wait.isSome then t.setCtx { t.ctx with cur := some i } else t)
  | r => r

/-- Fetch, decode and run the unit at the program counter (R21, R153). -/
noncomputable def fetchRun (s : State) : Host.Outcome State Fault Refusal :=
  match s.fetchUnit s.ctx.pc.toNat with
  | .fault c v => exec (.illegalOpcode c v) s
  | .wait r => s.finish 1 0#3 r
  | .unit i w t => let i := i.getD (buildLate w); keepUnit i (exec i t)

/-- Capture the frame again (R94), with every fixed-latency result complete (R34). A fault's trap names unit UIDX where the units before it could be
captured (log entry 20). A frame that names no unit or no pass ends at once (log entry 20). -/
def recapture (s : State) : Host.Outcome State Fault Refusal :=
  let c := s.ctx
  let base := c.frmbase.toNat % 2 ^ 56
  match s.captureFrame c.frm base c.frm.pidx.toNat c.frm.left.toNat with
  | .fault k v as => (s.setCtx { c with pc := (as[c.frm.uidx.toNat]?.map (BitVec.ofNat 56)).getD c.pc }).finish 1 0#3 (.trap k v)
  | .wait r => s.finish 1 0#3 r
  | .units us next t =>
    if c.frm.left = 0#32 ∨ c.frm.len < c.frm.uidx then
      .next (t.setCtx { t.ctx with wait := none, frm := { c.frm with act := false }, pc := BitVec.ofNat 56 next })
    else .next (t.setCtx { t.ctx with wait := none, st := .ready, buf := us, pend := [], pc := BitVec.ofNat 56 (unitAddr base c.frm.uidx.toNat us) })
/-- Issue unit UIDX of pass PIDX of the frame (R94). -/
noncomputable def replayUnit (s : State) : Host.Outcome State Fault Refusal :=
  let c := s.ctx
  match c.buf[c.frm.uidx.toNat]? with
  | none => s.recapture
  | some i =>
    match stagger c.long c.frm c.frm.pidx.toNat i with
    | .ok (some j) => exec j s
    | .ok none => exec i s
    | .error e => exec (.illegalOpcode e.cause (frameVal c.frm.uidx.toNat 1)) s

/-- The issuing context issues: a page's verdict (R219), a handle's end (R317), the cap (R83), a breakpoint (R377), a frame (R94), a unit in progress, or a fetch. -/
noncomputable def issue (s : State) : Host.Outcome State Fault Refusal :=
  let c := s.ctx
  let verdict := (c.wait.map (·.verdict)).getD 0
  if verdict ≠ 0 then s.finish 1 0#3 (.trap (if verdict = 1 then 0x08#8 else 0x09#8) ((c.wait.map (·.pval)).getD 0#64))
  else if s.overrun then s.finish 1 0#3 (.trap 0x0C#8 0#64)
  else match c.wait.bind (·.gone) with
  | some h => s.finish 1 0#3 (verTrap 1 h 0 0)
  | none => match s.addressHit with
    | some t => .next t
    | none =>
      if c.frm.act && !c.susp then (if c.buf.isEmpty then s.recapture else s.replayUnit)
      else match c.cur with
        | some i => keepUnit i (exec i s)
        | none => s.fetchRun

/-- A cycle in which nothing happens. -/
def idle (s : State) : State := { s with cycle := s.cycle + 1 }

/-! ## Sleep (R97) -/

/-- A core sleeps while every context of it is DORMANT or WAITING (R97). -/
def asleep (s : State) (core : Nat) : Bool := (ctxsOf core).all fun x => (s.ctxAt x).st == .dormant || (s.ctxAt x).st == .waiting
/-- Cycles that a core takes to wake from a depth (R97's table). -/
def wakeLatency (depth : BitVec 2) : Nat :=
  match depth.toNat with
  | 0 => 0
  | 1 => 4
  | 2 => 60
  | _ => 400
/-- A context that leaves READY gives up its core's turn (R80): its core takes another READY one, if there is one. -/
def leaveTurns (s : State) : List Nat → State
  | [] => s
  | c :: cs =>
    let k := s.coreAt c
    leaveTurns (if (s.ctxAt (4 * c + k.last)).st = .ready ∨ k.run = 64 then s else s.modCore c fun k => { k with run := 64 }) cs
/-- The longest wake latency of the cores that sleep in `s` and no longer in `t`. A core falls asleep with the depth that its last unit leaves. -/
def wakeCycles (s t : State) : Nat :=
  (t.allSites.map coreOf).foldl (fun n c => if s.asleep c && !t.asleep c then max n (wakeLatency (s.coreAt c).depth) else n) 0
/-- Contexts whose wait a step has ended in a stopped domain do not issue before its resume (R378). -/
def freeze (s t : State) : List Nat → State
  | [] => t
  | x :: xs =>
    freeze s (if (s.ctxAt x).st = .waiting ∧ (t.ctxAt x).st = .ready ∧ t.stopped x = true then t.modCtxAt x fun c => { c with frozen := true } else t) xs
/-- What follows every step: a step that wakes a core takes the wake latency too (R97; every state is retained), the contexts that have left
READY have given up their turns (R80), and those whose waits have ended in a stopped domain do not issue (R378). -/
def wakes (s : State) : Host.Outcome State Fault Refusal → Host.Outcome State Fault Refusal
  | .next t =>
    let u := { t with cycle := t.cycle + wakeCycles s t }.leaveTurns (t.allSites.map coreOf).eraseDups
    .next (if u.pkg.stops.isEmpty then u else s.freeze u u.allSites)
  | o => o

/-- What happens beside the table's steps. -/
def take (s : State) : Input → State
  | .crate k m a => s.placeCrate k m a
  | .power d p => s.measure (d % 4) p
  | .corrected d => s.countErr (d % 4) 0
  | .uncorrectable l => s.modPkg fun p => { p with bad := SMap.set false p.bad l true }

/-- One step: what a register write has started, what happens beside the table's steps, what the plan names, the boot of a package that has just been powered
(after a failed one it waits for a later reset, R388), an engine's step, a unit, or an idle cycle. -/
noncomputable def advance (s : State) : Host.Outcome State Fault Refusal :=
  match s.pkg.todo with
  | t :: ts => exec (todoStep t.1 t.2) (s.modPkg fun p => { p with todo := ts })
  | [] =>
    match s.plan.inputs, s.plan.events with
    | x :: xs, _ => .next ({ s with plan := { s.plan with inputs := xs } }.take x)
    | [], i :: is => exec i { s with plan := { s.plan with events := is } }
    | [], [] =>
      if s.unbooted then exec .coldReset s
      else match (if s.plan.quiet = 0 then s.due else none) with
        | some i => exec i s
        | none =>
          let s := { s with plan := { s.plan with quiet := s.plan.quiet - 1 } }
          match s.nextSite with
          | some x => ((s.focus x).noteTurn).issue
          | none => .next s.idle

/-! ## Placing a unit where it is fetched next -/

/-- The tables of a mapping of one 1 GiB page for fetching, and the page (log entry 11). -/
def bootRoot : Nat := 0xBF00000000
def bootCode : Nat := 0x8000000000
/-- Map the page that holds the program counter for the context's key: root and leaf, under memory key 0. -/
def bootMap (s : State) : State :=
  let pc := s.ctx.pc.toNat
  let k := s.ctx.ask.toNat
  let pc := if pc / 2 ^ 48 < 0xFE ∧ pc % 2 ^ 30 + 24 ≤ 2 ^ 30 then pc else 0
  let s := s.setReg s.die (0x10000 + 16 * k) (BitVec.ofNat 64 (2 ^ 63 + bootRoot))
  let s := s.pokeNat (gloc 0 (bootRoot + 8 * walkIdx 3 pc)) 8 (bootRoot + 0x10000 + 3)
  let s := s.pokeNat (gloc 0 (bootRoot + 0x10000 + 8 * walkIdx 2 pc)) 8 (bootCode + 0x37)
  (s.modPkg fun p => { p with tlb := [] }).setCtx { s.ctx with pc := BitVec.ofNat 56 pc, mkid := 0#10 }
/-- The location of each word of a unit at the program counter, when they can be fetched. -/
def codeLocs (s : State) : Nat → Option (List Nat)
  | 0 => some []
  | n + 1 =>
    let a := (s.ctx.pc.toNat + 4 * n) % 2 ^ 56
    match s.headFault s.me 0 (BitVec.ofNat 64 a) 1, s.place s.me .fetch 0 a (64 + n), codeLocs s n with
    | none, .at loc _, some ls =>
      if s.lineHeld (lineOf loc) || (ctlOf loc).isSome || (poolOf loc).isSome || (s.mediaFault true [(loc, 4)]).isSome then none else some (ls ++ [loc])
    | _, _, _ => none
/-- Put words at locations, as code that is closed for every fetcher. -/
def putCode (s : State) : List Nat → List IWord → State
  | l :: ls, w :: ws =>
    let s := s.pokeNat l 4 w.toNat
    putCode (s.modPkg fun p => { p with code := SMap.set none p.code (lineOf l) none, hist := SMap.keep (fun a _ => lineOf a != lineOf l) p.hist }) ls ws
  | _, _ => s
/-- Words that only long mode decodes. -/
def wantsLong (ws : List IWord) : Bool :=
  match shapeUnit false ws, shapeUnit true ws with
  | .bad _ _ _, .ok _ _ => true
  | _, _ => false
/-- The context at the issuing site fetches next, and nothing else happens first. -/
def readyToFetch (s : State) : State :=
  let c := s.ctx
  let s := { s with plan := { turns := [s.site], quiet := 1, delays := s.plan.delays } }
  let s := (s.modPkg fun p => { p with todo := [] }).modCore (coreOf s.site) fun c => { c with unacked := 0 }
  let s := s.setReg 0 0x0A8 (putBits (s.reg 0 0x0A8) 63 63 1)
  let s := if (s.front (coreOf s.site)).contains s.site then s else { s with parked := SMap.keep (fun x _ => coreOf x != coreOf s.site) s.parked }
  s.setCtx { c with st := .ready, wait := none, cur := none, victim := false, aborting := false, inPlace := false, frozen := false, skipBp := true, units := min c.units 63,
                    frm := if c.susp then c.frm else { c.frm with act := false } }
/-- Words stored where the next step fetches its unit: at the program counter where that is mapped, else through a mapping made for it; in
long mode where only that has the unit. -/
def placeUnit (s : State) (ws : List IWord) : State :=
  let s := s.readyToFetch
  let s := if !s.ctx.long && wantsLong ws then s.takeSlot s.site 0 else s
  match s.codeLocs 4 with
  | some ls => s.putCode ls ws
  | none => let t := s.bootMap; t.putCode ((t.codeLocs 4).getD []) ws

end State
end Sys2Proof.Machine
end

