-- ==== Sys2Proof/Machine/Step.lean ====
section
/-! DEFINITION. One step of the machine. -/
namespace Sys2Proof.Machine
open Sys2Proof

/-- One step: `State.advance` (Schedule) says which, and a core that it wakes takes its wake latency (R97). -/
noncomputable def step (s : State) : Host.Outcome State Fault Refusal := s.wakes s.advance

/-- `s` with the unit whose bits are `w`, numbered as the opcode table numbers them, stored where `step` fetches its next unit. -/
def State.withFetchWord (s : State) (nbits w : Nat) : State := s.placeUnit (wordsOf 4 (w % 2 ^ nbits))

end Sys2Proof.Machine
end

