-- ==== Sys2Proof/Safety.lean ====
section
/-! DEFINITION. The words in which the statements about the machine are said: when a unit can read its sources, what its completion, a trap and a
step of an engine make of the state, what lies outside an effect. There is no unsafe run to exclude: every step answers a next state, but for a step
of an engine that the plan names although nothing is there for it to do. -/
namespace Sys2Proof.Claims
open Sys2Proof Sys2Proof.Machine


/-! ## Words that the statements share -/

/-- Every source of a unit is readable (R32, R33): none is the result of an earlier unit whose latency still runs, for the scoreboard or for the unit's reads. -/
abbrev Ready (s : State) (rs : List (File × Nat)) : Prop := s.tooEarly rs = none ∧ s.awaited rs = none

/-- The g registers as sources. -/
def gs (rs : List (BitVec 5)) : List (File × Nat) := rs.map fun r => (File.g, r.toNat)

/-- The vector registers of the current mode as sources, in front of a mask. -/
def vs (s : State) (p : Pre) (rs : List (BitVec 5)) : List (File × Nat) := rs.map (fun r => (s.vf, r.toNat)) ++ State.maskSrc p

/-- A unit of `n` words has completed with the effect `t` (R21, R31, R83, R94). -/
def unitDone (s : State) (n : Nat) (stl : BitVec 3) (t : State) : State := t.retire (State.replaying s.ctx) stl (s.after n)

/-- A unit has completed with the effect `t` and has transferred control. -/
def unitJump (s : State) (stl : BitVec 3) (t : State) (pc : BitVec 56) : State := t.retire (State.replaying s.ctx) stl pc

/-- A unit has raised a trap (R95) and has had no other effect (R22). -/
def trapped (s : State) (cause : Byte) (val : Word) : State := (s.takeTrap cause val).spend

/-- A unit cannot go on yet and has no effect: for its core's own drains alone it is STALLED for a cycle, otherwise it WAITS (R81, R128, R224). -/
def heldUp (s : State) : State := if s.drainsOut = true ∧ s.ctx.st ≠ .waiting then s.stallFor (s.cycle + 1) else (s.setWait s.waitNow).await

/-- The instruction answers this next state. -/
def Gives (i : Instr) (s t : State) : Prop := exec i s = .next t

/-- What every form of a frame statement leaves alone: everything but the issuing context, the cycle, the schedule and the counter of free values. -/
def Outside (s t : State) : Prop :=
  t.mem = s.mem ∧ t.pkg = s.pkg ∧ t.parked = s.parked ∧ t.cores = s.cores ∧ t.clus = s.clus ∧ t.dies = s.dies ∧ t.site = s.site

/-- The trap registers, the frame registers and the keys of a context. -/
def Specials (c d : Ctx) : Prop :=
  d.trapvec = c.trapvec ∧ d.trappc = c.trappc ∧ d.trapval = c.trapval ∧ d.trapsave = c.trapsave ∧ d.inh = c.inh ∧ d.cause = c.cause ∧
    d.frmbase = c.frmbase ∧ d.ask = c.ask ∧ d.mkid = c.mkid ∧ d.pri = c.pri ∧ d.chksb = c.chksb ∧ d.long = c.long ∧ d.slot = c.slot ∧
    d.treep = c.treep ∧ d.treen = c.treen ∧ d.tag = c.tag ∧ d.src = c.src ∧ d.ord = c.ord

/-- The destination register of a scalar register instruction (R105 to R113); none for every other instruction. -/
def scalarDest : Instr → Option (BitVec 5)
  | .aluAdd _ _ d _ _ | .aluSub _ _ d _ _ | .aluAnd _ d _ _ | .aluOr _ d _ _ | .aluXor _ d _ _ | .aluAndn _ d _ _ | .aluOrn _ d _ _
  | .aluXnor _ d _ _ | .aluShl _ d _ _ | .aluShr _ d _ _ | .aluSar _ d _ _ | .aluRol _ d _ _ | .aluRor _ d _ _ | .aluSlt _ d _ _
  | .aluSltn _ d _ _ | .aluMin _ d _ _ | .aluMax _ d _ _ | .aluMinn _ d _ _ | .aluMaxn _ d _ _ | .aluAbsd _ _ d _ _ => some d
  | .aluwAdd _ _ d _ _ | .aluwSub _ _ d _ _ | .aluwAnd _ d _ _ | .aluwOr _ d _ _ | .aluwXor _ d _ _ | .aluwAndn _ d _ _ | .aluwOrn _ d _ _
  | .aluwXnor _ d _ _ | .aluwShl _ d _ _ | .aluwShr _ d _ _ | .aluwSar _ d _ _ | .aluwRol _ d _ _ | .aluwRor _ d _ _ | .aluwSlt _ d _ _
  | .aluwSltn _ d _ _ | .aluwMin _ d _ _ | .aluwMax _ d _ _ | .aluwMinn _ d _ _ | .aluwMaxn _ d _ _ | .aluwAbsd _ _ d _ _ => some d
  | .mulLo _ _ d _ _ | .mulHi _ d _ _ | .mulHin _ d _ _ | .mulHisn _ d _ _ | .mulW _ _ d _ _ | .mulWn _ d _ _ => some d
  | .divQ _ d _ _ | .divQn _ d _ _ | .divRem _ d _ _ | .divRemn _ d _ _ | .divQw _ d _ _ | .divQnw _ d _ _ | .divRemw _ d _ _
  | .divRemnw _ d _ _ => some d
  | .bitClz _ d _ | .bitCtz _ d _ | .bitPopc _ d _ | .bitBrev _ d _ | .bitBswap _ d _ | .bitSext8 _ d _ | .bitSext16 _ d _
  | .bitSext32 _ d _ | .bitZext8 _ d _ | .bitZext16 _ d _ | .bitZext32 _ d _ | .bitExtr _ d _ _ | .bitExtrn _ d _ _ | .bitDep _ d _ _ => some d
  | .cmovNz _ _ d _ _ | .cmovZ _ _ d _ _ | .cmovLt _ _ d _ _ | .cmovGe _ _ d _ _ => some d
  | .addi _ d _ _ | .andi _ d _ _ | .ori _ d _ _ | .xori _ d _ _ | .slti _ d _ _ | .sltin _ d _ _ => some d
  | .shiShl _ d _ _ _ | .shiShr _ d _ _ _ | .shiSar _ d _ _ _ | .shiRor _ d _ _ _ | .lil _ d _ | .lih _ d _ | .adpc _ d _ => some d
  | _ => none
/-! ## Lanes -/

/-- The mask that a mask prefix names, as it stands. -/
def maskNow (s : State) (p : Pre) : BitVec 512 := match p.mask with | some m => s.k m.toNat | none => BitVec.allOnes 512

/-- The events of lanes `n` down: bit q is up exactly when it is up for some lane below `n`. -/
def evOf (n : Nat) (f : Nat → Flags) (fl : Flags) : Prop := ∀ q : Nat, q < 5 → (fl.getLsbD q = true ↔ ∃ j < n, (f j).getLsbD q = true)

/-- The unit writes vector register `d` lane by lane (R129, R130): lane j of width b takes `f j` where the mask is up and keeps its value
elsewhere; the events of active lanes join FPFLAGS (R63); latencies short / long (R91). -/
def LaneWrites (i : Instr) (s : State) (p : Pre) (stl : BitVec 3) (d : BitVec 5) (b short long : Nat) (f : Nat → BitVec b × Flags) : Prop :=
  ∃ (x : BitVec 4096) (fl : Flags), Gives i s (unitDone s (1 + p.words) stl ((s.putV d x (s.vlat p short long)).raise fl)) ∧
    (∀ j < s.lanes b, lane b x j = if activeLane (maskNow s p) b j then (f j).1 else lane b (s.vcur d) j) ∧
    evOf (s.lanes b) (fun j => if activeLane (maskNow s p) b j then (f j).2 else 0#5) fl

/-- The unit writes k register `d` bit by bit: bit j < n takes `f j` where the mask is up; every other bit keeps its value. -/
def BitWrites (i : Instr) (s : State) (p : Pre) (stl : BitVec 3) (d : BitVec 5) (n short long : Nat) (f : Nat → Bool) (fl : Flags) : Prop :=
  ∃ x : BitVec 512, Gives i s (unitDone s (1 + p.words) stl ((s.putK d.toNat x (s.vlat p short long)).raise fl)) ∧
    ∀ j < 512, x.getLsbD j = if j < n ∧ (maskNow s p).getLsbD j = true then f j else (s.k d.toNat).getLsbD j

/-- The destination of a vector instruction of R129 to R149 and its file; none for every other instruction. -/
def vecDest (s : State) : Instr → Option (File × BitVec 5)
  | .vaddiAdd _ _ d _ _ _ | .vaddiSub _ _ d _ _ _ | .vaddiMin _ _ d _ _ _ | .vaddiMax _ _ d _ _ _ | .vaddiAbsd _ _ d _ _ _ | .vaddiAvg _ _ d _ _ _
  | .vaddiNeg _ _ d _ _ | .vaddiAbs _ _ d _ _ => some (s.vf, d)
  | .vlogiAnd _ _ d _ _ _ | .vlogiOr _ _ d _ _ _ | .vlogiXor _ _ d _ _ _ | .vlogiAndn _ _ d _ _ _ | .vlogiShl _ _ d _ _ _ | .vlogiShr _ _ d _ _ _
  | .vlogiSar _ _ d _ _ _ | .vlogiRol _ _ d _ _ _ | .vlogiRor _ _ d _ _ _ | .vlogiNot _ _ d _ _ | .vlogiPopc _ _ d _ _ | .vlogiClz _ _ d _ _ => some (s.vf, d)
  | .vmuliLo _ _ d _ _ _ | .vmuliHi _ _ d _ _ _ | .vmuliMac _ _ d _ _ _ | .vmuliMsb _ _ d _ _ _ => some (s.vf, d)
  | .vcmpiEq _ _ d _ _ _ | .vcmpiNe _ _ d _ _ _ | .vcmpiLt _ _ d _ _ _ | .vcmpiLe _ _ d _ _ _ | .vcmpiGt _ _ d _ _ _ | .vcmpiGe _ _ d _ _ _ => some (.k, d)
  | .vcmpfEq _ _ d _ _ _ | .vcmpfNe _ _ d _ _ _ | .vcmpfLt _ _ d _ _ _ | .vcmpfLe _ _ d _ _ _ | .vcmpfGt _ _ d _ _ _ | .vcmpfGe _ _ d _ _ _
  | .vcmpfUn _ _ d _ _ _ => some (.k, d)
  | .vaddfAdd _ _ d _ _ _ | .vaddfSub _ _ d _ _ _ | .vaddfMin _ _ d _ _ _ | .vaddfMax _ _ d _ _ _ => some (s.vf, d)
  | .vmulfMul _ _ d _ _ _ | .vmulfFma _ _ d _ _ _ | .vmulfFms _ _ d _ _ _ | .vdot _ _ d _ _ _ | .vdotAcc _ _ d _ _ _ => some (s.vf, d)
  | .vdotI8 _ _ d _ _ | .vdotAccI8 _ _ d _ _ | .vdotI4 _ _ d _ _ | .vdotAccI4 _ _ d _ _ => some (s.vf, d)
  | .vcvt _ _ d _ _ _ _ _ _ _ | .vqnt _ _ d _ _ _ => some (s.vf, d)
  | .vsfuRcp _ _ d _ _ | .vsfuRsqrt _ _ d _ _ | .vsfuSqrt _ _ d _ _ | .vsfuExp2 _ _ d _ _ | .vsfuLog2 _ _ d _ _ | .vsfuExp _ _ d _ _ | .vsfuLn _ _ d _ _
  | .vsfuSinpi _ _ d _ _ | .vsfuCospi _ _ d _ _ | .vsfuTanh _ _ d _ _ | .vsfuSigm _ _ d _ _ | .vsfuSilu _ _ d _ _ => some (s.vf, d)
  | .vredSum _ _ d _ _ | .vredMax _ _ d _ _ | .vredMin _ _ d _ _ | .vredSumi _ _ d _ _ | .vredMaxi _ _ d _ _ | .vredMini _ _ d _ _ | .vredAndi _ _ d _ _
  | .vredOri _ _ d _ _ | .vredXori _ _ d _ _ => some (.g, d)
  | .vpermTbl _ _ d _ _ _ | .vpermTbl2 _ _ d _ _ _ | .vpermBcast _ _ d _ _ _ | .vpermSlup _ _ d _ _ _ | .vpermSldn _ _ d _ _ _ | .vpermZiplo _ _ d _ _ _
  | .vpermZiphi _ _ d _ _ _ | .vpermUnze _ _ d _ _ _ | .vpermUnzo _ _ d _ _ _ | .vpermRev _ _ d _ _ | .vpermCmpr _ _ d _ _ => some (s.vf, d)
  | .vmov _ _ d _ _ | .vmovBcg _ _ d _ _ | .vmovInsg _ _ d _ _ _ => some (s.vf, d)
  | .vmovExtg _ _ d _ _ _ => some (.g, d)
  | .vmovGetv _ _ d _ _ => some (.w, d)
  | .vmovSetv _ _ d _ _ => some (.v, d)
  | .kmaskAnd _ d _ _ | .kmaskOr _ d _ _ | .kmaskXor _ d _ _ | .kmaskAndn _ d _ _ | .kmaskNot _ d _ | .kmaskMov _ d _ | .kmaskFromg _ d _ _
  | .kmaskFill _ d _ _ => some (.k, d)
  | .kmaskTog _ d _ _ | .kmaskPopc _ d _ _ | .kmaskFirst _ d _ _ => some (.g, d)
  | _ => none

/-- An access of these runs waits for nothing: no drain is out, no line is held (R128, R224), and no line lies in a commutative range (R190). -/
abbrev Free (u : State) (runs : List (Nat × Nat)) : Prop :=
  u.drainsOut = false ∧ u.anyHeld runs = false ∧ ∀ l ∈ State.linesOf runs, u.rangeAt l = none

/-- The bytes of these runs are plain storage: no control register, no node of a pool, no byte with older values left in a pool crate, and no
line that has lost data. -/
abbrev Plain (u : State) (runs : List (Nat × Nat)) : Prop :=
  ∀ r ∈ runs, 0 < r.2 ∧ ∀ a, r.1 ≤ a → a < r.1 + r.2 → ctlOf a = none ∧ poolOf a = none ∧ SMap.get [] u.pkg.hist a = [] ∧ SMap.get false u.pkg.bad (lineOf a) = false

/-- The location lies outside the bytes of these runs. -/
def Outside1 (runs : List (Nat × Nat)) (a : Nat) : Prop := ∀ r ∈ runs, a < r.1 ∨ r.1 + r.2 ≤ a

/-- The registers and keys of the issuing context are unchanged. -/
def SameRegs (c d : Ctx) : Prop := d.g = c.g ∧ d.v = c.v ∧ d.w = c.w ∧ d.k = c.k ∧ d.fpflags = c.fpflags ∧ Specials c d

/-- The bytes stored by runs in order, with the last one written to an address, if some run covers it. -/
def lastAt : List (Nat × Nat) → List Byte → Nat → Option Byte
  | [], _, _ => none
  | (l, n) :: rs, bs, a => (lastAt rs (bs.drop n) a).orElse fun _ => if l ≤ a ∧ a < l + n then bs[a - l]? else none

/-- The address of an M-format access (R27): base plus the offset scaled by the access's bytes. -/
def mAt (s : State) (a : BitVec 5) (o : BitVec 7) (n : Nat) : Word := s.g a + o.signExtend 64 * BitVec.ofNat 64 n

/-- The value a load of a size code gives g[rt] (R27, R126). -/
def loaded (z : BitVec 3) (bs : List Byte) : Word :=
  let v := bytesToNat bs
  if z = 4#3 then (BitVec.ofNat 8 v).signExtend 64 else if z = 5#3 then (BitVec.ofNat 16 v).signExtend 64
  else if z = 6#3 then (BitVec.ofNat 32 v).signExtend 64 else BitVec.ofNat 64 v

/-- Lanes of e bytes that the mask prefix leaves active. -/
def lanesOn (s : State) (p : Pre) (e : Nat) : List Bool := (List.range (s.vbytes / e)).map fun i => (maskNow s p).getLsbD i

/-- The state in which a load reads its runs: their L1 lines are allocated (R402), and the hot-crate tracker has seen them (R192). -/
def atLoad (u : State) (runs : List (Nat × Nat)) : State := (u.allocate 0 (State.linesOf runs)).touch (State.linesOf runs)

/-- What a load of these runs leaves beside its destination; forcing sequences have ended. -/
def afterLoad (u : State) (runs : List (Nat × Nat)) : State := (atLoad u runs).rangeServed u.site (State.linesOf runs)

/-- The payload registers from `b` on, as they stand. -/
def payNow (s : State) (b : BitVec 5) (c : Nat) : List Word := (List.range c).map fun i => s.g (b + BitVec.ofNat 5 i)

/-- An ENTRY that an activation can start at (R341). -/
abbrev entryOk (e : Word) : Prop := e.toNat % 4 = 0 ∧ e.toNat < 2 ^ 56

/-- No effect of the issuing context is held back (R224, R330). -/
abbrev Quiet (s : State) : Prop := s.speculative = false ∧ s.drainsOut = false

/-- A message as an instruction sends it: the destination word's fields, the issuer's site, key and instance, the tick of the event (R14, R341). -/
def Sends (s : State) (m : Msg) (kind : Kind) (dst cls : Nat) (tag : BitVec 16) (entry : Word) (pay : List Word) : Prop :=
  m.kind = kind ∧ m.dst = dst ∧ m.cls = cls ∧ m.tag = tag ∧ m.entry = entry ∧ m.payload = pay ∧ m.src = s.site ∧ m.srcPkg = s.pkg.num ∧
    m.sendTick = s.tick s.die ∧ m.key = s.ctx.ask.toNat

/-- A pair of WAIT's registers asks for a condition (R348): the doubleword of ADDR and BAR is checked as LD checks it, the handle of SETTLE is the issuer's to
use, and its wave is capped; `u` is the state after it. -/
def asks (s : State) (j : Nat) (a b : Word) (u : State) (x : State.Cond) : Prop :=
  (bits a 63 60 = 0 ∧ bits a 59 57 < 6 ∧ bits a 56 56 = 0 ∧ x = { kind := 0, a := x.a, b := bits a 59 57, c := b.toNat } ∧
    s.reach .read 0 (a &&& 0xFFFFFFFFFFFFFF#64) 8 8 [(0, 8)] j = .go u [(x.a, 8)]) ∨
  (bits a 63 60 = 1 ∧ bits a 59 2 = 0 ∧ b = 0#64 ∧ u = s ∧ x = { kind := 1, a := bits a 1 0 }) ∨
  (bits a 63 60 = 2 ∧ bits a 59 56 = 0 ∧ bits b 63 16 = 0 ∧ x = { kind := 2, a := x.a, b := bits b 15 0 } ∧
    s.reach .read 0 (a &&& 0xFFFFFFFFFFFFFF#64) 8 8 [(0, 8)] j = .go u [(x.a, 8)]) ∨
  (bits a 63 60 = 3 ∧ bits a 59 0 = 0 ∧ u = s ∧ x = { kind := 3, a := b.toNat }) ∨
  (bits a 63 60 = 4 ∧ bits a 59 0 = 0 ∧ bits b 63 48 = 0 ∧ u = s ∧ x = { kind := 4, a := b.toNat }) ∨
  (bits a 63 60 = 5 ∧ bits a 59 16 = 0 ∧ bits b 63 24 = 0 ∧ u = s ∧ ∃ r, s.crec (bits a 15 0) = some r ∧
    (r.key = s.ctx.ask.toNat ∨ s.privileged = true) ∧ x = { kind := 5, a := bits a 15 0, b := s.capWave r.key (bits b 23 0) })

/-- The pairs ask for these conditions, in order. -/
def askAll (s : State) (j : Nat) : List (Word × Word) → State → List State.Cond → Prop
  | [], u, xs => u = s ∧ xs = []
  | p :: ps, u, xs => ∃ v x ys, asks s j p.1 p.2 v x ∧ askAll v (j + 1) ps u ys ∧ xs = x :: ys

/-- A step of an engine or of the host is taken with the effect `t`; it takes no time of its own. -/
def Steps (i : Instr) (s t : State) : Prop := exec i s = .next { t with free := t.free + 65536 }

/-- A context runs the activation of a message, and its registers are as R84 has them at the start. -/
def Starts (t : State) (x : Nat) (m : Msg) : Prop :=
  let c := t.ctxAt x
  c.st = .ready ∧ c.pc = m.entry.setWidth 56 ∧ c.tag = m.tag ∧ c.src = BitVec.ofNat 22 (m.srcPkg * 4096 + m.src) ∧ c.ord = BitVec.ofNat 48 m.ord ∧
    c.pri = BitVec.ofNat 2 m.cls ∧ c.ask = BitVec.ofNat 10 m.key ∧ c.act.entry = m.entry ∧ c.act.kind = m.kind ∧ c.act.count = m.payload.length ∧
    (∀ k < m.payload.length, SMap.get 0#64 c.g (k + 1) = m.payload.getD k 0#64) ∧ (∀ k, m.payload.length < k → SMap.get 0#64 c.g k = 0#64) ∧
    c.fpflags = 0#5 ∧ c.long = false ∧ c.v = [] ∧ c.k = [] ∧ c.trapvec = 0#64 ∧ c.inh = false

/-- The words `ws` of a unit at `va`, from word `k` on, are fetched one after another, and the fetches leave the state `u`. -/
def Fetches (va : Nat) (u : State) : Nat → List IWord → State → Prop
  | _, [], s => s = u
  | k, w :: ws, s => ∃ t, s.fetchWord (va + 4 * k) k = .word w t ∧ Fetches va u (k + 1) ws t

/-- The step issues a unit at the context `x` (R80, R81): nothing is pending, the dies have booted, `t` is the state in which `x` issues, and no
page verdict, cap, breakpoint, frame or unit in progress comes first. -/
def Issues (s t : State) (x : Nat) : Prop :=
  s.pkg.todo = [] ∧ s.plan.inputs = [] ∧ s.plan.events = [] ∧ s.booted = true ∧ (s.plan.quiet ≠ 0 ∨ s.due = none) ∧
    (let q := { s with plan := { s.plan with quiet := s.plan.quiet - 1 } }
     q.nextSite = some x ∧ t = (q.focus x).noteTurn) ∧
    ((t.ctx.wait.map (·.verdict)).getD 0) = 0 ∧ t.overrun = false ∧ t.ctx.wait.bind (·.gone) = none ∧ t.addressHit = none ∧ (t.ctx.frm.act = false ∨ t.ctx.susp = true) ∧ t.ctx.cur = none

/-- The rational number that a finite value is; 0 for a NaN or an infinity. -/
def exVal : Ex → Rat
  | .fin n a d e => (if n then -1 else 1) * ((a : Rat) / (d : Rat) * (2 : Rat) ^ e)
  | _ => 0

/-- The value of a magnitude's pattern (R52); beyond the largest finite pattern it goes on as if the exponent were unbounded (R58). -/
def magVal (f : Fmt) (b : Nat) : Rat :=
  let e := b / 2 ^ f.frac
  let x := b % 2 ^ f.frac
  if e = 0 then (x : Rat) * (2 : Rat) ^ (1 - (f.bias : Int) - (f.frac : Int))
  else ((2 ^ f.frac + x : Nat) : Rat) * (2 : Rat) ^ ((e : Int) - (f.bias : Int) - (f.frac : Int))

/-- The magnitude and the value of a finite pattern. -/
def patMag (f : Fmt) (b : Nat) : Nat := b % 2 ^ (f.width - 1)
def patVal (f : Fmt) (b : Nat) : Rat := (if b.testBit (f.width - 1) then -1 else 1) * magVal f (patMag f b)

/-- A mode moves a value of this sign away from zero: the nearest mode, where it must choose, is neither. -/
def awayFrom (r : Rm) (neg : Bool) : Bool := (r == .ru && !neg) || (r == .rd && neg)

/-- Of the neighbours lo < hi of a magnitude x between them, the mode takes the upper one; `even` says that a tie goes up. -/
def takesUpper (r : Rm) (neg even : Bool) (lo hi x : Rat) : Prop :=
  hi ≤ x ∨ (lo < x ∧ (awayFrom r neg = true ∨ (r = .rne ∧ ((lo + hi) / 2 < x ∨ ((lo + hi) / 2 = x ∧ even = true)))))

/-- Magnitude x > 0, rounded with the exponent unbounded, exceeds the largest finite value (R58). -/
def overflows (f : Fmt) (r : Rm) (neg : Bool) (x : Rat) : Prop :=
  takesUpper r neg (f.maxFin % 2 == 1) (magVal f f.maxFin) (magVal f (f.maxFin + 1)) x

/-- Magnitude x > 0 stays below the smallest normal value when it is rounded with the exponent unbounded (R59). -/
def tinyAfter (f : Fmt) (r : Rm) (neg : Bool) (x : Rat) : Prop :=
  let top := (2 : Rat) ^ (1 - (f.bias : Int))
  ¬takesUpper r neg true (top - (2 : Rat) ^ (-(f.bias : Int) - (f.frac : Int))) top x

/-- Pattern b of the sign `neg` is magnitude x > 0 rounded in the mode (R57): the nearest one, of two as near the even one, or the one on the side of
the mode. -/
def Rounds (f : Fmt) (r : Rm) (neg : Bool) (x : Rat) (b : Nat) : Prop :=
  let m := patMag f b
  b < 2 ^ f.width ∧ b.testBit (f.width - 1) = neg ∧
    ¬takesUpper r neg (m % 2 == 1) (magVal f m) (magVal f (m + 1)) x ∧
    (0 < m → takesUpper r neg (m % 2 == 0) (magVal f (m - 1)) (magVal f m) x)

/-- Integer i is the number x rounded in the mode (R57, R60). -/
def RoundsInt (r : Rm) (x : Rat) (i : Int) : Prop :=
  match r with
  | .rne => (i : Rat) - x ≤ 1 / 2 ∧ x - (i : Rat) ≤ 1 / 2 ∧ ((i : Rat) - x = 1 / 2 ∨ x - (i : Rat) = 1 / 2 → i % 2 = 0)
  | .ru => x ≤ (i : Rat) ∧ (i : Rat) < x + 1
  | .rd => (i : Rat) ≤ x ∧ x < (i : Rat) + 1
  | .rz => if 0 ≤ x then (i : Rat) ≤ x ∧ x < (i : Rat) + 1 else x ≤ (i : Rat) ∧ (i : Rat) < x + 1

/-- A finite value, with a denominator that is not zero. -/
def IsNumber : Ex → Prop
  | .fin _ _ d _ => 0 < d
  | _ => False

end Sys2Proof.Claims
end

