-- ==== Sys2Proof/Certificates/Slice0/Obligations.lean ====
section
/-! DEFINITION. The statements for the provers: what the rules of the spec say of the machine, each as a proposition about `exec` and `step`. -/

open Sys2Proof Sys2Proof.Machine Sys2Proof.Claims

/-! ## Registers -/

/-- R30 and R86: g0 and k0 read a constant and discard writes; a write of any other register is read back, and changes no other. -/
def Obligations.RegistersReadBack : Prop :=
  ∀ (s : State) (d r : BitVec 5) (j q : Nat) (x : Word) (y : BitVec 512) (z : BitVec 4096) (lat : Nat), j < 8 → q < 8 →
    (s.putG 0#5 x lat = s ∧ s.g 0#5 = 0#64 ∧ s.putK 0 y lat = s ∧ s.k 0 = BitVec.allOnes 512) ∧
    (s.putG d x lat).g r = (if r = d ∧ d ≠ 0#5 then x else s.g r) ∧
    (s.putK j y lat).k q = (if q = j ∧ j ≠ 0 then y else s.k q) ∧
    (s.putVShort d (z.setWidth 256) lat).v r = (if r = d then z.setWidth 256 else s.v r) ∧
    (s.putVLong d z lat).w r = (if r.toNat % 16 = d.toNat % 16 then z else s.w r)

/-! ## Scalar integer results -/

/-- R105: the table of ALU at 64 bits, without a MOD prefix.
R105: the table of ALUW: the low words at 32 bits, and the result sign-extended from bit 31. -/
def Obligations.AluResults : Prop :=
  (∀ (s : State) (stl : BitVec 3) (d a b : BitVec 5), Ready s (gs [a, b]) →
    let x := s.g a
    let y := s.g b
    let c := y.toNat % 64
    let is := fun (i : Instr) (z : Word) => Gives i s (unitDone s 1 stl (s.putG d z 1))
    is (.aluAdd Pre.none stl d a b) (x + y) ∧ is (.aluSub Pre.none stl d a b) (x - y) ∧
    is (.aluAnd stl d a b) (x &&& y) ∧ is (.aluOr stl d a b) (x ||| y) ∧ is (.aluXor stl d a b) (x ^^^ y) ∧
    is (.aluAndn stl d a b) (x &&& ~~~y) ∧ is (.aluOrn stl d a b) (x ||| ~~~y) ∧ is (.aluXnor stl d a b) (~~~(x ^^^ y)) ∧
    is (.aluShl stl d a b) (x <<< c) ∧ is (.aluShr stl d a b) (x >>> c) ∧ is (.aluSar stl d a b) (x.sshiftRight c) ∧
    is (.aluRol stl d a b) ((x <<< c) ||| (x >>> ((64 - c) % 64))) ∧ is (.aluRor stl d a b) ((x >>> c) ||| (x <<< ((64 - c) % 64))) ∧
    is (.aluSlt stl d a b) (if x.toInt < y.toInt then 1#64 else 0#64) ∧ is (.aluSltn stl d a b) (if x.toNat < y.toNat then 1#64 else 0#64) ∧
    is (.aluMin stl d a b) (BitVec.ofInt 64 (min x.toInt y.toInt)) ∧ is (.aluMax stl d a b) (BitVec.ofInt 64 (max x.toInt y.toInt)) ∧
    is (.aluMinn stl d a b) (BitVec.ofNat 64 (min x.toNat y.toNat)) ∧ is (.aluMaxn stl d a b) (BitVec.ofNat 64 (max x.toNat y.toNat)) ∧
    is (.aluAbsd Pre.none stl d a b) (BitVec.ofInt 64 (x.toInt - y.toInt).natAbs)) ∧
  (∀ (s : State) (stl : BitVec 3) (d a b : BitVec 5), Ready s (gs [a, b]) →
    let x : BitVec 32 := (s.g a).setWidth 32
    let y : BitVec 32 := (s.g b).setWidth 32
    let c := y.toNat % 32
    let is := fun (i : Instr) (z : BitVec 32) => Gives i s (unitDone s 1 stl (s.putG d (z.signExtend 64) 1))
    is (.aluwAdd Pre.none stl d a b) (x + y) ∧ is (.aluwSub Pre.none stl d a b) (x - y) ∧
    is (.aluwAnd stl d a b) (x &&& y) ∧ is (.aluwOr stl d a b) (x ||| y) ∧ is (.aluwXor stl d a b) (x ^^^ y) ∧
    is (.aluwAndn stl d a b) (x &&& ~~~y) ∧ is (.aluwOrn stl d a b) (x ||| ~~~y) ∧ is (.aluwXnor stl d a b) (~~~(x ^^^ y)) ∧
    is (.aluwShl stl d a b) (x <<< c) ∧ is (.aluwShr stl d a b) (x >>> c) ∧ is (.aluwSar stl d a b) (x.sshiftRight c) ∧
    is (.aluwRol stl d a b) ((x <<< c) ||| (x >>> ((32 - c) % 32))) ∧ is (.aluwRor stl d a b) ((x >>> c) ||| (x <<< ((32 - c) % 32))) ∧
    is (.aluwSlt stl d a b) (if x.toInt < y.toInt then 1#32 else 0#32) ∧ is (.aluwSltn stl d a b) (if x.toNat < y.toNat then 1#32 else 0#32) ∧
    is (.aluwMin stl d a b) (BitVec.ofInt 32 (min x.toInt y.toInt)) ∧ is (.aluwMax stl d a b) (BitVec.ofInt 32 (max x.toInt y.toInt)) ∧
    is (.aluwMinn stl d a b) (BitVec.ofNat 32 (min x.toNat y.toNat)) ∧ is (.aluwMaxn stl d a b) (BitVec.ofNat 32 (max x.toNat y.toNat)) ∧
    is (.aluwAbsd Pre.none stl d a b) (BitVec.ofInt 32 (x.toInt - y.toInt).natAbs))

/-- R106 and R107: MUL selects bits of the exact product; DIV truncates toward zero, a divisor 0 gives −1 and the dividend, nothing traps.
DIV's encoding: its functions, and what its words are otherwise. -/
def Obligations.MulDivResults : Prop :=
  ∀ (s : State) (stl : BitVec 3) (d a b : BitVec 5), Ready s (gs [a, b]) →
    let x := s.g a
    let y := s.g b
    let u : BitVec 32 := x.setWidth 32
    let v : BitVec 32 := y.setWidth 32
    let mul := fun (i : Instr) (z : Word) => Gives i s (unitDone s 1 stl (s.putG d z 3))
    let div := fun (i : Instr) (z : Word) => Gives i s (unitDone s 1 stl (s.putG d z))
    mul (.mulLo Pre.none stl d a b) (BitVec.ofInt 64 (x.toInt * y.toInt)) ∧
    mul (.mulHi stl d a b) (BitVec.ofInt 64 (x.toInt * y.toInt / 2 ^ 64)) ∧
    mul (.mulHin stl d a b) (BitVec.ofNat 64 (x.toNat * y.toNat / 2 ^ 64)) ∧
    mul (.mulHisn stl d a b) (BitVec.ofInt 64 (x.toInt * y.toNat / 2 ^ 64)) ∧
    mul (.mulW Pre.none stl d a b) ((BitVec.ofInt 32 (u.toInt * v.toInt)).signExtend 64) ∧
    mul (.mulWn stl d a b) (BitVec.ofNat 64 (u.toNat * v.toNat)) ∧
    div (.divQ stl d a b) (if y = 0#64 then BitVec.allOnes 64 else BitVec.ofInt 64 (x.toInt.tdiv y.toInt)) ∧
    div (.divQn stl d a b) (if y = 0#64 then BitVec.allOnes 64 else BitVec.ofNat 64 (x.toNat / y.toNat)) ∧
    div (.divRem stl d a b) (if y = 0#64 then x else BitVec.ofInt 64 (x.toInt.tmod y.toInt)) ∧
    div (.divRemn stl d a b) (if y = 0#64 then x else BitVec.ofNat 64 (x.toNat % y.toNat)) ∧
    div (.divQw stl d a b) ((if v = 0#32 then BitVec.allOnes 32 else BitVec.ofInt 32 (u.toInt.tdiv v.toInt)).signExtend 64) ∧
    div (.divQnw stl d a b) ((if v = 0#32 then BitVec.allOnes 32 else BitVec.ofNat 32 (u.toNat / v.toNat)).signExtend 64) ∧
    div (.divRemw stl d a b) ((if v = 0#32 then u else BitVec.ofInt 32 (u.toInt.tmod v.toInt)).signExtend 64) ∧
    div (.divRemnw stl d a b) ((if v = 0#32 then u else BitVec.ofNat 32 (u.toNat % v.toNat)).signExtend 64) ∧
    ∀ (long : Bool) (f : BitVec 7) (m : IWord),
      let w := fun (f : BitVec 7) => 4#7 ++ stl ++ d ++ a ++ b ++ f
      let dec := fun (f : BitVec 7) (i : Instr) => decodeUnit long [w f] = .ok i
      dec 0#7 (.divQ stl d a b) ∧ dec 1#7 (.divQn stl d a b) ∧ dec 2#7 (.divRem stl d a b) ∧ dec 3#7 (.divRemn stl d a b) ∧
      dec 4#7 (.divQw stl d a b) ∧ dec 5#7 (.divQnw stl d a b) ∧ dec 6#7 (.divRemw stl d a b) ∧ dec 7#7 (.divRemnw stl d a b) ∧
      (8 ≤ f.toNat → decodeUnit long [w f] = .bad .illegalFunction 0 (w f)) ∧
      (isModWord m = true → m.setWidth 11 = 0#11 → decodeUnit long [m, w f] = .bad .illegalFunction 1 (w f))

/-- R104, R38 and R91: under a MOD prefix the functions that honour one take their sources as signed integers of the entry's width, apply the
prefix to the exact result, and take one cycle more.
R109: CMOV writes g[rd] when its condition on b holds, and leaves its value alone otherwise; either way it completes with CMOV's latency, one
more under a MOD prefix (that a move not made has the latency too is the model's reading, log entry 78). -/
def Obligations.ScalarModResults : Prop :=
  (∀ (s : State) (p : Pre) (m : Mod) (stl : BitVec 3) (d a b : BitVec 5), p.mod = some m → Ready s (gs [a, b]) →
    let sx := fun (v : Int) => (if m.nega then -1 else 1) * (if m.absa then (v.natAbs : Int) else v)
    let sy := fun (v : Int) => (if m.negb then -1 else 1) * (if m.absb then (v.natAbs : Int) else v)
    let x := sx (s.g a).toInt
    let y := sy (s.g b).toInt
    let u := sx ((s.g a).setWidth 32).toInt
    let v := sy ((s.g b).setWidth 32).toInt
    let is := fun (i : Instr) (z : Word) (lat : Nat) => Gives i s (unitDone s (1 + p.words) stl (s.putG d z lat))
    is (.aluAdd p stl d a b) (modInt true 64 (some m) (x + y)) 2 ∧ is (.aluSub p stl d a b) (modInt true 64 (some m) (x - y)) 2 ∧
    is (.aluAbsd p stl d a b) (modInt true 64 (some m) ((x - y).natAbs : Int)) 2 ∧
    is (.aluwAdd p stl d a b) ((modInt true 32 (some m) (u + v)).signExtend 64) 2 ∧
    is (.aluwSub p stl d a b) ((modInt true 32 (some m) (u - v)).signExtend 64) 2 ∧
    is (.aluwAbsd p stl d a b) ((modInt true 32 (some m) ((u - v).natAbs : Int)).signExtend 64) 2 ∧
    is (.mulLo p stl d a b) (modInt true 64 (some m) (x * y)) 4 ∧
    is (.mulW p stl d a b) ((modInt true 32 (some m) (u * v)).signExtend 64) 4) ∧
  (∀ (s : State) (p : Pre) (stl : BitVec 3) (d a b : BitVec 5), Ready s (gs [a, b]) →
    let y := s.g b
    let z := match p.mod with
      | none => s.g a
      | some m => modInt true 64 (some m) ((if m.nega then -1 else 1) * (if m.absa then ((s.g a).toInt.natAbs : Int) else (s.g a).toInt))
    let is := fun (i : Instr) (c : Prop) [Decidable c] =>
      Gives i s (unitDone s (1 + p.words) stl (s.putG d (if c then z else s.g d) (1 + modLat p)))
    is (.cmovNz p stl d a b) (y ≠ 0#64) ∧ is (.cmovZ p stl d a b) (y = 0#64) ∧
    is (.cmovLt p stl d a b) (y.toInt < 0) ∧ is (.cmovGe p stl d a b) (0 ≤ y.toInt))

/-- R108: the functions of BIT and their encodings. CLZ and CTZ are said by the run of zeros they count, POPC by the bits. -/
def Obligations.BitResults : Prop :=
  ∀ (s : State) (stl : BitVec 3) (d a b : BitVec 5), Ready s (gs [a, b]) →
    let x := s.g a
    let p := (s.g b).toNat % 64
    let n := (s.g b).toNat / 256 % 64 + 1
    let is := fun (i : Instr) (z : Word) => Gives i s (unitDone s 1 stl (s.putG d z 1))
    let m : Word := BitVec.ofNat 64 ((2 ^ n - 1) * 2 ^ p)
    (∃ k : Nat, k ≤ 64 ∧ (∀ q < k, x.getLsbD (63 - q) = false) ∧ (k < 64 → x.getLsbD (63 - k) = true) ∧
      is (.bitClz stl d a) (BitVec.ofNat 64 k)) ∧
    (∃ k : Nat, k ≤ 64 ∧ (∀ q < k, x.getLsbD q = false) ∧ (k < 64 → x.getLsbD k = true) ∧ is (.bitCtz stl d a) (BitVec.ofNat 64 k)) ∧
    is (.bitPopc stl d a) (BitVec.ofNat 64 ((List.range 64).countP fun q => x.getLsbD q)) ∧
    is (.bitBrev stl d a) x.reverse ∧ is (.bitBswap stl d a) (bswap x) ∧
    is (.bitSext8 stl d a) ((x.setWidth 8).signExtend 64) ∧ is (.bitSext16 stl d a) ((x.setWidth 16).signExtend 64) ∧
    is (.bitSext32 stl d a) ((x.setWidth 32).signExtend 64) ∧ is (.bitZext8 stl d a) (x &&& 0xFF#64) ∧
    is (.bitZext16 stl d a) (x &&& 0xFFFF#64) ∧ is (.bitZext32 stl d a) (x &&& 0xFFFFFFFF#64) ∧
    is (.bitExtr stl d a b) (((x.sshiftRight p).setWidth n).signExtend 64) ∧ is (.bitExtrn stl d a b) (((x >>> p).setWidth n).setWidth 64) ∧
    (Ready s (gs [d]) → is (.bitDep stl d a b) ((s.g d &&& ~~~m) ||| ((x <<< p) &&& m))) ∧
    ∀ (long : Bool) (f : BitVec 7) (c : IWord),
      let w := fun (b : BitVec 5) (f : BitVec 7) => 5#7 ++ stl ++ d ++ a ++ b ++ f
      let dec := fun (b : BitVec 5) (f : BitVec 7) (i : Instr) => decodeUnit long [w b f] = .ok i
      dec 0#5 0#7 (.bitClz stl d a) ∧ dec 0#5 1#7 (.bitCtz stl d a) ∧ dec 0#5 2#7 (.bitPopc stl d a) ∧ dec 0#5 3#7 (.bitBrev stl d a) ∧
      dec 0#5 4#7 (.bitBswap stl d a) ∧ dec 0#5 5#7 (.bitSext8 stl d a) ∧ dec 0#5 6#7 (.bitSext16 stl d a) ∧ dec 0#5 7#7 (.bitSext32 stl d a) ∧
      dec 0#5 8#7 (.bitZext8 stl d a) ∧ dec 0#5 9#7 (.bitZext16 stl d a) ∧ dec 0#5 10#7 (.bitZext32 stl d a) ∧
      dec b 11#7 (.bitExtr stl d a b) ∧ dec b 12#7 (.bitExtrn stl d a b) ∧ dec b 13#7 (.bitDep stl d a b) ∧
      (14 ≤ f.toNat → decodeUnit long [w b f] = .bad .illegalFunction 0 (w b f)) ∧
      (f.toNat < 11 → b ≠ 0#5 → decodeUnit long [w b f] = .bad .reservedField 0 (w b f)) ∧
      (isModWord c = true → c.setWidth 11 = 0#11 → decodeUnit long [c, w b f] = .bad .illegalFunction 1 (w b f))

/-- R110 to R113: the immediates, the shifts by an immediate, the literals and ADPC. -/
def Obligations.ImmediateResults : Prop :=
  ∀ (s : State) (stl : BitVec 3) (d a : BitVec 5) (i : BitVec 12) (w : BitVec 1) (h : BitVec 6) (lit : BitVec 32) (o : BitVec 17),
    Ready s (gs [a]) →
    let x := s.g a
    let u : BitVec 32 := x.setWidth 32
    let is := fun (n : Nat) (i : Instr) (z : Word) => Gives i s (unitDone s n stl (s.putG d z 1))
    let sh := fun (f : Nat → Word) (g : Nat → BitVec 32) => if w = 1#1 then (g (h.toNat % 32)).signExtend 64 else f h.toNat
    is 1 (.addi stl d a i) (x + i.signExtend 64) ∧ is 1 (.andi stl d a i) (x &&& i.signExtend 64) ∧
    is 1 (.ori stl d a i) (x ||| i.setWidth 64) ∧ is 1 (.xori stl d a i) (x ^^^ i.setWidth 64) ∧
    is 1 (.slti stl d a i) (if x.toInt < i.toInt then 1#64 else 0#64) ∧ is 1 (.sltin stl d a i) (if x.toNat < i.toNat then 1#64 else 0#64) ∧
    is 1 (.shiShl stl d a w h) (sh (x <<< ·) (u <<< ·)) ∧ is 1 (.shiShr stl d a w h) (sh (x >>> ·) (u >>> ·)) ∧
    is 1 (.shiSar stl d a w h) (sh x.sshiftRight u.sshiftRight) ∧ is 1 (.shiRor stl d a w h) (sh x.rotateRight u.rotateRight) ∧
    is 2 (.lil stl d lit) (lit.signExtend 64) ∧
    (Ready s (gs [d]) → is 2 (.lih stl d lit) (lit ++ (s.g d).setWidth 32)) ∧
    is 1 (.adpc stl d o) (s.ctx.pc.setWidth 64 + (o.signExtend 64) * 4#64)

/-- R103: a scalar register instruction writes g[rd] and nothing else; it raises no FPFLAGS bit and touches no memory. The one trap of these
instructions is STALL_SHORT, with checking on (R33); a source that the scoreboard tracks stalls it, with no effect (R32). -/
def Obligations.ScalarFrame : Prop :=
  ∀ (i : Instr) (d : BitVec 5) (s t : State), scalarDest i = some d → exec i s = .next t →
    (s.ctx.chksb = true ∧ ∃ f r, t = trapped s 0x04#8 (State.stallVal f r)) ∨
    (∃ u, s.cycle < u ∧ t = s.stallFor u) ∨
    (Outside s t ∧ (∀ r : BitVec 5, r ≠ d → t.g r = s.g r) ∧ t.g 0#5 = 0#64 ∧ t.ctx.v = s.ctx.v ∧ t.ctx.w = s.ctx.w ∧ t.ctx.k = s.ctx.k ∧
      t.ctx.fpflags = s.ctx.fpflags ∧ Specials s.ctx t.ctx ∧ t.ctx.units = s.ctx.units + 1 ∧
      ∀ a : Nat, t.byte a = s.byte a)

/-! ## Control transfer -/

/-- R114 to R117: a branch adds 4 × its offset to the program counter when it is taken and falls through otherwise; LOOP also decrements; JAL
and JALR link. JALR's target must be aligned and in range, or MISALIGNED is raised with nothing written. -/
def Obligations.ControlTransfer : Prop :=
  ∀ (s : State) (stl : BitVec 3) (d a b : BitVec 5) (o : BitVec 12) (w : BitVec 17), Ready s (gs [a, b]) →
    let x := s.g a
    let y := s.g b
    let dest := fun (c : Prop) [Decidable c] => if c then s.ctx.pc + o.signExtend 56 * 4#56 else s.ctx.pc + 4#56
    let is := fun (i : Instr) (c : Prop) [Decidable c] => Gives i s (unitJump s stl s (dest c))
    let link : Word := (s.ctx.pc + 4#56).setWidth 64
    let t := x + o.signExtend 64
    is (.beq stl a b o) (x = y) ∧ is (.bne stl a b o) (x ≠ y) ∧ is (.blt stl a b o) (x.toInt < y.toInt) ∧
    is (.bge stl a b o) (y.toInt ≤ x.toInt) ∧ is (.bltn stl a b o) (x.toNat < y.toNat) ∧ is (.bgen stl a b o) (y.toNat ≤ x.toNat) ∧
    Gives (.loop stl a b o) s (unitJump s stl (s.putG a (x - 1#64)) (dest (x - 1#64 ≠ y))) ∧
    Gives (.jal stl d w) s (unitJump s stl (s.putG d link 1) (s.ctx.pc + w.signExtend 56 * 4#56)) ∧
    Gives (.jalr stl d a o) s
      (if t.toNat % 4 = 0 ∧ t.toNat < 2 ^ 56 then unitJump s stl (s.putG d link 1) (t.setWidth 56) else trapped s 0x06#8 t) ∧
    ∀ long : Bool,
      let dec := fun (w : IWord) (i : Instr) => decodeUnit long [w] = .ok i
      dec (0x11#7 ++ stl ++ a ++ b ++ o) (.beq stl a b o) ∧ dec (0x12#7 ++ stl ++ a ++ b ++ o) (.bne stl a b o) ∧
      dec (0x13#7 ++ stl ++ a ++ b ++ o) (.blt stl a b o) ∧ dec (0x14#7 ++ stl ++ a ++ b ++ o) (.bge stl a b o) ∧
      dec (0x15#7 ++ stl ++ a ++ b ++ o) (.bltn stl a b o) ∧ dec (0x16#7 ++ stl ++ a ++ b ++ o) (.bgen stl a b o) ∧
      dec (0x1C#7 ++ stl ++ a ++ b ++ o) (.loop stl a b o) ∧ dec (0x17#7 ++ stl ++ d ++ w) (.jal stl d w) ∧
      dec (0x18#7 ++ stl ++ d ++ a ++ o) (.jalr stl d a o)

/-! ## Vector results -/

/-- R104, R131, R133 and R135: the lane functions of VADDI and VMULI: exact on the lanes read by the type's signedness, then the wrap, or the
MOD prefix of R38.
R134: the lane functions of VLOGI on patterns; counts are taken modulo the width. -/
def Obligations.VectorIntegerResults : Prop :=
  (∀ (s : State) (p : Pre) (stl : BitVec 3) (d a b : BitVec 5) (e : BitVec 3), Ready s (vs s p [a, b]) →
    let n := intBits e
    let sg := intSigned e
    let rd := fun (r : BitVec 5) (j : Nat) => if sg then (lane n (s.vcur r) j).toInt else ((lane n (s.vcur r) j).toNat : Int)
    let is := fun (i : Instr) (short long : Nat) (f : Int → Int → Int → Int) => LaneWrites i s p stl d n short long fun j =>
      (match p.mod with
       | none => BitVec.ofInt n (f (rd a j) (rd b j) (rd d j))
       | some m =>
         modInt sg n (some m) (f ((if m.nega then -1 else 1) * (if m.absa then ((rd a j).natAbs : Int) else rd a j))
           ((if m.negb then -1 else 1) * (if m.absb then ((rd b j).natAbs : Int) else rd b j)) (rd d j)), 0#5)
    is (.vaddiAdd p stl d a b e) 2 6 (fun x y _ => x + y) ∧ is (.vaddiSub p stl d a b e) 2 6 (fun x y _ => x - y) ∧
    is (.vaddiMin p stl d a b e) 2 6 (fun x y _ => if x ≤ y then x else y) ∧ is (.vaddiMax p stl d a b e) 2 6 (fun x y _ => if x ≤ y then y else x) ∧
    is (.vaddiAbsd p stl d a b e) 2 6 (fun x y _ => ((x - y).natAbs : Int)) ∧ is (.vaddiAvg p stl d a b e) 2 6 (fun x y _ => (x + y + 1) / 2) ∧
    is (.vaddiNeg p stl d a e) 2 6 (fun x _ _ => -x) ∧ is (.vaddiAbs p stl d a e) 2 6 (fun x _ _ => (x.natAbs : Int)) ∧
    is (.vmuliLo p stl d a b e) 4 8 (fun x y _ => x * y) ∧ is (.vmuliHi p stl d a b e) 4 8 (fun x y _ => x * y / 2 ^ n) ∧
    (Ready s (vs s Pre.none [d]) →
      is (.vmuliMac p stl d a b e) 4 8 (fun x y z => z + x * y) ∧ is (.vmuliMsb p stl d a b e) 4 8 (fun x y z => z - x * y))) ∧
  (∀ (s : State) (p : Pre) (stl : BitVec 3) (d a b : BitVec 5) (e : BitVec 3), Ready s (vs s p [a, b]) →
    let n := intBits e
    let is := fun (i : Instr) (f : BitVec n → BitVec n → BitVec n) => LaneWrites i s p stl d n 2 6 fun j => (f (lane n (s.vcur a) j) (lane n (s.vcur b) j), 0#5)
    is (.vlogiAnd p stl d a b e) (fun x y => x &&& y) ∧ is (.vlogiOr p stl d a b e) (fun x y => x ||| y) ∧
    is (.vlogiXor p stl d a b e) (fun x y => x ^^^ y) ∧ is (.vlogiAndn p stl d a b e) (fun x y => x &&& ~~~y) ∧
    is (.vlogiShl p stl d a b e) (fun x y => x <<< (y.toNat % n)) ∧ is (.vlogiShr p stl d a b e) (fun x y => x >>> (y.toNat % n)) ∧
    is (.vlogiSar p stl d a b e) (fun x y => x.sshiftRight (y.toNat % n)) ∧
    is (.vlogiRol p stl d a b e) (fun x y => (x <<< (y.toNat % n)) ||| (x >>> ((n - y.toNat % n) % n))) ∧
    is (.vlogiRor p stl d a b e) (fun x y => (x >>> (y.toNat % n)) ||| (x <<< ((n - y.toNat % n) % n))) ∧
    is (.vlogiNot p stl d a e) (fun x _ => ~~~x) ∧
    is (.vlogiPopc p stl d a e) (fun x _ => BitVec.ofNat n ((List.range n).countP fun q => x.getLsbD q)) ∧
    is (.vlogiClz p stl d a e) (fun x _ => BitVec.ofNat n (clz x)))

/-- R136 and R139: comparisons into a mask register; the E2M1 form of VCMPF ands the two lanes of a byte, and an ordered comparison raises NV
on any NaN. What `cmpFloat` says of two values is stated in `LaneLaws`. -/
def Obligations.VectorCompareResults : Prop :=
  ∀ (s : State) (p : Pre) (stl : BitVec 3) (d a b : BitVec 5) (e : BitVec 3), Ready s (vs s p [a, b]) →
    let n := intBits e
    let rd := fun (r : BitVec 5) (j : Nat) => if intSigned e then (lane n (s.vcur r) j).toInt else ((lane n (s.vcur r) j).toNat : Int)
    let is := fun (i : Instr) (f : Int → Int → Bool) => BitWrites i s p stl d (s.lanes n) 2 6 (fun j => f (rd a j) (rd b j)) 0#5
    let t := fmtOf e
    let w := t.width
    let x := fun (j : Nat) => fval t (s.vcur a) j
    let y := fun (j : Nat) => fval t (s.vcur b) j
    let fl := fun (i : Instr) (c : CmpFn) =>
      ∃ ev : Flags, BitWrites i s p stl d (if t = .e2m1 then s.lanes w / 2 else s.lanes w) 4 8
        (fun j => if t = .e2m1 then (cmpFloat c (x (2 * j)) (y (2 * j))).1 && (cmpFloat c (x (2 * j + 1)) (y (2 * j + 1))).1 else (cmpFloat c (x j) (y j)).1) ev ∧
        evOf (s.lanes w) (fun j => if activeLane (maskNow s p) w j then (cmpFloat c (x j) (y j)).2 else 0#5) ev
    is (.vcmpiEq p stl d a b e) (fun x y => decide (x = y)) ∧ is (.vcmpiNe p stl d a b e) (fun x y => !decide (x = y)) ∧
    is (.vcmpiLt p stl d a b e) (fun x y => decide (x < y)) ∧ is (.vcmpiLe p stl d a b e) (fun x y => decide (x ≤ y)) ∧
    is (.vcmpiGt p stl d a b e) (fun x y => decide (y < x)) ∧ is (.vcmpiGe p stl d a b e) (fun x y => decide (y ≤ x)) ∧
    fl (.vcmpfEq p stl d a b e) .eq ∧ fl (.vcmpfNe p stl d a b e) .ne ∧ fl (.vcmpfLt p stl d a b e) .lt ∧ fl (.vcmpfLe p stl d a b e) .le ∧
    fl (.vcmpfGt p stl d a b e) .gt ∧ fl (.vcmpfGe p stl d a b e) .ge ∧ fl (.vcmpfUn p stl d a b e) .un

/-- R137, R138, R140 and R143: the float lane functions: the exact function of the lanes, rounded once with the MOD prefix in R38's order; what these functions
and the rounding do is stated in `LaneLaws` and `RoundingLaws`. Which result within its error bound a special function has is the model's free value (log entry 8). -/
def Obligations.VectorFloatResults : Prop :=
  ∀ (s : State) (p : Pre) (stl : BitVec 3) (d a b : BitVec 5) (e : BitVec 3), Ready s (vs s p [a, b]) →
    let t := fmtOf e
    let x := fun (j : Nat) => let v := fval t (s.vcur a) j; match p.mod with | some m => modSrc m.absa m.nega v | none => v
    let y := fun (j : Nat) => let v := fval t (s.vcur b) j; match p.mod with | some m => modSrc m.absb m.negb v | none => v
    let z := fun (j : Nat) => fval t (s.vcur d) j
    let is := fun (i : Instr) (f : Nat → Ex) =>
      LaneWrites i s p stl d t.width 4 8 fun j => let r := modFloat t p.mod (f j); (BitVec.ofNat t.width r.1, r.2)
    let sfu := fun (i : Instr) (f : Sfu) =>
      LaneWrites i s p stl d t.width 10 16 fun j => let r := sfuLane f t p.mod (lane t.width (s.vcur a) j).toNat; (BitVec.ofNat t.width r.1, r.2)
    let g := 32 / t.width
    let dot := fun (j : Nat) => (upto 0 g).map fun k => (fval t (s.vcur a) (j * g + k)).mul (fval t (s.vcur b) (j * g + k))
    let dots := fun (i : Instr) (f : Nat → Ex) => LaneWrites i s p stl d 32 5 10 fun j => let r := modFloat .f32 p.mod (f j); (BitVec.ofNat 32 r.1, r.2)
    let doti := fun (w j : Nat) => (upto 0 (32 / w)).foldl (fun t k => t + (lane w (s.vcur a) (j * (32 / w) + k)).toInt * (lane w (s.vcur b) (j * (32 / w) + k)).toInt) 0
    let is32 := fun (i : Instr) (f : Nat → Int) => LaneWrites i s p stl d 32 5 10 fun j => (modInt true 32 p.mod (f j), 0#5)
    is (.vaddfAdd p stl d a b e) (fun j => (x j).add (y j)) ∧ is (.vaddfSub p stl d a b e) (fun j => (x j).add (y j).neg) ∧
    is (.vaddfMin p stl d a b e) (fun j => (x j).min2 (y j)) ∧ is (.vaddfMax p stl d a b e) (fun j => (x j).max2 (y j)) ∧
    is (.vmulfMul p stl d a b e) (fun j => (x j).mul (y j)) ∧
    sfu (.vsfuRcp p stl d a e) .rcp ∧ sfu (.vsfuRsqrt p stl d a e) .rsqrt ∧ sfu (.vsfuSqrt p stl d a e) .sqrt ∧ sfu (.vsfuExp2 p stl d a e) .exp2 ∧
    sfu (.vsfuLog2 p stl d a e) .log2 ∧ sfu (.vsfuExp p stl d a e) .exp ∧ sfu (.vsfuLn p stl d a e) .ln ∧ sfu (.vsfuSinpi p stl d a e) .sinpi ∧
    sfu (.vsfuCospi p stl d a e) .cospi ∧ sfu (.vsfuTanh p stl d a e) .tanh ∧ sfu (.vsfuSigm p stl d a e) .sigm ∧ sfu (.vsfuSilu p stl d a e) .silu ∧
    dots (.vdot p stl d a b e) (fun j => Ex.sum (dot j)) ∧ is32 (.vdotI8 p stl d a b) (doti 8) ∧ is32 (.vdotI4 p stl d a b) (doti 4) ∧
    (Ready s (vs s Pre.none [d]) →
      is (.vmulfFma p stl d a b e) (fun j => (x j).fma (y j) (z j)) ∧ is (.vmulfFms p stl d a b e) (fun j => (x j).fma (y j) (z j).neg) ∧
      dots (.vdotAcc p stl d a b e) (fun j => Ex.sum (dot j ++ [fval .f32 (s.vcur d) j])) ∧
      is32 (.vdotAccI8 p stl d a b) (fun j => doti 8 j + (lane 32 (s.vcur d) j).toInt) ∧
      is32 (.vdotAccI4 p stl d a b) (fun j => doti 4 j + (lane 32 (s.vcur d) j).toInt))

/-- R141, R142 and R149: VCVT converts as many elements as the wider type has lanes and leaves the rest of the register zero; VQNT writes the codes,
the scales and the zero points of its groups; what the rounding does is stated in `RoundingLaws`. That the mask bit of a conversion between two 4-bit types
governs a byte (`on`) is the model's choice (log entry 15).
R68 and R144: reductions of the active lanes into a g register: floats along the FP32 tree, with the identity at inactive leaves; integers
exactly, then the MOD prefix and the extension of the type. -/
def Obligations.VectorConvertResults : Prop :=
  (∀ (s : State) (p : Pre) (stl : BitVec 3) (d a : BitVec 5) (sat yi ii : BitVec 1) (t e : BitVec 3) (m g : BitVec 2), Ready s (vs s p [a]) →
    let src := CvtTy.of yi t
    let dst := CvtTy.of ii e
    let n := s.vbits / max src.width dst.width
    let on := fun (j : Nat) => if src.width = 4 ∧ dst.width = 4 then (maskNow s p).getLsbD (j / 2) else (maskNow s p).getLsbD j
    let k : Int := match p.mod with | some md => md.scale.toInt | none => 0
    let r := fun (j : Nat) => convert src dst (cvtMode m) (sat == 1#1) k (lane src.width (s.vcur a) j).toNat
    let size := 32 * 2 ^ g.toNat
    let w := if e = 6#3 then 8 else 4
    let q := fun (c : Nat) => quantGroup (2 ^ w - 1) ((upto (c * size) size).map fun i => ((maskNow s p).getLsbD i, fval .f32 (s.vcur a) i))
    (∃ (x : BitVec 4096) (fl : Flags), Gives (.vcvt p stl d a sat yi t e ii m) s (unitDone s (1 + p.words) stl ((s.putV d x (s.vlat p 3 7)).raise fl)) ∧
      (∀ j, lane dst.width x j = if j < n then (if on j then BitVec.ofNat dst.width (r j).1 else lane dst.width (s.vcur d) j) else 0#dst.width) ∧
      evOf n (fun j => if on j then (r j).2 else 0#5) fl) ∧
    (∃ (x : BitVec 4096) (fl : Flags), Gives (.vqnt p stl d a e g) s (unitDone s (1 + p.words) stl ((s.putV d x (s.vlat p 6 12)).raise fl)) ∧
      (∀ c < 128 / size, lane 16 x (128 + c) = BitVec.ofNat 16 (q c).1 ∧ lane 8 x (264 + c) = BitVec.ofNat 8 (q c).2.1 ∧
        ∀ i < size, lane w x (c * size + i) = BitVec.ofNat w ((q c).2.2.1.getD i 0)) ∧
      evOf (128 / size) (fun c => (q c).2.2.2) fl)) ∧
  (∀ (s : State) (p : Pre) (stl : BitVec 3) (d a : BitVec 5) (e : BitVec 3), Ready s (vs s p [a]) →
    let t := fmtOf e
    let m := maskNow s p
    let leaf := fun (ident : BitVec 32) (i : Nat) => if !activeLane m t.width i then (ident, 0#5)
      else if t = .f32 then (lane 32 (s.vcur a) i, 0#5) else (let r := roundEx .f32 .rne false (fval t (s.vcur a) i); (BitVec.ofNat 32 r.1, r.2))
    let fl := fun (i : Instr) (op : Ex → Ex → Ex) (ident : BitVec 32) =>
      let ls := (upto 0 (s.lanes t.width)).map (leaf ident)
      let root := treeRoot op (ls.map (·.1))
      let r := modFloat t p.mod (f32Val root.1)
      Gives i s (unitDone s (1 + p.words) stl ((s.putG d (BitVec.ofNat 64 r.1) (s.vlat p 6 12)).raise (ls.foldl (fun f l => f ||| l.2) 0#5 ||| root.2 ||| r.2)))
    let n := intBits e
    let sg := intSigned e
    let rd := fun (j : Nat) => if sg then (lane n (s.vcur a) j).toInt else ((lane n (s.vcur a) j).toNat : Int)
    let act := (List.range (s.lanes n)).filter fun j => m.getLsbD j
    let pat := fun (j : Nat) => lane n (s.vcur a) j
    let put := fun (i : Instr) (x : Int) => let r := modInt sg n p.mod x
      Gives i s (unitDone s (1 + p.words) stl (s.putG d (if sg then r.signExtend 64 else r.setWidth 64) (s.vlat p 6 12)))
    let asInt := fun (x : BitVec n) => if sg then x.toInt else (x.toNat : Int)
    let least : Int := if sg then -(2 ^ (n - 1)) else 0
    let most : Int := if sg then 2 ^ (n - 1) - 1 else 2 ^ n - 1
    fl (.vredSum p stl d a e) Ex.add 0x80000000#32 ∧ fl (.vredMax p stl d a e) Ex.max2 0xFF800000#32 ∧ fl (.vredMin p stl d a e) Ex.min2 0x7F800000#32 ∧
    put (.vredSumi p stl d a e) (act.foldl (fun x j => x + rd j) 0) ∧ put (.vredMaxi p stl d a e) (act.foldl (fun x j => max x (rd j)) least) ∧
    put (.vredMini p stl d a e) (act.foldl (fun x j => min x (rd j)) most) ∧
    put (.vredAndi p stl d a e) (asInt (act.foldl (fun x j => x &&& pat j) (BitVec.allOnes n))) ∧
    put (.vredOri p stl d a e) (asInt (act.foldl (fun x j => x ||| pat j) 0#n)) ∧ put (.vredXori p stl d a e) (asInt (act.foldl (fun x j => x ^^^ pat j) 0#n)))

/-- R145 and R146: permutations and moves of lanes. VPERM.CMPR packs the lanes that the mask selects and zeroes the rest.
R147: the functions of KMASK. -/
def Obligations.VectorMoveResults : Prop :=
  (∀ (s : State) (p : Pre) (stl : BitVec 3) (d a b c : BitVec 5) (e : BitVec 3), Ready s (vs s p [a, b]) →
    let n := intBits e
    let cnt := s.lanes n
    let x := fun (j : Nat) => lane n (s.vcur a) j
    let y := fun (j : Nat) => lane n (s.vcur b) j
    let z := fun (j : Nat) => lane n (s.vcur d) j
    let is := fun (i : Instr) (f : Nat → BitVec n) => LaneWrites i s p stl d n 3 7 fun j => (f j, 0#5)
    let w := floatBits e
    let mv := fun (i : Instr) (f : Nat → BitVec w) => LaneWrites i s p stl d w 2 6 fun j => (f j, 0#5)
    let sel := (List.range cnt).filter fun j => (maskNow s p).getLsbD j
    is (.vpermTbl p stl d a b e) (fun j => if (y j).toNat < cnt then x (y j).toNat else 0#n) ∧
    is (.vpermBcast p stl d a c e) (fun _ => if c.toNat < cnt then x c.toNat else 0#n) ∧
    is (.vpermSlup p stl d a c e) (fun j => if c.toNat ≤ j then x (j - c.toNat) else 0#n) ∧
    is (.vpermSldn p stl d a c e) (fun j => if j + c.toNat < cnt then x (j + c.toNat) else 0#n) ∧
    is (.vpermZiplo p stl d a b e) (fun j => if j % 2 = 0 then x (j / 2) else y (j / 2)) ∧
    is (.vpermZiphi p stl d a b e) (fun j => if j % 2 = 0 then x (cnt / 2 + j / 2) else y (cnt / 2 + j / 2)) ∧
    is (.vpermUnze p stl d a b e) (fun j => if j < cnt / 2 then x (2 * j) else y (2 * (j - cnt / 2))) ∧
    is (.vpermUnzo p stl d a b e) (fun j => if j < cnt / 2 then x (2 * j + 1) else y (2 * (j - cnt / 2) + 1)) ∧
    is (.vpermRev p stl d a e) (fun j => x (cnt - 1 - j)) ∧
    (∃ r : BitVec 4096, Gives (.vpermCmpr p stl d a e) s (unitDone s (1 + p.words) stl (s.putV d r (s.vlat p 3 7))) ∧
      ∀ j < cnt, lane n r j = match sel[j]? with | some i => x i | none => 0#n) ∧
    (Ready s (vs s Pre.none [d]) → is (.vpermTbl2 p stl d a b e)
      (fun j => let i := (y j).toNat; if i < cnt then x i else if i < 2 * cnt then z (i - cnt) else 0#n)) ∧
    mv (.vmov p stl d a e) (fun j => lane w (s.vcur a) j) ∧
    (Ready s (gs [c]) → mv (.vmovBcg p stl d c e) (fun _ => (s.g c).setWidth w)) ∧
    (Ready s (gs [c]) → mv (.vmovInsg p stl d c b e) (fun j => if j = b.toNat then (s.g c).setWidth w else lane w (s.vcur d) j)) ∧
    Gives (.vmovExtg p stl d a c e) s
      (unitDone s (1 + p.words) stl (s.putG d (if c.toNat < s.lanes w then (lane w (s.vcur a) c.toNat).setWidth 64 else 0#64) (s.vlat p 2 6))) ∧
    (Ready s [(.v, a.toNat)] → ∃ r : BitVec 4096,
      Gives (.vmovGetv p stl d a e) s (unitDone s (1 + p.words) stl (s.putVLong d r (s.vlat p 2 6))) ∧ r >>> 256 = (s.w d) >>> 256 ∧
      ∀ j < 256 / w, lane w r j = if activeLane (maskNow s p) w j then lane w ((s.v a).setWidth 4096) j else lane w (s.w d) j) ∧
    (Ready s [(.w, a.toNat)] → ∃ r : BitVec 256,
      Gives (.vmovSetv p stl d a e) s (unitDone s (1 + p.words) stl (s.putVShort d r (s.vlat p 2 6))) ∧
      ∀ j < 256 / w, lane w (r.setWidth 4096) j = if activeLane (maskNow s p) w j then lane w (s.w a) j else lane w ((s.v d).setWidth 4096) j)) ∧
  (∀ (s : State) (stl : BitVec 3) (d a b : BitVec 5) (q e : BitVec 3), Ready s [(.k, a.toNat), (.k, b.toNat)] →
    let x := s.k a.toNat
    let y := s.k b.toNat
    let lat := if s.ctx.long then 6 else 2
    let n := s.lanes (intBits e)
    let is := fun (i : Instr) (z : BitVec 512) => Gives i s (unitDone s 1 stl (s.putK d.toNat z lat))
    let toG := fun (i : Instr) (z : Word) => Gives i s (unitDone s 1 stl (s.putG d z lat))
    is (.kmaskAnd stl d a b) (x &&& y) ∧ is (.kmaskOr stl d a b) (x ||| y) ∧ is (.kmaskXor stl d a b) (x ^^^ y) ∧ is (.kmaskAndn stl d a b) (x &&& ~~~y) ∧
    is (.kmaskNot stl d a) (~~~x) ∧ is (.kmaskMov stl d a) x ∧
    toG (.kmaskTog stl d a q) (x.extractLsb' (64 * q.toNat) 64) ∧ toG (.kmaskPopc stl d a e) (BitVec.ofNat 64 ((List.range n).countP fun j => x.getLsbD j)) ∧
    (∃ z : Word, toG (.kmaskFirst stl d a e) z ∧
      ((∀ j < n, x.getLsbD j = false) → z = BitVec.allOnes 64) ∧
      ∀ j < n, x.getLsbD j = true → (∀ i < j, x.getLsbD i = false) → z = BitVec.ofNat 64 j) ∧
    (Ready s (gs [a]) →
      (∃ z : BitVec 512, is (.kmaskFromg stl d a q) z ∧
        ∀ j < 512, z.getLsbD j = if j / 64 = q.toNat then (s.g a).getLsbD (j % 64) else (s.k d.toNat).getLsbD j) ∧
      (∃ z : BitVec 512, is (.kmaskFill stl d a e) z ∧
        ∀ j < 512, z.getLsbD j = if j < n then decide (j < (s.g a).toNat) else (s.k d.toNat).getLsbD j)))

/-- R91, R93 and R148: VMODE waits until every earlier result is complete. VMODE.SHORT releases the long slot; VMODE.LONG keeps one already held,
takes the lowest free slot of its quad with w0 to w15 zero, or waits: while none is free, and also with a slot free while an earlier context waits. Its place
among the waiting contexts is that of the cycle of its issue. -/
def Obligations.VmodeResults : Prop :=
  ∀ (s : State) (stl : BitVec 3),
    let q := quadOf s.site
    let slot := fun (i : Nat) => SMap.get 0 (s.cluAt (q / 4)).longSlots (4 * (q % 4) + i)
    let first := (s.slotWaiters q).any (fun w => State.slotBefore w (s.waitNow.cycle, s.site) && w.2 != s.site) = false
    let waits := ∃ w, Gives (.vmodeLong stl) s (s.complete.setWait w).await ∧ w.stage = State.slotStage ∧ w.cycle = s.waitNow.cycle
    (s.cycle < s.allReady → Gives (.vmodeShort stl) s (s.stallFor s.allReady) ∧ Gives (.vmodeLong stl) s (s.stallFor s.allReady)) ∧
    (s.allReady ≤ s.cycle →
      (∃ t, Gives (.vmodeShort stl) s (unitDone s 1 stl t) ∧ t.ctx.long = false ∧ t.ctx.pend = [] ∧ (s.ctx.long = false → t = s.complete) ∧
        (s.ctx.long = true → (∀ r, t.w r = 0#4096) ∧ t.ctx.g = s.ctx.g ∧ t.ctx.v = s.ctx.v ∧ t.ctx.k = s.ctx.k ∧ t.mem = s.mem ∧
          SMap.get 0 (t.cluAt (clusterOf s.site)).longSlots (4 * (coreIn s.site / 4) + s.ctx.slot.toNat) = 0)) ∧
      (s.ctx.long = true → Gives (.vmodeLong stl) s (unitDone s 1 stl s.complete)) ∧
      (∀ i < 4, s.ctx.long = false → first → slot i = 0 → (∀ j < i, slot j ≠ 0) →
        ∃ t, Gives (.vmodeLong stl) s (unitDone s 1 stl t) ∧ t.ctx.long = true ∧ t.ctx.slot.toNat = i ∧ (∀ r, t.w r = 0#4096) ∧ t.ctx.pend = [] ∧
          t.ctx.g = s.ctx.g ∧ t.ctx.v = s.ctx.v ∧ t.ctx.k = s.ctx.k ∧ t.mem = s.mem ∧
          SMap.get 0 (t.cluAt (clusterOf s.site)).longSlots (4 * (coreIn s.site / 4) + i) = s.site + 1) ∧
      (s.ctx.long = false → ¬first → waits) ∧ (s.ctx.long = false → (∀ i < 4, slot i ≠ 0) → waits))

/-- R63, R86 and R130: a vector instruction writes its destination register and nothing else but FPFLAGS, into which it only adds bits; it touches
no memory. Its one trap is STALL_SHORT, with checking on (R33); a source that the scoreboard tracks stalls it, with no effect (R32). -/
def Obligations.VectorFrame : Prop :=
  ∀ (i : Instr) (f : File) (d : BitVec 5) (s t : State), vecDest s i = some (f, d) → exec i s = .next t →
    (s.ctx.chksb = true ∧ ∃ f r, t = trapped s 0x04#8 (State.stallVal f r)) ∨
    (∃ u, s.cycle < u ∧ t = s.stallFor u) ∨
    (Outside s t ∧ (∀ r : BitVec 5, (f = .g → r ≠ d) → t.g r = s.g r) ∧ t.g 0#5 = 0#64 ∧ t.k 0 = BitVec.allOnes 512 ∧
      (∀ r : BitVec 5, (f = .v → r ≠ d) → t.v r = s.v r) ∧ (∀ r : BitVec 5, (f = .w → r.toNat % 16 ≠ d.toNat % 16) → t.w r = s.w r) ∧
      (∀ j < 8, (f = .k → j ≠ d.toNat) → t.k j = s.k j) ∧ t.ctx.fpflags &&& s.ctx.fpflags = s.ctx.fpflags ∧ Specials s.ctx t.ctx ∧
      t.ctx.units = s.ctx.units + 1 ∧ ∀ a : Nat, t.byte a = s.byte a)

/-! ## The system registers -/

/-- R87 to R89, R121, R123 and R125: what SRD, GETID, ACTQ and HINT.CNT read. FPFLAGS' result is tracked until every earlier unit is complete (R63). -/
def Obligations.SystemReads : Prop :=
  ∀ (s : State) (stl : BitVec 3) (d a x : BitVec 5),
    let c := s.ctx
    let toG := fun (i : Instr) (z : Word) (lat : Nat) => Gives i s (unitDone s 1 stl (s.putG d z lat))
    let srd := fun (n : BitVec 10) (z : Word) => toG (.srd stl d n) z 2
    let nat := fun (n : Nat) => BitVec.ofNat 64 n
    srd 0x000#10 (nat (s.pkg.num * 4096 + s.site)) ∧ srd 0x001#10 (c.tag.setWidth 64) ∧ srd 0x002#10 (c.src.setWidth 64) ∧
    srd 0x003#10 (c.ord.setWidth 64) ∧ srd 0x004#10 (nat (s.gvtOf c.ask.toNat)) ∧ srd 0x005#10 (nat (s.tick s.die)) ∧ srd 0x006#10 (nat s.cycle) ∧
    srd 0x010#10 c.trapvec ∧ srd 0x011#10 (BitVec.ofBool c.inh ++ 0#55 ++ c.cause) ∧ srd 0x012#10 c.trappc ∧ srd 0x013#10 c.trapval ∧
    srd 0x014#10 c.trapsave ∧ Gives (.srd stl d 0x015#10) s (unitDone s 1 stl (s.putTracked d (c.fpflags.setWidth 64) s.allReady)) ∧ srd 0x020#10 ((BitVec.ofBool c.chksb).setWidth 64) ∧
    srd 0x021#10 (if c.long then (c.slot ++ 0#1 ++ 1#1).setWidth 64 else 0#64) ∧ srd 0x022#10 (s.core.depth.setWidth 64) ∧
    srd 0x023#10 (BitVec.ofBool c.frm.act ++ 0#2 ++ BitVec.ofBool c.frm.wrap ++ c.frm.sb ++ c.frm.sa ++ c.frm.sd ++ c.frm.len ++ c.frm.pidx ++ c.frm.uidx ++
      0#3 ++ c.frm.left) ∧
    srd 0x024#10 ((BitVec.ofBool s.core.service).setWidth 64) ∧ srd 0x025#10 ((s.core.npbase ++ 0#8 ++ s.core.nplen).setWidth 64) ∧ srd 0x026#10 c.frmbase ∧
    (∀ j < 32, srd (BitVec.ofNat 10 (0x030 + j)) (match (s.shelfAt (32 * clusterOf s.site + j)).target with
      | some m => nat (128 + m.num) | none => nat (s.shelfAt (32 * clusterOf s.site + j)).mode.num)) ∧
    srd 0x050#10 c.treep ∧ srd 0x051#10 (c.treen.setWidth 64) ∧ srd 0x060#10 ((c.mkid ++ 0#6 ++ c.ask).setWidth 64) ∧ srd 0x061#10 (c.pri.setWidth 64) ∧
    srd 0x070#10 s.core.tracectl ∧
    (let id := fun (k : BitVec 5) (n : Nat) => toG (.getid stl d k) (nat n) 0
     id 0#5 s.site ∧ id 1#5 (s.site / 1024) ∧ id 2#5 (s.site / 64 % 16) ∧ id 3#5 (s.site / 4 % 16) ∧ id 4#5 (s.site % 4) ∧ id 5#5 (s.site / 16 % 4) ∧
     id 6#5 s.pkg.num ∧ id 7#5 (s.coreEn (s.site / 64)) ∧ id 8#5 (s.cluEn (s.site / 1024)) ∧ id 9#5 15) ∧
    toG (.actqEntry stl d) c.act.entry 0 ∧ toG (.actqKind stl d) (nat (c.act.kind.num + c.act.count * 16)) 0 ∧ toG (.actqSendt stl d) (nat c.act.sendTick) 0 ∧
    toG (.actqArrt stl d) (nat c.act.arr) 0 ∧ toG (.actqStartt stl d) (nat c.act.start) 0 ∧ toG (.actqDeq stl d) (nat s.core.deque.length) 0 ∧
    (Ready s (gs [a]) → toG (.actqPend stl d a) (nat (s.inbox (coreOf s.site) (4 * (s.site % 4) + (s.g a).toNat % 4)).length) 0) ∧
    toG (.hintCnt stl d) (c.hintDrops.setWidth 64) 0 ∧ (∃ z, toG (.getid stl d x) z 0)

/-- R87, R90 and R121: SWR sets the writable bits of the registers of its context and core, ignores read-only ones, and raises PRIVILEGE for a
register marked P in a context whose key is not 0. MODE is said by its target, while no switch is in progress: an equal mode and a reserved
code change nothing. -/
def Obligations.SystemWrites : Prop :=
  ∀ (s : State) (stl : BitVec 3) (a : BitVec 5),
    let x := s.g a
    let c := s.ctx
    let is := fun (n : BitVec 10) (t : State) => Gives (.swr stl a n) s (unitDone s 1 stl t)
    let ctx := fun (n : BitVec 10) (c : Ctx) => is n (s.setCtx c)
    let core := fun (n : BitVec 10) (f : Core → Core) => is n (s.modCore (coreOf s.site) f)
    (Ready s (gs [a]) →
      ctx 0x010#10 { c with trapvec := x &&& 0x00FFFFFFFFFFFFFC#64 } ∧ ctx 0x011#10 { c with inh := x.getLsbD 63, cause := x.setWidth 8 } ∧
      ctx 0x012#10 { c with trappc := x &&& 0x00FFFFFFFFFFFFFC#64 } ∧ ctx 0x013#10 { c with trapval := x } ∧ ctx 0x014#10 { c with trapsave := x } ∧
      ctx 0x015#10 { c with fpflags := x.setWidth 5 } ∧ ctx 0x020#10 { c with chksb := x.getLsbD 0 } ∧
      ctx 0x026#10 { c with frmbase := x &&& 0x00FFFFFFFFFFFFFC#64, buf := [] } ∧
      (∃ f : Frame, ctx 0x023#10 { c with frm := f, buf := [] } ∧ f.act = x.getLsbD 63 ∧ f.wrap = x.getLsbD 60 ∧ f.sb = x.extractLsb' 56 4 ∧
        f.sa = x.extractLsb' 52 4 ∧ f.sd = x.extractLsb' 48 4 ∧ f.len = x.extractLsb' 44 4 ∧ f.pidx = x.extractLsb' 39 5 ∧
        f.uidx = x.extractLsb' 35 4 ∧ f.left = x.extractLsb' 0 32) ∧
      (∀ n : BitVec 10, (n.toNat ≤ 6 ∨ n = 0x021#10 ∨ n = 0x061#10) → is n s) ∧
      (s.privileged = true →
        core 0x022#10 (fun k => { k with depth := x.setWidth 2 }) ∧ core 0x024#10 (fun k => { k with service := x.getLsbD 0 }) ∧
        core 0x025#10 (fun k => { k with npbase := x.extractLsb' 16 40, nplen := x.setWidth 8 }) ∧
        core 0x070#10 (fun k => { k with tracectl := x &&& 0xE0FFFFF1#64 }) ∧
        ctx 0x050#10 { c with treep := x &&& 0x80FFFFFFFFFFFFFF#64 } ∧ ctx 0x051#10 { c with treen := x.setWidth 10 } ∧
        ctx 0x060#10 { c with ask := x.setWidth 10, mkid := x.extractLsb' 16 10 } ∧
        ∀ j < 32, ∀ m : ShelfMode,
          let h := 32 * clusterOf s.site + j
          let n := BitVec.ofNat 10 (0x030 + j)
          ((s.shelfAt h).target = none → x.toNat % 4 = m.num → m ≠ (s.shelfAt h).mode → is n (s.setShelf h { s.shelfAt h with target := some m })) ∧
          ((s.shelfAt h).target = none → x.toNat % 4 = m.num → m = (s.shelfAt h).mode → is n s) ∧
          ((s.shelfAt h).target = none → x.toNat % 4 = 3 → is n s))) ∧
    (s.privileged = false → ∀ n : BitVec 10,
      (n = 0x022#10 ∨ n = 0x024#10 ∨ n = 0x025#10 ∨ (0x030 ≤ n.toNat ∧ n.toNat ≤ 0x051) ∨ n = 0x060#10 ∨ n = 0x070#10) →
        Gives (.swr stl a n) s (trapped s 0x0E#8 0#64))

/-! ## Traps -/

/-- R95: trap entry saves the unit's address, the value and the cause, sets INH and goes to TRAPVEC. The registers, FPFLAGS, FRMCTL and memory
are unchanged (EXTENT_GONE, cause 0x13, also writes a fault record, R196). MEMERR counts in UNCOR of the context's die (the die is the model's choice,
log entry 92), saturating (R389).
R96: a trap with TRAPVEC = 0, or with INH already set, ends the activation; the context is DORMANT and runs no further unit. -/
def Obligations.TrapEntry : Prop :=
  (∀ (s : State) (cause : Byte) (val : Word), s.ctx.trapvec ≠ 0#64 → s.ctx.inh = false → cause ≠ 0x13#8 →
    let t := s.takeTrap cause val
    t.ctx.trappc = s.ctx.pc.setWidth 64 ∧ t.ctx.trapval = val ∧ t.ctx.cause = cause ∧ t.ctx.inh = true ∧ t.ctx.pc = s.ctx.trapvec.setWidth 56 ∧
      t.ctx.st = .ready ∧ t.ctx.pend = [] ∧ t.ctx.frm = s.ctx.frm ∧ t.ctx.frmbase = s.ctx.frmbase ∧ t.ctx.fpflags = s.ctx.fpflags ∧ t.ctx.g = s.ctx.g ∧
      t.ctx.v = s.ctx.v ∧ t.ctx.w = s.ctx.w ∧ t.ctx.k = s.ctx.k ∧ t.ctx.long = s.ctx.long ∧ t.ctx.slot = s.ctx.slot ∧ t.ctx.units = s.ctx.units ∧
      t.ctx.trapvec = s.ctx.trapvec ∧ t.ctx.trapsave = s.ctx.trapsave ∧ t.mem = s.mem ∧ (cause ≠ 0x0F#8 → Outside s t) ∧
      (cause = 0x0F#8 → bits (t.reg s.die 0x0B0) 63 32 = min (bits (s.reg s.die 0x0B0) 63 32 + 1) (2 ^ 32 - 1) ∧
        bits (t.reg s.die 0x0B0) 31 0 = bits (s.reg s.die 0x0B0) 31 0)) ∧
  (∀ (s : State) (cause : Byte) (val : Word), s.ctx.trapvec = 0#64 ∨ s.ctx.inh = true →
    let t := s.takeTrap cause val
    t.site = s.site ∧ t.ctx.st = .dormant ∧ t.ctx.wait = none ∧ t.ctx.long = false ∧ t.ctx.mons = [] ∧ t.ctx.rowh = none)

/-- R395: a fault record is 64 bytes at the ring's head: source, cause and site, the program counter, the value, the tick and the ordinal; HEAD
goes up by one. With WRAP clear and the ring full the record is dropped. -/
def Obligations.FaultRecordWritten : Prop :=
  ∀ (s : State) (d source cause site : Nat) (pc val : Word) (ord : Nat), d < 4 → ord < 2 ^ 48 →
    let c := s.reg d 0x5100
    let n := 2 ^ (max 10 (min 24 (c.toNat % 32)))
    let h := (s.reg d 0x5108).toNat
    let t := s.faultRecord d source cause site pc val ord
    let at' := gloc 0 (c.toNat / 2 ^ 12 % 2 ^ 40 * 4096 + 64 * (h % n))
    (c.getLsbD 63 = true ∨ h < n →
      t.load at' 8 = source % 16 * 2 ^ 60 + cause % 256 * 2 ^ 24 + site % 2 ^ 22 ∧ t.load (at' + 8) 8 = pc.toNat ∧ t.load (at' + 16) 8 = val.toNat ∧
      t.load (at' + 24) 8 = s.tick d % 2 ^ 64 ∧ t.load (at' + 32) 8 = ord ∧ (∀ j < 3, t.load (at' + 40 + 8 * j) 8 = 0) ∧ t.reg d 0x5108 = s.reg d 0x5108 + 1#64 ∧
      ∀ a, (a < at' ∨ at' + 64 ≤ a) → t.byte a = s.byte a) ∧
    (c.getLsbD 63 = false → n ≤ h → t.mem = s.mem ∧ t.reg d 0x5110 = s.reg d 0x5110 + 1#64 ∧ t.reg d 0x5108 = s.reg d 0x5108)

/-- R122: TRAP and BRK raise their cause with the code (BRK when no armed breakpoint matches); ERET clears INH, completes every fixed-latency
result and goes to TRAPPC. R120 and R123: NOP has no effect, YIELD ends the run of issue.
R32 and R33: a unit that reads a register the scoreboard tracks is stalled until it is ready. With checking on, a unit that reads another
register whose latency still runs raises STALL_SHORT and names the first such register; stated of an integer, a vector and a storing unit. -/
def Obligations.SystemUnits : Prop :=
  (∀ (s : State) (stl : BitVec 3) (c : BitVec 10),
    Gives (.nop stl) s (unitDone s 1 stl s) ∧
    Gives (.yield stl) s (unitDone s 1 stl (s.modCore (coreOf s.site) fun x => { x with run := 64 })) ∧
    Gives (.trap stl c) s (trapped s 0x10#8 (c.setWidth 64)) ∧
    ((State.isService s.ctx = true ∨ s.bpTest s.site s.ctx.tag.toNat [(5, c.toNat)] 1 = none) →
      Gives (.brk stl c) s (trapped s 0x11#8 (c.setWidth 64))) ∧
    ∃ t, Gives (.eret stl) s (unitJump s stl t (s.ctx.trappc.setWidth 56)) ∧ t.ctx.inh = false ∧ t.ctx.pend = [] ∧ t.ctx.frm = s.ctx.frm ∧
      t.ctx.susp = false ∧ t.ctx.g = s.ctx.g ∧ t.ctx.v = s.ctx.v ∧ t.ctx.w = s.ctx.w ∧ t.ctx.k = s.ctx.k ∧ t.ctx.trapval = s.ctx.trapval ∧
      t.ctx.cause = s.ctx.cause ∧ Outside s t) ∧
  (∀ (s : State) (stl : BitVec 3) (d a b : BitVec 5) (p : Pre) (e z : BitVec 3) (m : BitVec 2) (o : BitVec 7), s.ctx.chksb = true →
    (∀ t, s.awaited (gs [a, b]) = some t →
      Gives (.aluAdd Pre.none stl d a b) s (s.stallFor t) ∧ Gives (.st stl b a z m o) s (s.stallFor t)) ∧
    (∀ f r, s.awaited (gs [a, b]) = none → s.tooEarly (gs [a, b]) = some (f, r) →
      Gives (.aluAdd Pre.none stl d a b) s (trapped s 0x04#8 (State.stallVal f r)) ∧ Gives (.st stl b a z m o) s (trapped s 0x04#8 (State.stallVal f r))) ∧
    (∀ f r, s.awaited (vs s p [a, b]) = none → s.tooEarly (vs s p [a, b]) = some (f, r) → Gives (.vaddiAdd p stl d a b e) s (trapped s 0x04#8 (State.stallVal f r))) ∧
    (∀ (f : File) (n : Nat), n < 32 → State.stallVal f n = BitVec.ofNat 64 ((match f with | .g => 0 | .v => 1 | .w => 2 | .k => 3) * 32 + n)) ∧
    (∀ (x : Pend), s.ctx.pend = [x] → x.file = .g → x.num = a.toNat → a ≠ 0#5 → s.cycle < x.ready → s.readAt.1 < x.ready →
      s.tooEarly (gs [a, b]) = some (.g, a.toNat) ∧ s.awaited (gs [a, b]) = if x.tracked then some x.ready else none))

/-- R118, R119 and R94: RPT with a count of 0 goes on after the frame; otherwise it captures its units and starts pass 0: it completes wherever its units can be
fetched, may stand in a frame and pass check 4 on every pass. Pass p issues a captured unit with its fields d, a and b as captured, each raised by p times its
stride (modulo 32, which without WRAP the check has made no difference), and every other bit as captured; the last unit of a pass ends it, and the last pass
ends the frame. -/
def Obligations.RepeatFrames : Prop :=
  ∀ (s u : State) (stl : BitVec 3) (a : BitVec 5) (l sd sa sb : BitVec 4) (w : BitVec 1) (us : List Instr) (next : Nat), Ready s (gs [a]) →
    let n : BitVec 32 := (s.g a).setWidth 32
    let f : Frame := { act := true, wrap := w == 1#1, sb := sb, sa := sa, sd := sd, len := l, pidx := 0#5, uidx := 0#4, left := n }
    let base := s.ctx.pc + 4#56
    let runs := fun (us : List Instr) =>
      (n = 0#32 → Gives (.rpt stl a l sd sa sb w) s (unitJump s stl u (BitVec.ofNat 56 next))) ∧
      (n ≠ 0#32 → Gives (.rpt stl a l sd sa sb w) s
        (unitJump s stl (u.setCtx { u.ctx with frm := f, frmbase := base.setWidth 64, buf := us, susp := false, pend := [] }) base))
    (s.captureFrame f base.toNat 0 n.toNat = .units us next u → runs us) ∧
    (∀ xs : List (Option Instr × IWord), s.capture base.toNat 0 [] (l.toNat + 1) = .units xs next u → (∀ x ∈ xs, frameUnit x.2 = true) →
      (∀ i ∈ xs.filterMap (·.1), ∀ p : Nat, p < n.toNat → passFault s.ctx.long f p i = none) → runs (xs.filterMap (·.1))) ∧
    (∀ (c : Byte) (v : Word) (us : List Nat), s.captureFrame f base.toNat 0 n.toNat = .fault c v us → Gives (.rpt stl a l sd sa sb w) s (trapped s c v)) ∧
    (∀ (c : Ctx) (pc : BitVec 56),
      (c.frm.uidx ≠ c.frm.len → (State.nextInFrame c pc).frm = { c.frm with uidx := c.frm.uidx + 1#4 } ∧ (State.nextInFrame c pc).pc = pc) ∧
      (c.frm.uidx = c.frm.len → c.frm.left ≠ 1#32 → (State.nextInFrame c pc).frm = { c.frm with uidx := 0#4, left := c.frm.left - 1#32, pidx := c.frm.pidx + 1#5 } ∧
        (State.nextInFrame c pc).pc = c.frmbase.setWidth 56) ∧
      (c.frm.uidx = c.frm.len → c.frm.left = 1#32 → (State.nextInFrame c pc).frm.act = false ∧ (State.nextInFrame c pc).frm.left = 0#32 ∧
        (State.nextInFrame c pc).pc = pc)) ∧
    (∀ (i j : Instr) (y : IWord), s.ctx.frm.act = true → s.ctx.susp = false → s.ctx.buf[s.ctx.frm.uidx.toNat]? = some i →
      (s.ctx.wait.map (·.verdict)).getD 0 = 0 → s.overrun = false → s.ctx.wait.bind (·.gone) = none → s.addressHit = none →
      let x := encodeBase i
      let p := s.ctx.frm.pidx.toNat
      y.toNat / 2 ^ 17 % 32 = (x.toNat / 2 ^ 17 % 32 + p * s.ctx.frm.sd.toNat) % 32 → y.toNat / 2 ^ 12 % 32 = (x.toNat / 2 ^ 12 % 32 + p * s.ctx.frm.sa.toNat) % 32 →
      y.toNat / 2 ^ 7 % 32 = (x.toNat / 2 ^ 7 % 32 + p * s.ctx.frm.sb.toNat) % 32 → y.toNat / 2 ^ 22 = x.toNat / 2 ^ 22 → y.toNat % 2 ^ 7 = x.toNat % 2 ^ 7 →
      decodeShape s.ctx.long i.pre y 0#32 = .ok (some j) → s.issue = exec j s) ∧
    (∀ (x : IWord) (d a b : Nat), d < 32 → a < 32 → b < 32 →
      (withFields x d a b).toNat / 2 ^ 17 % 32 = d ∧ (withFields x d a b).toNat / 2 ^ 12 % 32 = a ∧ (withFields x d a b).toNat / 2 ^ 7 % 32 = b ∧
      (withFields x d a b).toNat / 2 ^ 22 = x.toNat / 2 ^ 22 ∧ (withFields x d a b).toNat % 2 ^ 7 = x.toNat % 2 ^ 7)

/-- R85 and R124: DONE ends the activation once no result is on its way and no drain is out, and its own unit counts; it is STALLED otherwise. The DONE of a wave
task waits also for a reserved line of the threshold that it reads (R183, R294). -/
def Obligations.ActivationEnds : Prop :=
  ∀ (s u : State) (stl : BitVec 3) (a : BitVec 5) (loc : Nat) (runs : List (Nat × Nat)),
    (s.resultsOut s.site = false → s.drainsOut = false → s.thetaHeld = false →
      ∃ t, Gives (.done stl) s t.spend ∧ t = (s.setCtx { s.ctx with units := s.ctx.units + 1 }).endActivation .done ∧ t.ctx.st = .dormant ∧ t.site = s.site ∧
        t.ctx.long = false ∧ t.ctx.wait = none) ∧
    (s.resultsOut s.site = true ∨ s.drainsOut = true ∨ s.thetaHeld = true → Gives (.done stl) s ((s.setWait { s.waitNow with ending := true }).stallFor (s.cycle + 1))) ∧
    (Ready s (gs [a]) → s.reach .write 0 (s.g a) 8 8 [(0, 8)] = .go u ((loc, 8) :: runs) → u.inFifo loc = false → u.speculative = false →
      u.endHeld = false → (u.sendDecrement loc).endHeld = false →
      ∃ t, Gives (.doneDec stl a) s t.spend ∧ t.ctx.st = .dormant ∧ t.site = s.site ∧
        t = ((u.sendDecrement loc).setCtx { (u.sendDecrement loc).ctx with units := (u.sendDecrement loc).ctx.units + 1 }).endActivation .done)

/-! ## Memory -/

/-- R198 (with R126, R167, R171, R179, R196 and R397): the first fault of an access, in order: MISALIGNED for an address that is no multiple of the
alignment; the faults of bits 63–56 and of the windows; then, piece by piece, that of the first piece whose place has one (the pantry rules and the
translation), with all before it placed; then the media's. The unit traps with the cause and the address of the piece, and has no other effect. Stated of LD,
ST, VLD, VST, LDT, ACC in both forms and every AMO, for each at the operands it reads and writes; FIFO slots and shelves in a switch, which LD, ST, VLD and VST
treat otherwise (R173 to R176), are kept out of the later two.
R198: resolving an access and checking it changes nothing but the leaves that TLBs hold. -/
def Obligations.AccessFaults : Prop :=
  (∀ (s : State) (p : Pre) (stl : BitVec 3) (t a b d : BitVec 5) (z : BitVec 3) (m y : BitVec 2) (o : BitVec 7) (w : BitVec 1),
    let n := szBytes z
    let v := s.vbytes
    let k := if w = 1#1 then 8 else 4
    let e := 2 ^ y.toNat
    let lanes := (List.range (v / e)).map fun i => (i * e, e)
    let faults := fun (i : Instr) (nd : Need) (am : Nat) (x : Word) (al len : Nat) (ps : List (Nat × Nat)) (plain : Prop) =>
      let off := fun (q : Nat) => (ps.getD q (0, 0)).1
      let trap := fun (c : Byte) (x : Word) => Gives i s (trapped s c x)
      (x.toNat % al ≠ 0 → trap 0x06#8 x) ∧
      (x.toNat % al = 0 → ∀ c, s.headFault s.me am x len = some c → trap c x) ∧
      (x.toNat % al = 0 → s.headFault s.me am x len = none → plain →
        (∀ (q : Nat) (c : Byte), q < ps.length → (∀ j < q, ∃ loc tr, s.place s.me nd am (x.toNat + off j) j = .at loc tr) →
          s.place s.me nd am (x.toNat + off q) q = .fault c → trap c (x + BitVec.ofNat 64 (off q))) ∧
        (∀ (ls : List Nat) (q : Nat) (c : Byte), ls.length = ps.length → (∀ j < ps.length, ∃ tr, s.place s.me nd am (x.toNat + off j) j = .at (ls.getD j 0) tr) →
          s.mediaFault (decide (nd ≠ .write)) (List.zipWith (fun l r => (l, r.2)) ls ps) = some (q, c) → trap c (x + BitVec.ofNat 64 (off q))))
    let amo := fun (i : Instr) (k : Nat) => faults i .both 0 (s.g a) k k [(0, k)] True
    (Ready s (gs [a]) → faults (.ld stl t a z m o) .read m.toNat (mAt s a o n) n n [(0, n)] (s.fifoAt m.toNat (mAt s a o n) n n = none)) ∧
    (Ready s (gs [a, t]) → faults (.st stl t a z m o) .write m.toNat (mAt s a o n) n n [(0, n)] (s.fifoAt m.toNat (mAt s a o n) n n = none) ∧
      faults (.ldt stl t a z o) .read 0 (mAt s a o n) n n [(0, n)] True ∧ faults (.acc stl t a y o) .write 0 (mAt s a o e) e e [(0, e)] True) ∧
    (Ready s [(.g, a.toNat), (s.vf, t.toNat)] → faults (.accVec stl t a y o) .write 0 (mAt s a o v) e (e * (v / e)) lanes True) ∧
    (Ready s ((File.g, a.toNat) :: State.maskSrc p) → faults (.vld p stl t a z m o) .read m.toNat (mAt s a o v) n v (activePieces n 0 (lanesOn s p n))
      (s.fifoAt m.toNat (mAt s a o v) n v = none ∧ s.shelfBusy m.toNat (mAt s a o v) n v = false)) ∧
    (Ready s ([(.g, a.toNat), (s.vf, t.toNat)] ++ State.maskSrc p) → faults (.vst p stl t a z m o) .write m.toNat (mAt s a o v) n v (activePieces n 0 (lanesOn s p n))
      (s.fifoAt m.toNat (mAt s a o v) n v = none ∧ s.shelfBusy m.toNat (mAt s a o v) n v = false)) ∧
    (Ready s (gs [a, b]) → s.waitNow.stage ≠ State.replyStage →
      amo (.amoAdd stl d a b w) k ∧ amo (.amoMin stl d a b w) k ∧ amo (.amoMax stl d a b w) k ∧ amo (.amoMinn stl d a b w) k ∧ amo (.amoMaxn stl d a b w) k ∧
      amo (.amoAnd stl d a b w) k ∧ amo (.amoOr stl d a b w) k ∧ amo (.amoXor stl d a b w) k ∧ amo (.amoSwap stl d a b w) k ∧
      amo (.amoFadd stl d a b) 4 ∧ amo (.amoFmin stl d a b) 4 ∧ (Ready s (gs [d]) → amo (.amoCas stl d a b w) k)) ∧
    (∀ (x : Word) (len : Nat), 2 ^ 56 ≤ x.toNat → s.headFault s.me 0 x len = some 0x08#8) ∧
    (∀ (x : Word) (len : Nat), x.toNat < 2 ^ 56 → window x.toNat ≠ window (x.toNat + len - 1) → s.headFault s.me 0 x len = some 0x07#8)) ∧
  (∀ (s u : State) (nd : Need) (am : Nat) (a : Word) (al n : Nat) (ps : List (Nat × Nat)) (j : Nat) (runs : List (Nat × Nat)),
    s.reach nd am a al n ps j = .go u runs →
      a.toNat % al = 0 ∧ runs.map (·.2) = ps.map (·.2) ∧ ∃ tlb, u = s.modPkg fun p => { p with tlb := tlb })

/-- R126, R150, R200 and R201: a load whose bytes are reached and that waits for nothing gives its destination the bytes read, extended or merged
under the mask, and changes no byte of storage. LDT of a line in no range reads as LD does. -/
def Obligations.LoadResults : Prop :=
  ∀ (s u : State) (p : Pre) (stl : BitVec 3) (t a b : BitVec 5) (z : BitVec 3) (m c : BitVec 2) (o : BitVec 7) (k : BitVec 3) (g w : BitVec 1)
    (runs : List (Nat × Nat)), Free u runs →
    let n := szBytes z
    let bs := (atLoad u runs).rdRuns runs
    let v := afterLoad u runs
    let regs := fun (e : Nat) (on : List Bool) => BitVec.ofNat 4096 (bytesToNat (mergeLanes e false on (natToBytes s.vbytes (s.vcur t).toNat) bs))
    let e := if w = 1#1 then 8 else 4
    let sel := (List.range (s.vbytes / e)).map fun i => (s.k k.toNat).getLsbD i
    (Ready s (gs [a]) → s.fifoAt m.toNat (mAt s a o n) n n = none → s.reach .read m.toNat (mAt s a o n) n n [(0, n)] = .go u runs →
      Gives (.ld stl t a z m o) s (unitDone s 1 stl (v.putG t (loaded z bs)))) ∧
    (Ready s (gs [a, t]) → s.reach .read 0 (mAt s a o n) n n [(0, n)] = .go u runs → u.inSlots (runs.getD 0 (0, 0)).1 = false →
      Gives (.ldt stl t a z o) s (unitDone s 1 stl (v.putG t (BitVec.ofNat 64 (bytesToNat bs))))) ∧
    (Ready s ((File.g, a.toNat) :: State.maskSrc p) → s.fifoAt m.toNat (mAt s a o s.vbytes) n s.vbytes = none → s.shelfBusy m.toNat (mAt s a o s.vbytes) n s.vbytes = false →
      s.reach .read m.toNat (mAt s a o s.vbytes) n s.vbytes (activePieces n 0 (lanesOn s p n)) = .go u runs →
      Gives (.vld p stl t a z m o) s (unitDone s (1 + p.words) stl (v.putV t (regs n (lanesOn s p n))))) ∧
    (Ready s [(.g, a.toNat), (s.vf, b.toNat), (.k, k.toNat)] →
      s.reachLanes .read e 0 (State.laneAddrs (s.g a) (s.vcur b) e c.toNat (g == 1#1) 0 sel) = .go u runs →
      Gives (.vldx stl t a b k c g w) s (unitDone s 1 stl (v.putV t (regs e sel)))) ∧
    v.mem = u.mem ∧ v.ctx = u.ctx

/-- R127, R150 and R200: a store whose bytes are reached and that waits for nothing writes the register's bytes, those of active lanes, in
ascending order. ACC adds to a range's partial line and stores nothing. -/
def Obligations.StoreResults : Prop :=
  ∀ (s u : State) (p : Pre) (stl : BitVec 3) (t a b : BitVec 5) (z : BitVec 3) (m c y : BitVec 2) (o : BitVec 7) (k : BitVec 3) (g w : BitVec 1)
    (runs : List (Nat × Nat)), u.speculative = false →
    let n := szBytes z
    let e := if w = 1#1 then 8 else 4
    let sel := (List.range (s.vbytes / e)).map fun i => (s.k k.toNat).getLsbD i
    let bytes := natToBytes s.vbytes (s.vcur t).toNat
    (Free u runs → Ready s (gs [a, t]) → s.fifoAt m.toNat (mAt s a o n) n n = none → s.reach .write m.toNat (mAt s a o n) n n [(0, n)] = .go u runs →
      Gives (.st stl t a z m o) s (unitDone s 1 stl (u.writeRuns runs (natToBytes n (s.g t).toNat)))) ∧
    (Free u runs → Ready s ([(.g, a.toNat), (s.vf, t.toNat)] ++ State.maskSrc p) → s.fifoAt m.toNat (mAt s a o s.vbytes) n s.vbytes = none → s.shelfBusy m.toNat (mAt s a o s.vbytes) n s.vbytes = false →
      s.reach .write m.toNat (mAt s a o s.vbytes) n s.vbytes (activePieces n 0 (lanesOn s p n)) = .go u runs →
      Gives (.vst p stl t a z m o) s (unitDone s (1 + p.words) stl (u.writeRuns runs (activeBytes n false (lanesOn s p n) bytes)))) ∧
    (Free u runs → Ready s [(.g, a.toNat), (s.vf, b.toNat), (s.vf, t.toNat), (.k, k.toNat)] →
      s.reachLanes .write e 0 (State.laneAddrs (s.g a) (s.vcur b) e c.toNat (g == 1#1) 0 sel) = .go u runs →
      Gives (.vstx stl t a b k c g w) s (unitDone s 1 stl (u.writeRuns runs (activeBytes e false sel bytes)))) ∧
    (∀ (h : Nat) (r : Range), u.rangeAt (lineOf (runs.getD 0 (0, 0)).1) = some (h, r) → r.freeing = false → (∀ x ∈ runs, lineOf x.1 ∈ r.lines) →
      2 ^ y.toNat = r.fmt.width → u.anyHeld runs = false →
      (Ready s (gs [a, t]) → s.reach .write 0 (mAt s a o (2 ^ y.toNat)) (2 ^ y.toNat) (2 ^ y.toNat) [(0, 2 ^ y.toNat)] = .go u runs →
        Gives (.acc stl t a y o) s (unitDone s 1 stl (u.accLines r.fmt (State.accParts r.fmt.width runs [s.g t]) (State.linesOf runs)))) ∧
      (Ready s [(.g, a.toNat), (s.vf, t.toNat)] →
        let cnt := s.vbytes / 2 ^ y.toNat
        s.reach .write 0 (mAt s a o s.vbytes) (2 ^ y.toNat) (2 ^ y.toNat * cnt) ((upto 0 cnt).map fun i => (i * 2 ^ y.toNat, 2 ^ y.toNat)) = .go u runs →
        Gives (.accVec stl t a y o) s (unitDone s 1 stl (u.accLines r.fmt (State.accParts r.fmt.width runs
          ((upto 0 cnt).map fun i => BitVec.ofNat 64 ((s.vcur t).toNat / 2 ^ (8 * 2 ^ y.toNat * i) % 2 ^ (8 * 2 ^ y.toNat)))) (State.linesOf runs)))))

/-- R70 and R127: what a write of runs does to storage: each byte covered takes the last byte written to it, every other byte is unchanged; the
issuing context is unchanged.
R126: the bytes that a load returns are the bytes of plain storage. -/
def Obligations.StoredBytes : Prop :=
  (∀ (u : State) (runs : List (Nat × Nat)) (bs : List Byte), Plain u runs → (runs.map (·.2)).sum ≤ bs.length →
    let t := u.writeRuns runs bs
    t.ctx = u.ctx ∧ t.site = u.site ∧ ∀ a : Nat, t.byte a = (lastAt runs bs a).getD (u.byte a)) ∧
  (∀ (u : State) (runs : List (Nat × Nat)), Plain u runs →
    (atLoad u runs).rdRuns runs = runs.flatMap fun r => (List.range r.2).map fun i => u.byte (r.1 + i))

/-- The frame of the storing instructions ST, VST and VSTX: the registers, FPFLAGS and the trap, frame and key registers are unchanged unless the
unit traps; and every byte outside those that the unit's own address reaches is unchanged. A FIFO's store writes slots and the TAIL of the shelf
that its address names. -/
def Obligations.StoreFrame : Prop :=
  ∀ (s t : State) (p : Pre) (stl : BitVec 3) (r a b : BitVec 5) (z : BitVec 3) (m c : BitVec 2) (o : BitVec 7) (k : BitVec 3) (g w : BitVec 1),
    let n := szBytes z
    let e := if w = 1#1 then 8 else 4
    let sel := (List.range (s.vbytes / e)).map fun i => (s.k k.toNat).getLsbD i
    let frame := fun (i : Instr) (go : State.Go) (fifo : Option Nat) (cnt : Nat) => exec i s = .next t →
      (∃ cause val, t = trapped s cause val) ∨
      (SameRegs s.ctx t.ctx ∧
        (∀ u runs, fifo = none → go = .go u runs → Plain u runs → ∀ x, Outside1 runs x → t.byte x = s.byte x) ∧
        (∀ q, fifo = none → go = .stop q → t.mem = s.mem) ∧
        (∀ h, fifo = some h → (∀ l, SMap.get false s.pkg.bad l = false) → ∀ x, (∀ q < 8, x ≠ ploc (h / 32) (h % 32) 8 + q) →
          (∀ j < cnt, ∀ q < 8, x ≠ State.slotLoc h ((s.fifoTail h + j) % 2 ^ 64) + q) → t.byte x = s.byte x))
    (Ready s (gs [a, r]) → frame (.st stl r a z m o) (s.reach .write m.toNat (mAt s a o n) n n [(0, n)]) (s.fifoAt m.toNat (mAt s a o n) n n) 1) ∧
    (Ready s ([(.g, a.toNat), (s.vf, r.toNat)] ++ State.maskSrc p) →
      frame (.vst p stl r a z m o) (s.reach .write m.toNat (mAt s a o s.vbytes) n s.vbytes (activePieces n 0 (lanesOn s p n)))
        (s.fifoAt m.toNat (mAt s a o s.vbytes) n s.vbytes) (s.vbytes / 8)) ∧
    (Ready s [(.g, a.toNat), (s.vf, b.toNat), (s.vf, r.toNat), (.k, k.toNat)] →
      frame (.vstx stl r a b k c g w) (s.reachLanes .write e 0 (State.laneAddrs (s.g a) (s.vcur b) e c.toNat (g == 1#1) 0 sel)) none 0)

/-- R171 and R174 to R176: LD, VLD, ST and VST on the slots of a FIFO shelf pop or push when there are slots for them and nothing holds them back,
and wait otherwise: pops take from HEAD, pushes add at TAIL, and both counters move by the number of slots. A lane in the save area is denied. A pop whose
header or whose slots lie in an uncorrectable line raises MEMERR and pops nothing (R150, R397). -/
def Obligations.FifoResults : Prop :=
  ∀ (s : State) (p : Pre) (stl : BitVec 3) (t a : BitVec 5) (z : BitVec 3) (m : BitVec 2) (o : BitVec 7) (h : Nat),
    let n := szBytes z
    let cnt := s.vbytes / 8
    let on := lanesOn s p n
    let room := fun (k : Nat) => s.drainsOut = false ∧ s.speculative = false ∧ s.fifoCount h + k ≤ State.fifoCap h ∧
      ∀ l ∈ State.fifoLines h (s.fifoTail h) k, s.lineHeld l = false
    let has := fun (k : Nat) => s.drainsOut = false ∧ s.speculative = false ∧ k ≤ s.fifoCount h ∧
      ∀ l ∈ State.fifoLines h (s.fifoHead h) k, s.lineHeld l = false
    let past := s.fifoPast h (mAt s a o s.vbytes) (activePieces n 0 on)
    let wait := heldUp s
    let sound := fun (k : Nat) => s.popBad h k = false
    let popped := fun (k : Nat) => s.wr (ploc (h / 32) (h % 32) 0) (natToBytes 8 ((s.fifoHead h + k) % 2 ^ 64))
    (Ready s (gs [a]) → s.fifoAt m.toNat (mAt s a o n) n n = some h →
      (¬sound 0 → Gives (.ld stl t a z m o) s (trapped s 0x0F#8 (mAt s a o n))) ∧
      (has 1 → ¬sound 1 → Gives (.ld stl t a z m o) s (trapped s 0x0F#8 (mAt s a o n))) ∧
      (has 1 → sound 0 → sound 1 → Gives (.ld stl t a z m o) s (unitDone s 1 stl ((popped 1).putG t (loaded z ((s.slots h (s.fifoHead h) 1).take n))))) ∧
      (¬has 1 → sound 0 → Gives (.ld stl t a z m o) s wait)) ∧
    (Ready s (gs [a, t]) → s.fifoAt m.toNat (mAt s a o n) n n = some h →
      (room 1 → Gives (.st stl t a z m o) s (unitDone s 1 stl (s.push h 1 (natToBytes 8 ((s.g t).toNat % 2 ^ (8 * n)))))) ∧
      (¬room 1 → Gives (.st stl t a z m o) s wait)) ∧
    (Ready s ((File.g, a.toNat) :: State.maskSrc p) → s.fifoAt m.toNat (mAt s a o s.vbytes) n s.vbytes = some h →
      (∀ v, past = some v → Gives (.vld p stl t a z m o) s (trapped s 0x09#8 v)) ∧
      (past = none → ¬sound 0 ∨ (has cnt ∧ ¬sound cnt) → Gives (.vld p stl t a z m o) s (trapped s 0x0F#8 (mAt s a o s.vbytes))) ∧
      (past = none → has cnt → sound 0 → sound cnt → Gives (.vld p stl t a z m o) s (unitDone s (1 + p.words) stl ((popped cnt).putV t (BitVec.ofNat 4096 (bytesToNat
        (mergeLanes n true on (natToBytes s.vbytes (s.vcur t).toNat) (s.slots h (s.fifoHead h) cnt))))))) ∧
      (past = none → ¬has cnt → sound 0 → Gives (.vld p stl t a z m o) s wait)) ∧
    (Ready s ([(.g, a.toNat), (s.vf, t.toNat)] ++ State.maskSrc p) → s.fifoAt m.toNat (mAt s a o s.vbytes) n s.vbytes = some h →
      (∀ v, past = some v → Gives (.vst p stl t a z m o) s (trapped s 0x09#8 v)) ∧
      (past = none → room cnt → Gives (.vst p stl t a z m o) s (unitDone s (1 + p.words) stl (s.push h cnt (activeBytes n true on (natToBytes s.vbytes (s.vcur t).toNat))))) ∧
      (past = none → ¬room cnt → Gives (.vst p stl t a z m o) s wait))

/-- R83 and R203: AMO writes f(old, operand) and returns the old value, sign-extended at 32 bits, when its line is free, its owner's service context
is free for it and its place is no FIFO; FADD and FMIN are FP32 operations. It waits for the owner's reply otherwise, and completes with it. That an AMO whose
owner's service context is free is performed in the step of its issue is the model's choice (log entry 17). -/
def Obligations.AmoResults : Prop :=
  ∀ (s u : State) (stl : BitVec 3) (d a b : BitVec 5) (w : BitVec 1) (loc x' : Nat) (runs : List (Nat × Nat)) (r : Reply), Ready s (gs [a, b]) →
    let n := if w = 1#1 then 8 else 4
    (s.waitNow.stage = 2 → s.replyOf s.waitNow.token = some r →
      Gives (.amoAdd stl d a b w) s (unitDone s 1 stl ((s.dropReply s.waitNow.token).putG d r.value))) ∧
    (s.waitNow.stage ≠ 2 →
    s.reach .both 0 (s.g a) n n [(0, n)] = .go u ((loc, n) :: runs) → Free u ((loc, n) :: runs) → u.speculative = false → u.inFifo loc = false →
    (State.isService u.ctx = false ∨ u.owner loc ≠ coreOf u.site) →
    (u.serviceFree (u.owner loc) = none → ∃ t : State, Gives (.amoAdd stl d a b w) s t.await ∧ t.ctx.wait.map (fun w => (w.stage, w.token)) = some (2, u.pkg.nextId) ∧
      ∀ y : Nat, t.byte y = u.byte y) ∧
    (u.serviceFree (u.owner loc) = some x' →
    let old := bytesToNat (u.rdRuns ((loc, n) :: runs))
    let x : BitVec 64 := s.g b
    let y : BitVec 32 := x.setWidth 32
    let m : BitVec 64 := BitVec.ofNat 64 old
    let q : BitVec 32 := BitVec.ofNat 32 old
    let put := fun (i : Instr) (new : Nat) =>
      Gives i s (unitDone s 1 stl (((u.coreWrite (u.owner loc) ((loc, n) :: runs) (natToBytes n new)).amoRecord x').putG d (if w = 1#1 then m else q.signExtend 64)))
    let is := fun (i : Instr) (f : BitVec 64 → BitVec 64 → BitVec 64) (g : BitVec 32 → BitVec 32 → BitVec 32) =>
      put i (if w = 1#1 then (f m x).toNat else (g q y).toNat)
    is (.amoAdd stl d a b w) (· + ·) (· + ·) ∧
    is (.amoMin stl d a b w) (fun m x => if m.toInt < x.toInt then m else x) (fun m x => if m.toInt < x.toInt then m else x) ∧
    is (.amoMax stl d a b w) (fun m x => if m.toInt < x.toInt then x else m) (fun m x => if m.toInt < x.toInt then x else m) ∧
    is (.amoMinn stl d a b w) (fun m x => if m.toNat < x.toNat then m else x) (fun m x => if m.toNat < x.toNat then m else x) ∧
    is (.amoMaxn stl d a b w) (fun m x => if m.toNat < x.toNat then x else m) (fun m x => if m.toNat < x.toNat then x else m) ∧
    is (.amoAnd stl d a b w) (· &&& ·) (· &&& ·) ∧ is (.amoOr stl d a b w) (· ||| ·) (· ||| ·) ∧ is (.amoXor stl d a b w) (· ^^^ ·) (· ^^^ ·) ∧
    is (.amoSwap stl d a b w) (fun _ x => x) (fun _ x => x) ∧
    (Ready s (gs [d]) → is (.amoCas stl d a b w) (fun m x => if m = s.g d then x else m) (fun m x => if m = (s.g d).setWidth 32 then x else m)) ∧
    (w = 0#1 → put (.amoFadd stl d a b) (f32Add q y).toNat ∧ put (.amoFmin stl d a b) (f32Min q y).toNat)))

/-- R204, R206 and R207: AMSG sends its request to the owner and waits, then takes the reply's value, or traps on its status; FENCE and FENCE.ENG
go on once drains and transfers are out of the way, FENCE.DRAIN once no core of its scope holds an addition that its home has not added: until then it has
them drained, and waits; hints never fault. -/
def Obligations.FencesAndHints : Prop :=
  ∀ (s u : State) (stl c : BitVec 3) (d a b : BitVec 5) (o : BitVec 7) (r : Reply) (w : Wait) (loc : Nat) (runs : List (Nat × Nat)),
    (Ready s ([(.g, d.toNat), (.g, a.toNat)] ++ State.runSrcs b c.toNat) →
      (s.ctx.wait = some w → w.stage = 2 → s.replyOf w.token = some r →
        (r.status = 0 → Gives (.amsg stl d a b c) s (unitDone s 1 stl ((s.dropReply w.token).putG d r.value))) ∧
        (r.status ≠ 0 → Gives (.amsg stl d a b c) s (trapped s 0x17#8 (engineVal r.status (s.g a))))) ∧
      (s.ctx.wait = none → State.isService s.ctx = true → Gives (.amsg stl d a b c) s (trapped s 0x17#8 (engineVal 0x18 0#64))) ∧
      (s.ctx.wait = none → State.isService s.ctx = false → s.reach .both 0 (s.g a) 8 8 [(0, 8)] = .go u ((loc, 8) :: runs) →
        u.speculative = false → u.drainsOut = false →
        ∃ t : State, Gives (.amsg stl d a b c) s t.await ∧ t.ctx.wait.map (fun w => (w.stage, w.token)) = some (2, u.pkg.nextId))) ∧
    (s.drainsOut = false → Gives (.fence stl) s (unitDone s 1 stl s)) ∧
    (s.drainsOut = true → Gives (.fence stl) s (heldUp s)) ∧
    (s.drainsOut = false → s.myXfers = [] → Gives (.fenceEng stl) s (unitDone s 1 stl s)) ∧
    (s.drainSet c.toNat = [] → (s.drainsOut = false → Gives (.fenceDrain stl c) s (unitDone s 1 stl s)) ∧
      (s.drainsOut = true → Gives (.fenceDrain stl c) s (heldUp s))) ∧
    (s.drainSet c.toNat ≠ [] → Gives (.fenceDrain stl c) s ((s.drainAll (s.drainSet c.toNat)).setWait s.waitNow).await) ∧
    (Ready s (gs [a]) →
      let dropped := fun (i : Instr) => ∃ t, Gives i s (unitDone s 1 stl t) ∧ t.mem = s.mem ∧
        t.ctx = { s.ctx with hintDrops := if s.ctx.hintDrops.toNat = 2 ^ 32 - 1 then s.ctx.hintDrops else s.ctx.hintDrops + 1#32 }
      let kept := fun (i : Instr) => ∃ t, Gives i s (unitDone s 1 stl t) ∧ t.mem = s.mem ∧ t.ctx = s.ctx
      (s.hintLoc (mAt s a o 128) = none → dropped (.hintL1 stl a o) ∧ dropped (.hintClu stl a o) ∧ dropped (.hintMsc stl a o) ∧
        dropped (.hintCrate stl a o) ∧ dropped (.hintLast stl a o)) ∧
      (s.hintLoc (mAt s a o 128) = some loc → kept (.hintL1 stl a o) ∧ kept (.hintClu stl a o) ∧ kept (.hintMsc stl a o) ∧
        kept (.hintCrate stl a o) ∧ kept (.hintLast stl a o)))

/-- R209 to R211: DECL gives a free handle, or its status when a line is taken or no handle is free, and traps on a descriptor out of its limits;
BOUND sets the bound and sends the sharers their new budgets; DRAIN and FREE are done at once when no core shares a line; a handle that is not the
issuer's traps. The choice of the handle is the model's free value (log entry 7). That DECL judges the descriptor before the place of its region, and BOUND the
handle (0x5) before the bound (0x1), is the model's choice (log entry 32). -/
def Obligations.RangeResults : Prop :=
  ∀ (s u v : State) (stl : BitVec 3) (d a b : BitVec 5) (x : RDesc) (r : Range) (runs rs : List (Nat × Nat)), Ready s (gs [a, b]) →
    let got := afterLoad u runs
    let bs := (atLoad u runs).rdRuns runs
    let wd := fun (i : Nat) => BitVec.ofNat 64 (bytesToNat ((bs.drop (8 * i)).take 8))
    let ls := State.wholeLines rs
    (s.reach .read 0 (s.g a) 32 32 [(0, 8), (8, 8), (16, 8), (24, 8)] = .go u runs → Free u runs →
      (RDesc.ofWords (wd 0) (wd 1) (wd 2) (wd 3) = none → Gives (.rangeDecl stl d a) s (trapped s 0x14#8 (s.g a * 256#64 + 1#64))) ∧
      (RDesc.ofWords (wd 0) (wd 1) (wd 2) (wd 3) = some x →
        got.reach .write 0 x.base 1 x.len (crateParts x.base.toNat 0 x.len 258) 8 = .go v rs → v.drainsOut = false → (∀ l ∈ ls, v.lineHeld l = false) →
        ((∃ l ∈ ls, (v.rangeAt l).isSome = true) → Gives (.rangeDecl stl d a) s (unitDone s 1 stl (v.putG d 0x0200000000000000#64))) ∧
        ((∀ l ∈ ls, v.rangeAt l = none) → (∀ h < 256, (v.range h).isSome = true) →
          Gives (.rangeDecl stl d a) s (unitDone s 1 stl (v.putG d 0x0100000000000000#64))) ∧
        ((∀ l ∈ ls, v.rangeAt l = none) → (∃ h < 256, v.range h = none) →
          ∃ (h : Nat) (t : State), h < 256 ∧ v.range h = none ∧ Gives (.rangeDecl stl d a) s (unitDone s 1 stl (t.putG d (BitVec.ofNat 64 h))) ∧ t.mem = v.mem ∧
            t.ctx = v.ctx ∧
            t.range h = some (Range.mk x.base x.len x.fmt x.bound v.ctx.ask.toNat v.ctx.mkid.toNat ls false)))) ∧
    (s.myRange (s.g a) = none → s.rangeBusy (s.g a).toNat = false → s.ctx.wait = none →
      Gives (.rangeBound stl a b) s (trapped s 0x14#8 5#64) ∧ Gives (.rangeDrain stl a) s (trapped s 0x14#8 5#64) ∧
      Gives (.rangeFree stl a) s (trapped s 0x14#8 5#64)) ∧
    (s.myRange (s.g a) = some r → r.freeing = false → s.rangeBusy (s.g a).toNat = false → s.ctx.wait = none →
      (r.fmt.boundOk (s.g b) = false → Gives (.rangeBound stl a b) s (trapped s 0x14#8 1#64)) ∧
      (r.fmt.boundOk (s.g b) = true → s.drainsOut = false →
        let n := { r with bound := r.fmt.boundOf (s.g b) }
        Gives (.rangeBound stl a b) s (unitDone s 1 stl ((s.setRange (s.g a).toNat (some n)).resplitAll n (s.heldLines r)))) ∧
      (s.drainsOut = false → (∀ l ∈ r.lines, (s.rline l).sharers = []) → Gives (.rangeDrain stl a) s (unitDone s 1 stl s)) ∧
      (s.drainsOut = false → (∀ l ∈ r.lines, l ∉ SMap.keys s.pkg.rlines) →
        ∃ t, Gives (.rangeFree stl a) s (unitDone s 1 stl t) ∧ t.range (s.g a).toNat = none ∧ t.mem = s.mem ∧ t.ctx = s.ctx))

/-- R212 to R217: an XFER whose words and entries pass their checks is issued in a free slot and returns its ticket: the context's issue count, this
transfer included, times 16, plus the slot. SCATTER reads its n indices at its issue, and traps with BOUNDS (0x11) where one lies past its tensor. One that
fails its checks traps with its code, and one with no slot free waits. XWAIT goes on when its transfer is complete and reports a kept error once; XWAIT.TEST
answers 0, 1 or 2. That an issue waits for an AMSG handler which holds one of its lines is the model's choice (log entry 110), and the statement's issues have none. -/
def Obligations.TransferResults : Prop :=
  ∀ (s : State) (stl : BitVec 3) (d a b : BitVec 5) (slot code op : Nat) (e : Err), a.toNat + 4 ≤ 32 →
    let w := fun (i : Nat) => s.g (a + BitVec.ofNat 5 i)
    let ent := fun (lo : Nat) => SMap.get ([] : TensorEntry) s.clu.tensors ((w 0).toNat / 2 ^ lo % 256)
    let n := (w 3).toNat % 2 ^ 32
    let p : BitVec 32 := (w 3).extractLsb' 32 32
    let check := fun (op : Nat) => State.xferCheck op (ent 0) (ent 8) (ent 16) (ent 24) ((w 1).toNat % 2 ^ 48) (w 2) p n
    let fields := fun (op : Nat) => (w 0).toNat / 2 ^ 32 = 0 ∧ (w 1).toNat / 2 ^ 48 = 0 ∧ (op = 3 ∨ (w 2).toNat / 2 ^ 48 = 0)
    let i := fun (op : Nat) => match op with
      | 0 => Instr.xferCopy stl d a b | 1 => .xferGather stl d a b | 2 => .xferScatter stl d a b | 3 => .xferFill stl d a b | 4 => .xferQcopy stl d a b
      | _ => .xferRgather stl d a b
    (Ready s (State.runSrcs a 4 ++ gs [b]) → op < 6 →
      (¬fields op → Gives (i op) s (trapped s 0x17#8 (engineVal 0x19 0#64))) ∧
      (fields op → check op = some code → Gives (i op) s (trapped s 0x17#8 (engineVal code 0#64))) ∧
      (fields op → check op = none → s.speculative = false → s.drainsOut = false → s.xferSlot = none →
        Gives (i op) s (s.setWait s.waitNow).await) ∧
      (fields op → check op = none → s.speculative = false → s.drainsOut = false → s.xferSlot = some slot → (∀ l, ∀ x ∈ s.lineIds l, s.isCommand x = true) →
        let indices := if op = 2 then s.scatterIdx (ent 16) 0 n else .inl []
        let most := fun (e : Nat) => (w 1).toNat % 2 ^ 48 + e % 2 ^ 32 < Tensor.rows (ent 0)
        (∀ xs, indices = .inl xs → (∀ e ∈ xs, most e) →
          ∃ (c : XCmd) (t : State), Gives (i op) s (unitDone s 1 stl t) ∧ t = s.issueXfer d c slot ∧ c.op = op ∧ c.site = s.site ∧ c.n = n ∧
            c.x = (w 1).toNat % 2 ^ 48 ∧ c.y = w 2 ∧ c.td = ent 0 ∧ c.ts = ent 8 ∧ c.ti = ent 16 ∧ c.tout = ent 24 ∧ c.key = s.ctx.ask.toNat ∧
            c.handler = s.g b ∧ c.idx = xs ∧ t.ctx.xcount = s.ctx.xcount + 1#60 ∧
            t.g d = (if d = 0#5 then 0#64 else BitVec.ofNat 64 ((s.ctx.xcount + 1#60).toNat * 16 + slot))) ∧
        (∀ xs, indices = .inl xs → (∃ e ∈ xs, ¬most e) → Gives (i op) s (trapped s 0x17#8 (engineVal 0x11 0#64))))) ∧
    (∀ (ti : TensorEntry) (k q : Nat) (u : State) (runs : List (Nat × Nat)) (xs : List Nat), (afterLoad u runs).scatterIdx ti (k + 1) q = .inl xs →
      s.reach .read 0 (indexArea ti k).addr 4 8 [(0, 4), (4, 4)] (4 * k) = .go u runs → Free u runs →
      s.scatterIdx ti k 0 = .inl [] ∧ s.scatterIdx ti k (q + 1) = .inl (bytesToNat ((atLoad u runs).rdRuns runs) :: xs)) ∧
    (Ready s (gs [a]) →
      (s.xferPending (s.g a) = false → s.drainsOut = false → (∀ x ∈ s.ctx.xerrs, x.ticket ≠ (s.g a).toNat) →
        Gives (.xwaitOne stl a b) s (unitDone s 1 stl s)) ∧
      (s.xferPending (s.g a) = true → Gives (.xwaitOne stl a b) s (heldUp s) ∧
        Gives (.xwaitTest stl d a b) s (unitDone s 1 stl (s.putG d 0#64))) ∧
      (s.xferPending (s.g a) = false → s.drainsOut = false → s.ctx.xerrs = [e] → e.ticket = (s.g a).toNat →
        Gives (.xwaitOne stl a b) s (((s.setCtx { s.ctx with xerrs := [] }).takeTrap 0x17#8 (engineVal e.code e.addr)).spend)) ∧
      (s.xferPending (s.g a) = false →
        Gives (.xwaitTest stl d a b) s (unitDone s 1 stl (s.putG d (if ∃ x ∈ s.ctx.xerrs, x.ticket = (s.g a).toNat then 2#64 else 1#64))))) ∧
    (s.myXfers = [] → s.drainsOut = false → s.ctx.xerrs = [] → Gives (.xwaitAll stl b) s (unitDone s 1 stl s))

/-- R186, R195, R218 and R219: PAGE drops the leaves it names from every TLB, asks for a crate's bias, releases the agents parked on listed pages,
and retires a key; every form is privileged and leaves memory as it is. That BIAS translates its page for reading is the model's choice (log entry 37), and
that RESUME reads the entries of its list, each an ordinary read of its own, in one step (log entry 75). -/
def Obligations.PageResults : Prop :=
  ∀ (s u : State) (stl : BitVec 3) (d a b : BitVec 5) (loc n : Nat) (runs : List (Nat × Nat)),
    (s.privileged = false →
      let no := fun (i : Instr) => Gives i s (trapped s 0x0E#8 0#64)
      no (.pageInvp stl d a b) ∧ no (.pageInvk stl d b) ∧ no (.pageInva stl d) ∧ no (.pageBias stl d a b) ∧ no (.pageResume stl d a b) ∧ no (.pageKret stl d b)) ∧
    (s.privileged = true → Ready s (gs [a, b]) → s.drainsOut = false →
      let drop := fun (i : Instr) (keep : Leaf → Prop) => ∃ t : State, Gives i s (unitDone s 1 stl (t.putG d 0#64)) ∧ t.mem = s.mem ∧ t.ctx = s.ctx ∧
        ∀ l, l ∈ t.pkg.tlb ↔ l ∈ s.pkg.tlb ∧ keep l
      drop (.pageInvp stl d a b) (fun l => ¬(l.key = (s.g b).toNat % 1024 ∧ l.page = (s.g a).toNat / 65536 * 65536 / 2 ^ pageShift l.level)) ∧
      drop (.pageInvk stl d b) (fun l => l.key ≠ (s.g b).toNat % 1024) ∧ drop (.pageInva stl d) (fun _ => False) ∧
      (s.ctx.wait = none → s.reach .read 0 (s.g a) 1 1 [(0, 1)] = .go u ((loc, 1) :: runs) → isGlobal loc = true → u.drainsOut = false →
        (SMap.get {} u.pkg.crates (crateOf loc)).flips = [] → (∀ r ∈ u.pkg.resv, r.2.ids = []) →
        u.partsOut (fun l => isGlobal (l * 128) && crateOf (l * 128) == crateOf loc) = false →
        ∃ t : State, Gives (.pageBias stl d a b) s (unitDone s 1 stl (t.putG d (if (SMap.get {} u.pkg.crates (crateOf loc)).host then 1#64 else 0#64))) ∧
          (SMap.get {} t.pkg.crates (crateOf loc)).host = (s.g b).getLsbD 0 ∧ t.mem = u.mem ∧ t.ctx = u.ctx) ∧
      ((s.g a).toNat % 16 ≠ 0 → Gives (.pageResume stl d a b) s (trapped s 0x06#8 (s.g a))) ∧
      ((s.g a).toNat % 16 = 0 → s.g b = 0#64 → Gives (.pageResume stl d a b) s (unitDone s 1 stl (s.putG d 0#64))) ∧
      ((s.g a).toNat % 16 = 0 → n = min (s.g b).toNat 4096 → 0 < n → Free u runs → (afterLoad u runs).drainsOut = false →
        s.reachEntries (s.g a) n = .go u runs →
        let q := (afterLoad u runs).resumeAll ((atLoad u runs).rdRuns runs) n
        Gives (.pageResume stl d a b) s (unitDone s 1 stl (q.2.putG d (BitVec.ofNat 64 q.1)))) ∧
      ((s.g b).toNat % 1024 = 0 → Gives (.pageKret stl d b) s (trapped s 0x09#8 0#64)) ∧
      ((s.g b).toNat % 1024 ≠ 0 → s.mkidBusy ((s.g b).toNat % 1024) = false → s.partsOut (State.ofMkid ((s.g b).toNat % 1024)) = false →
        ∃ t : State, Gives (.pageKret stl d b) s (unitDone s 1 stl (t.putG d 0#64)) ∧ t.mem = s.mem ∧ t.ctx = s.ctx ∧
          ∀ x < 4, SMap.get KeySt.none (t.dieAt x).keys ((s.g b).toNat % 1024) =
            if SMap.get KeySt.none (s.dieAt x).keys ((s.g b).toNat % 1024) = .loaded then .retired else SMap.get KeySt.none (s.dieAt x).keys ((s.g b).toNat % 1024)))

/-! ## The matrix engine -/

/-- R239 to R244, R247, R265 to R267: claims and leases. ACQ claims and takes a free lease, TRY answers 0 or 1, REL ends the claim when no command
is left, JOIN pairs a second context, FORM and DISS answer their statuses, MCFG reads and sets LEASERUN. That FORM judges its statuses in ascending order
is the model's choice (log entry 35). -/
def Obligations.LeaseResults : Prop :=
  ∀ (s t : State) (stl : BitVec 3) (d a : BitVec 5) (p : Pair) (c : Nat), s.site < 4096 →
    let own := clusterOf s.site
    let me : Pair := { primary := s.site }
    let x := (s.g a).toNat
    let done := fun (i : Instr) (u : State) => Gives i s (unitDone s 1 stl u)
    let put := fun (n : Nat) => s.putG d (BitVec.ofNat 64 n)
    let ms := State.gangMembers s.die (x % 16) (x / 16 % 4)
    (s.drainsOut = false → s.pairOf s.site = none → (s.addPair me [own]).takeLeases s.site [own] = (none, t) → done (.mlseAcq stl) t) ∧
    (s.drainsOut = false → s.pairOf s.site = some p → s.takeLeases p.primary (State.membersOf p) = (none, t) → done (.mlseAcq stl) t) ∧
    (s.drainsOut = false → s.pairOf s.site = none → (s.addPair me [own]).takeLeases s.site [own] = (some c, t) →
      Gives (.mlseAcq stl) s (t.setWait { t.waitNow with stage := State.acqStage, data := [c] }).await) ∧
    ((s.cluAt c).lease = none → (s.claimants c).filter (fun k => k.2.1 != s.site) = [] →
      ∃ u : State, s.takeLeases s.site [c] = (none, u) ∧ (u.cluAt c).lease = some s.site ∧ (u.cluAt c).runCount = 0 ∧
        (u.cluAt c).runLimit = (s.cluAt c).leaserun.toNat ∧ u.mem = s.mem ∧ u.ctx = s.ctx) ∧
    (s.pairOf s.site = none → s.takeLeases s.site [own] = (none, t) → done (.mlseTry stl d) ((t.addPair me [own]).putG d 0#64)) ∧
    (s.pairOf s.site = some p → s.takeLeases p.primary (State.membersOf p) = (none, t) → done (.mlseTry stl d) (t.putG d 0#64)) ∧
    (s.pairOf s.site = none → s.takeLeases s.site [own] = (some c, t) → done (.mlseTry stl d) (put 1)) ∧
    (s.ctx.merrs = [] → s.drainsOut = false → s.pairOf s.site = none → done (.mlseRel stl) s) ∧
    (s.ctx.merrs = [] → s.drainsOut = false → s.pairOf s.site = some p → p.primary = s.site → s.pairCmds p = [] → done (.mlseRel stl) (s.endClaim s.site)) ∧
    (Ready s (gs [a]) →
      (let other := 4 * coreOf s.site + x % 4
       (s.pairOf s.site = none → s.pairOf other = some p → other ≠ s.site → p.primary = other → p.partner = none →
          done (.mlseJoin stl d a) ((s.setPair { p with partner := some s.site, phase := 0, arrived0 := false, arrived1 := false } (State.membersOf p)).putG d 0#64)) ∧
       (s.pairOf s.site ≠ none ∨ s.pairOf other = none ∨ other = s.site → done (.mlseJoin stl d a) (put 1)) ∧
       (s.pairOf s.site = none → s.pairOf other = some p → (p.primary ≠ other ∨ p.partner ≠ none) → done (.mlseJoin stl d a) (put 1))) ∧
      (s.ctx.wait = none →
        (State.gangBaseOk (x % 16) (x / 16 % 4) = false → done (.mgangForm stl d a) (put 1)) ∧
        (State.gangBaseOk (x % 16) (x / 16 % 4) = true → (∃ m ∈ ms, (s.cluEn s.die).testBit (m % 16) = false) → done (.mgangForm stl d a) (put 2)) ∧
        (State.gangBaseOk (x % 16) (x / 16 % 4) = true → (∀ m ∈ ms, (s.cluEn s.die).testBit (m % 16) = true) →
          (own ∉ ms → done (.mgangForm stl d a) (put 3)) ∧
          (own ∈ ms → s.pairOf s.site ≠ none → done (.mgangForm stl d a) (put 4)) ∧
          (own ∈ ms → s.pairOf s.site = none → s.drainsOut = false →
            (s.addPair { primary := s.site, gang := some (x / 16 % 4, ms) } ms).takeLeases s.site ms = (none, t) →
            done (.mgangForm stl d a) (t.putG d 0#64)))) ∧
      (s.privileged = true →
        (1 ≤ x % 256 → x % 256 ≤ 64 → done (.mcfgRun stl d a)
          ((s.modClu own fun k => { k with leaserun := BitVec.ofNat 7 (x % 256) }).putG d (s.clu.leaserun.setWidth 64))) ∧
        (x % 256 = 0 ∨ 64 < x % 256 → done (.mcfgRun stl d a) (put 0)))) ∧
    (s.privileged = false → Gives (.mcfgRun stl d a) s (trapped s 0x0E#8 0#64)) ∧
    done (.mcfgGet stl d) (s.putG d (s.clu.leaserun.setWidth 64)) ∧
    (s.pairOf s.site = none → done (.mgangDiss stl d) (put 1)) ∧
    (s.pairOf s.site = some p → (p.primary ≠ s.site ∨ p.gang = none) → done (.mgangDiss stl d) (put 1)) ∧
    (s.pairOf s.site = some p → p.primary = s.site → p.gang ≠ none → s.pairCmds p = [] → s.drainsOut = false →
      ∃ u : State, done (.mgangDiss stl d) (u.putG d 0#64) ∧ u.mem = s.mem ∧ u.ctx = s.ctx)

/-- R261 and R264: TDEF.SET stores the image read, with VALID clear when it is malformed, and says so; GET writes the entry's 64 bytes; CLR clears
VALID and keeps the rest.
R246, R251, R257, R272, R274 and R275: row handlers, the group barrier and the status word. -/
def Obligations.TensorEntries : Prop :=
  (∀ (s u : State) (stl : BitVec 3) (d a b : BitVec 5) (runs : List (Nat × Nat)), Ready s (gs [a, b]) →
    let pieces := (List.range 8).map fun i => (8 * i, 8)
    let k := (s.g b).toNat % 256
    let bs := (atLoad u runs).rdRuns runs
    let img : TensorEntry := (List.range 8).map fun i => BitVec.ofNat 64 (bytesToNat ((bs.drop (8 * i)).take 8))
    (s.reach .read 0 (s.g a) 64 64 pieces = .go u runs → Free u runs →
      (Tensor.malformed img = false → Gives (.tdefSet stl d a b) s (unitDone s 1 stl (((afterLoad u runs).setTensor k img).putG d 0#64))) ∧
      (Tensor.malformed img = true → ∃ e : TensorEntry, Gives (.tdefSet stl d a b) s (unitDone s 1 stl (((afterLoad u runs).setTensor k e).putG d 1#64)) ∧
        Tensor.valid e = false ∧ e.tail = img.tail)) ∧
    (s.reach .write 0 (s.g a) 64 64 pieces = .go u runs → Free u runs → u.speculative = false →
      Gives (.tdefGet stl a b) s (unitDone s 1 stl (u.writeRuns runs ((List.range 8).flatMap fun i => natToBytes 8 ((s.tensor k).getD i 0#64).toNat)))) ∧
    (s.drainsOut = false → Ready s (gs [b]) →
      ∃ e : TensorEntry, Gives (.tdefClr stl b) s (unitDone s 1 stl (s.setTensor k e)) ∧ Tensor.valid e = false ∧ e.tail = (s.tensor k).tail) ∧
    (∀ (i : Nat) (e : TensorEntry), (s.setTensor k e).tensor i = if i = k then e else s.tensor i)) ∧
  (∀ (s : State) (stl : BitVec 3) (d a b : BitVec 5) (p : Pair) (e : Err),
    let e0 := s.g a
    let x := (s.g b).toNat
    let shelf := x % 32
    let area := x / 2 ^ 14 % 16
    let sh := s.shelfAt (32 * clusterOf s.site + shelf)
    let g := if p.primary = s.site then 0 else 1
    let here := if g = 0 then p.arrived0 else p.arrived1
    let there := if g = 0 then p.arrived1 else p.arrived0
    (Ready s (gs [a, b]) →
      (e0.toNat % 4 ≠ 0 ∨ 2 ^ 56 ≤ e0.toNat → Gives (.mhndSet stl a b) s (trapped s 0x06#8 e0)) ∧
      (e0.toNat % 4 = 0 → e0.toNat < 2 ^ 56 → s.coreEnabled (16 * clusterOf s.site + shelf / 2) = true → sh.target.getD sh.mode = .scratch →
        (shelf % 2 = 0 ∨ area ≤ 12) →
        Gives (.mhndSet stl a b) s (unitDone s 1 stl (s.setCtx { s.ctx with rowh := some { entry := e0, shelf := shelf, area := area } })))) ∧
    Gives (.mhndClr stl) s (unitDone s 1 stl (s.setCtx { s.ctx with rowh := none })) ∧
    (s.ctx.wait = none →
      (s.pairOf s.site = none → Gives (.mbar stl) s (trapped s 0x16#8 1#64)) ∧
      (s.pairOf s.site = some p → s.drainsOut = false →
        (p.partner = none → Gives (.mbar stl) s (unitDone s 1 stl s)) ∧
        (p.partner ≠ none → here = true → Gives (.mbar stl) s (trapped s 0x16#8 3#64)) ∧
        (p.partner ≠ none → here = false → there = true →
          Gives (.mbar stl) s (unitDone s 1 stl (s.setPair { p with phase := p.phase + 1, arrived0 := false, arrived1 := false } (State.membersOf p)))))) ∧
    (∃ v : Word, Gives (.mstat stl d) s (unitDone s 1 stl ((s.setCtx { s.ctx with half := false }).putG d v)) ∧
      v.getLsbD 62 = s.ctx.half ∧ v.getLsbD 61 = !s.ctx.merrs.isEmpty ∧ v.toNat / 2 ^ 32 % 16 = min (s.cmdsOn (clusterOf s.site)).length 8 ∧
      (s.pairOf s.site = none → v.getLsbD 63 = false ∧ v.getLsbD 60 = false ∧ v.getLsbD 59 = false ∧ v.toNat % 2 ^ 32 = 0) ∧
      (s.pairOf s.site = some p → v.getLsbD 63 = !(s.pairCmds p).isEmpty ∧ v.getLsbD 60 = p.gang.isSome ∧ v.getLsbD 59 = s.holds p ∧
        v.getLsbD 56 = decide (p.primary ≠ s.site) ∧ v.toNat / 2 ^ 40 % 256 = p.phase % 256 ∧
        v.toNat / 2 ^ 48 % 256 = (if s.holds p = true ∧ s.clu.runOver = false then s.clu.runLimit - s.clu.runCount else 0) % 256) ∧
      (s.ctx.merrs = [] → s.myCmds = [] → s.drainsOut = false →
        Gives (.mstatWait stl d) s (unitDone s 1 stl ((s.setCtx { s.ctx with half := false }).putG d v)))) ∧
    (s.ctx.merrs = [e] →
      Gives (.mstatWait stl d) s (((s.setCtx { s.ctx with merrs := [] }).takeTrap 0x17#8 (engineVal e.code e.addr)).spend)))

/-- R237, R241, R245, R250, R260 and R268 to R273: a counted command of a pair that holds its lease, in its parity and within its limits, is accepted
with the entries and operands it names; without a claim it raises LEASE, reason 1, and reserved bits of its block raise ENGINE, code 0x19. That LEASE's value
shows the command's plane in bits 11–8 with reason 1 too is the model's reading (log entry 39). -/
def Obligations.MatrixCommands : Prop :=
  ∀ (s u : State) (stl : BitVec 3) (a : BitVec 5) (x n q : BitVec 1) (f : BitVec 2) (p : Pair), a.toNat + 3 ≤ 32 →
    let w := fun (i : Nat) => (s.g (a + BitVec.ofNat 5 i)).toNat
    let shape := (p.gang.map (·.1)).getD 0
    let m := w 0 / 2 ^ 16 % 1024 + 1
    let cn := w 0 / 2 ^ 26 % 1024 + 1
    let ten := fun (i : Nat) => s.tensor i
    let ta := ten (w 0 % 256)
    let tb := ten (w 0 / 256 % 256)
    let i0 := w 1 % 2 ^ 32
    let j0 := w 1 / 2 ^ 32
    let k0 := w 2 % 2 ^ 32
    let k := w 2 / 2 ^ 32
    let led := s.pairOf s.site = some p ∧ p.partner = none ∧ s.takeLeases p.primary (State.membersOf p) = (none, u)
    let mine := ∀ c ∈ State.membersOf p, u.futureTag c q.toNat = none ∨ u.futureTag c q.toNat = some (p.primary % 4096)
    let room := u.speculative = false ∧ u.drainsOut = false ∧ (∀ c ∈ State.membersOf p, (u.cmdsOn c).length < 8) ∧
      ∀ l, ∀ x ∈ u.lineIds l, u.isCommand x = true
    let tile := m ≤ 256 * gangRows shape ∧ cn ≤ 256 * gangCols shape
    let mmaFits := w 0 / 2 ^ 36 = 0 ∧ Tensor.valid ta = true ∧ Tensor.valid tb = true ∧ tile ∧ k ≠ 0 ∧ i0 + m ≤ Tensor.rows ta ∧ j0 + cn ≤ Tensor.rows tb ∧
      k0 + k ≤ Tensor.d0 ta ∧ k0 + k ≤ Tensor.d0 tb
    let quants := Tensor.isQ (Tensor.fmt ta) = true ∧ Tensor.isQ (Tensor.fmt tb) = true ∧ Tensor.group ta = Tensor.group tb ∧
      k0 % Tensor.group ta = 0 ∧ k % Tensor.group ta = 0
    let takes := fun (i : Instr) (op : MOp) (tens : List TensorEntry) (args : List Nat) =>
      ∃ c : MCmd, Gives i s (unitDone s 1 stl (u.accept p c)) ∧ c.op = op ∧ c.plane = q.toNat ∧ c.site = u.site ∧ c.primary = p.primary ∧
        c.members = State.membersOf p ∧ c.tens = tens ∧ c.args = args ∧ c.started = false ∧ c.prog = 0
    let cmds := [Instr.mmaNew stl a q, .mmaAcc stl a q, .mmaqNew stl a q, .mmaqAcc stl a q, .maccSt stl a x q, .maccDrain stl a x q, .xexp stl a n f q]
    let fm := Tensor.fmt ta
    let area := State.xexpLen f.toNat (w 1 / 2 ^ 32 % 1024 + 1) (w 1 / 2 ^ 42 % 1024 + 1)
    Ready s (State.runSrcs a 3) → Ready s (State.runSrcs a 2) →
    (s.pairOf s.site = none → ∀ i ∈ cmds, Gives i s (trapped s 0x16#8 (BitVec.ofNat 64 (1 + q.toNat * 256)))) ∧
    (led → room → mmaFits →
      (State.mmaPair fm (Tensor.fmt tb) = true → takes (.mmaNew stl a q) (.mma true false) [ta, tb] [m, cn, i0, j0, k0, k]) ∧
      (State.mmaPair fm (Tensor.fmt tb) = true → mine → takes (.mmaAcc stl a q) (.mma false false) [ta, tb] [m, cn, i0, j0, k0, k]) ∧
      (quants → takes (.mmaqNew stl a q) (.mma true true) [ta, tb] [m, cn, i0, j0, k0, k]) ∧
      (quants → mine → takes (.mmaqAcc stl a q) (.mma false true) [ta, tb] [m, cn, i0, j0, k0, k])) ∧
    (led → room → mine → w 0 / 2 ^ 36 = 0 → w 0 / 256 % 256 = 0 → Tensor.valid ta = true →
      ((Tensor.float fm).isSome = true ∨ fm = 6 ∨ fm = 12) → tile → i0 + m ≤ Tensor.rows ta → j0 + cn ≤ Tensor.d0 ta →
      (Tensor.width fm = 4 → j0 % 2 = 0 ∧ cn % 2 = 0) →
      (u.ctx.merrs = [] → takes (.maccSt stl a x q) (.macc (x == 1#1) false) [ta] [m, cn, i0, j0]) ∧
      (s.ctx.rowh ≠ none → takes (.maccDrain stl a x q) (.macc (x == 1#1) true) [ta] [m, cn, i0, j0])) ∧
    (s.pairOf s.site = some p → p.partner = none → s.takeLeases p.primary (State.membersOf p) = (none, u) →
      w 0 / 2 ^ 36 ≠ 0 → Gives (.mmaNew stl a q) s (trapped s 0x17#8 0x1900000000000000#64)) ∧
    (led → room → mine → w 1 / 2 ^ 52 = 0 → (∃ num den e, f32Val (BitVec.ofNat 32 (w 1)) = .fin false num den e ∧ num ≠ 0) →
      w 1 / 2 ^ 32 % 1024 + 1 ≤ 256 * gangRows shape → w 1 / 2 ^ 42 % 1024 + 1 ≤ 256 * gangCols shape → w 0 % 128 = 0 → (n = 1#1 → w 2 % 4 = 0) →
      s.xexpArea (s.g a) area = none →
      takes (.xexp stl a n f q) (.xexp f.toNat (n == 1#1)) [] [w 1 / 2 ^ 32 % 1024 + 1, w 1 / 2 ^ 42 % 1024 + 1, w 0, w 1 % 2 ^ 32, w 2])

/-! ## The context engine -/

/-- R303, R306 and R307: a handle that is free or of another key raises VERSION 1 or 2. CTX.NEW answers status 2 for a malformed descriptor, 1 when
no handle is free, and otherwise makes an empty context of the issuer's key; FORK copies the record and shares the path; FREE ends the handle and its
binding; INFO gives the wave counter and the length. Which free handle is taken is the model's free value (log entry 7); that NEW judges the descriptor
before the handles (log entry 62), and that the record keeps the key under which it named THRTAB (log entries 93 and 23), is the model's choice. -/
def Obligations.ContextHandles : Prop :=
  ∀ (s u v : State) (stl : BitVec 3) (d a : BitVec 5) (runs rs : List (Nat × Nat)) (r r0 : Rec) (thr : Word), Ready s (gs [a]) →
    let h := (s.g a).toNat % 65536
    let mine := s.crec h = some r ∧ (r.key = s.ctx.ask.toNat ∨ s.privileged = true)
    let quiet := fun (s : State) => s.speculative = false ∧ s.drainsOut = false
    let got := afterLoad u runs
    let bs := (atLoad u runs).rdRuns runs
    let w := fun (i : Nat) => BitVec.ofNat 64 (bytesToNat ((bs.drop (8 * i)).take 8))
    let users := [Instr.ctxFork stl d a, .ctxFree stl a, .ctxInfo stl d a, .dmapCnt stl d a, .walk stl d a, .dmapGet stl d a]
    let st := fun (i : Instr) (t : State) (n v : Nat) => Gives i s (unitDone s 1 stl (t.putG d (BitVec.ofNat 64 (n * 2 ^ 56 + v))))
    (s.crec h = none → ∀ i ∈ users, Gives i s (trapped s 0x15#8 (BitVec.ofNat 64 (1 + h * 2 ^ 8)))) ∧
    (s.crec h = some r → r.key ≠ s.ctx.ask.toNat → s.privileged = false → ∀ i ∈ users, Gives i s (trapped s 0x15#8 (BitVec.ofNat 64 (2 + h * 2 ^ 8)))) ∧
    (s.reach .read 0 (s.g a) 32 32 [(0, 8), (8, 8), (16, 8), (24, 8)] = .go u runs → Free u runs →
      (ctxDesc (w 0) (w 1) (w 2) (w 3) = none → quiet got → st (.ctxNew stl d a) got 2 0) ∧
      (ctxDesc (w 0) (w 1) (w 2) (w 3) = some (r0, thr) → got.reach .read 0 thr 512 512 ((upto 0 64).map fun i => (8 * i, 8)) 16 = .go v rs →
        isGlobal (rs.getD 0 (0, 0)).1 = true → quiet v →
        (16384 ≤ (SMap.keys (v.dieAt v.die).recs).length → st (.ctxNew stl d a) v 1 0) ∧
        ((SMap.keys (v.dieAt v.die).recs).length < 16384 → ∃ (k : Nat) (t : State), k / 16384 = v.die ∧ st (.ctxNew stl d a) t 0 k ∧
          t = v.setRec k (some { r0 with key := v.ctx.ask.toNat, thrtab := dpaOf (rs.getD 0 (0, 0)).1, thrmkid := mkidOf (rs.getD 0 (0, 0)).1 })))) ∧
    (mine → quiet s →
      (s.settledAll h r = false → Gives (.ctxFork stl d a) s (s.setWait { s.waitNow with watch := [h] }).await) ∧
      (s.settledAll h r = true → s.newHandle (h / 16384) = none → st (.ctxFork stl d a) s 1 0) ∧
      (∀ k, s.settledAll h r = true → s.newHandle (h / 16384) = some k →
        (s.poolRoom (h / 16384) 1 = false → st (.ctxFork stl d a) s 3 0) ∧
        (s.poolRoom (h / 16384) 1 = true →
          st (.ctxFork stl d a) ((s.setRec k (some r)).shareAll (h / 16384) (s.path (h / 16384) r)) 0 k)) ∧
      (∃ t, Gives (.ctxFree stl a) s (unitDone s 1 stl t) ∧ t.mem = s.mem ∧ SameRegs s.ctx t.ctx ∧ t.crec h = none ∧ t.bindOf h = none) ∧
      Gives (.ctxInfo stl d a) s (unitDone s 1 stl (s.putG d (BitVec.ofNat 64 (s.nextWave r.key * 2 ^ 32 + r.length)))))

/-- R290 to R292, R308 and R309: an EDIT of no token changes nothing; one that its checks turn away answers status 1, 2 or 3; one that passes is a
wave of the context's domain and changes its length. KVAP.APP appends tokens without a wave, KVAP.POOL adds crates to a pool; the faults of R198 come before
VERSION 9 for a count out of range (R44). -/
def Obligations.ContextEdits : Prop :=
  ∀ (s u : State) (stl : BitVec 3) (d a b : BitVec 5) (r : Rec) (tok : Nat) (runs : List (Nat × Nat)), a.toNat < 31 →
    Ready s [(.g, a.toNat), (.g, a.toNat + 1), (.g, b.toNat)] →
    let w := s.g a
    let x := s.g (a + 1#5)
    let h := bits w 15 0
    let p := bits w 55 32
    let t := bits x 31 0
    let st := fun (i : Instr) (v : State) (n k : Nat) => Gives i s (unitDone s 1 stl (v.putG d (BitVec.ofNat 64 (n * 2 ^ 56 + k))))
    let tokens := fun (u : State) (t : Nat) (y : Word) => (t = 0 ∧ u = s ∧ tok = 0) ∨ (t ≠ 0 ∧ s.reach .read 0 y 4 (4 * t) [(0, 4), (4 * t - 4, 4)] 16 = .go u runs ∧
      isGlobal (runs.getD 0 (0, 0)).1 = true ∧ tok = dpaOf (runs.getD 0 (0, 0)).1)
    let quiet := fun (s : State) => s.speculative = false ∧ s.drainsOut = false
    let edits := fun (i : Instr) (u : State) (nd ni tok : Nat) =>
      (t = 0 → Gives i s (unitDone s 1 stl (u.putG d 0#64))) ∧
      (t ≠ 0 → r.length < p + nd ∨ 2 ^ 24 + nd < r.length + ni → st i u 1 0) ∧
      (t ≠ 0 → p + nd ≤ r.length → r.length + ni ≤ 2 ^ 24 + nd →
        (2 ^ 24 ≤ u.nextWave r.key → st i u 2 0) ∧
        (u.nextWave r.key < 2 ^ 24 → u.poolRoom (h / 16384) (u.nodesNeeded h p nd ni r) = false → st i u 3 0) ∧
        (u.nextWave r.key < 2 ^ 24 → u.poolRoom (h / 16384) (u.nodesNeeded h p nd ni r) = true →
          let q := u.editDo h p nd ni tok (bits w 26 16) r
          st i q.2 0 (u.nextWave r.key) ∧ q.2.mem = u.mem ∧ SameRegs u.ctx q.2.ctx ∧ q.2.nextWave r.key = u.nextWave r.key + 1 ∧
            (q.2.crec h).map (·.length) = some (r.length + ni - nd)))
    let q := (s.g a).toNat
    let n := q / 2 ^ 32 % 65536
    let cnt := (s.g b).toNat % 2 ^ 32
    (s.crec h = some r → (r.key = s.ctx.ask.toNat ∨ s.privileged = true) → bits w 31 27 = 0 → bits w 63 56 = 0 → s.walkHeld h p r = false →
      (quiet s → edits (.editDel stl d a) s t 0 0) ∧
      (tokens u t (s.g b) → quiet u → edits (.editIns stl d a b) u 0 t tok ∧ edits (.editRep stl d a b) u t t tok)) ∧
    (s.crec h = some r → (r.key = s.ctx.ask.toNat ∨ s.privileged = true) → (bits w 31 27 ≠ 0 ∨ bits w 63 56 ≠ 0) →
      Gives (.editDel stl d a) s (trapped s 0x15#8 (BitVec.ofNat 64 (9 + h * 2 ^ 8))) ∧
      Gives (.editIns stl d a b) s (trapped s 0x15#8 (BitVec.ofNat 64 (9 + h * 2 ^ 8)))) ∧
    (s.crec h = some r → (r.key = s.ctx.ask.toNat ∨ s.privileged = true) → q / 2 ^ 16 % 2 ^ 16 = 0 → q / 2 ^ 48 = 0 → n ≠ 0 → tokens u n (s.g b) → quiet u →
      (2 ^ 24 < r.length + n → st (.kvapApp stl d a b) u 1 0) ∧
      (r.length + n ≤ 2 ^ 24 → u.poolRoom (h / 16384) ((n + 4095) / 4096) = false → st (.kvapApp stl d a b) u 3 0) ∧
      (r.length + n ≤ 2 ^ 24 → u.poolRoom (h / 16384) ((n + 4095) / 4096) = true →
        ∃ v : State, st (.kvapApp stl d a b) v 0 0 ∧ (v.crec h).map (·.length) = some (r.length + n) ∧ v.mem = u.mem ∧ v.ctx = u.ctx ∧
          v.nextWave r.key = u.nextWave r.key)) ∧
    (q % 65536 ≠ 0 → Gives (.kvapPool stl d a b) s (trapped s 0x06#8 (s.g a))) ∧
    (s.reach .write 0 (s.g a) 65536 (max 1 (65536 * cnt)) (crateParts q 0 (65536 * cnt) (cnt + 1)) 16 = .go u runs → (∀ x ∈ runs, isGlobal x.1 = true) →
      cnt = 0 ∨ 65536 < cnt → Gives (.kvapPool stl d a b) s (trapped s 0x15#8 9#64)) ∧
    (0 < cnt → cnt ≤ 65536 →
      s.reach .write 0 (s.g a) 65536 (65536 * cnt) (crateParts q 0 (65536 * cnt) (cnt + 1)) 16 = .go u runs → (∀ x ∈ runs, isGlobal x.1 = true) → quiet u →
      ∃ (pool : List Nat) (v : State), Gives (.kvapPool stl d a b) s (unitDone s 1 stl (v.putG d (BitVec.ofNat 64 pool.length))) ∧
        SMap.get [] (v.dieAt v.die).pools v.ctx.ask.toNat = pool ∧ v.mem = u.mem ∧ v.ctx = u.ctx ∧
        ∀ c, c ∈ pool ↔ c ∈ SMap.get [] (u.dieAt u.die).pools u.ctx.ask.toNat ∨ c ∈ runs.map (·.1))

/-- R288, R294, R305, R310 and R311: WALK gives the node, block and row of a position, DMAP.GET its validity entry, DMAP.CNT how many entries wait,
DMAP.THR sets a layer's threshold; positions and layers out of range raise VERSION 3 and 4. The table address in WALK's second register is the
engine's choice (log entry 9), and 0 for an unprivileged issuer. A walker that finds an absent page parks (R283, R393): WALK waits, with AGENT 3, and goes on
from the node that the walker had reached, with the position as it resolved at its issue; while a die's four walkers are parked it waits for one. That the
parked page is the crate of the node (log entry 94), and under which key DMAP.THR writes a threshold (log entries 93 and 23), is the model's choice.
R293 and R312: WAVE.BIND binds a handle's stream or holds it; WAVE.NEXT takes the waiting entry of the lowest ordinal of an unbound stream, and
answers 0 when there is none. -/
def Obligations.ContextReads : Prop :=
  (∀ (s : State) (stl : BitVec 3) (d a b : BitVec 5) (r : Rec) (k : BlockAt), Ready s (gs [a, b]) →
    let w := s.g a
    let h := bits w 15 0
    let p := bits w 55 32
    let l := bits w 31 24
    let node := s.node (h / 16384) k.node
    let e := s.ent (h / 16384) k.bid l
    let θ := (s.g b).toNat % 65536
    let at' := [(gloc r.thrmkid (r.thrtab + 2 * l), 2)]
    s.crec h = some r → (r.key = s.ctx.ask.toNat ∨ s.privileged = true) →
    Gives (.dmapCnt stl d a) s (unitDone s 1 stl (s.putG d (BitVec.ofNat 64 (s.dirtyCount h r)))) ∧
    (bits w 63 56 = 0 → bits w 23 16 = 0 →
      (r.length ≤ p → s.waitNow.node = none → Gives (.walk stl d a) s (trapped s 0x15#8 (BitVec.ofNat 64 (3 + h * 2 ^ 8 + p * 2 ^ 24)))) ∧
      (∀ i q, p < r.length → s.noWalker (h / 16384) = false → s.walkGap h p r = some (i, q) → s.waitNow.parked = none →
        ∃ t : State, Gives (.walk stl d a) s t.await ∧ t.mem = s.mem ∧ t.ctx.wait.bind (·.parked) = some (0, q) ∧ t.ctx.wait.bind (·.node) = some i ∧
          t.ctx.wait.map (·.data) = some (s.resolved h p) ∧
          ∃ z, (t.dieAt (h / 16384)).parks = (s.dieAt (h / 16384)).parks ++ [z] ∧ z.agent = 3 ∧ z.site = 0x3FFFFF ∧ z.page = q) ∧
      (p < r.length → s.noWalker (h / 16384) = true → s.drainsOut = false → ∃ t : State, Gives (.walk stl d a) s t.await ∧ t.mem = s.mem ∧ t.ctx.g = s.ctx.g ∧
        t.dies = s.dies) ∧
      (p < r.length → s.walkHeld h p r = false → s.waitNow.node = none → s.blockAt h p = some k →
        Gives (.walk stl d a) s (unitDone s 1 stl (((s.putG d (BitVec.ofNat 64 (k.node * 2 ^ 32 + k.bid))).putG (d + 1#5)
          (if s.privileged then BitVec.ofNat 64 (Config.slotDir (h / 16384) k.bid) else 0#64)).putG (d + 2#5)
          (BitVec.ofNat 64 (((node.blocks.getD k.idx { bid := 0, rowoff := 0 }).rowoff + (p - k.pos)) * 2 ^ 40 + (p - node.start) * 2 ^ 24 + node.start))))) ∧
      (∀ n bid row start : Nat, s.waitNow.node ≠ none → s.waitNow.data = [n, bid, row, start] → s.walkHeld h p r = false →
        Gives (.walk stl d a) s (unitDone s 1 stl (((s.putG d (BitVec.ofNat 64 (n * 2 ^ 32 + bid))).putG (d + 1#5)
          (if s.privileged then BitVec.ofNat 64 (Config.slotDir (h / 16384) bid) else 0#64)).putG (d + 2#5)
          (BitVec.ofNat 64 (row * 2 ^ 40 + (p - start) * 2 ^ 24 + start))))) ∧
      (r.layers ≤ l → Gives (.dmapGet stl d a) s (trapped s 0x15#8 (BitVec.ofNat 64 (4 + h * 2 ^ 8 + p * 2 ^ 24 + l * 2 ^ 48)))) ∧
      (l < r.layers → p < r.length → s.walkHeld h p r = false → s.waitNow.node = none → s.blockAt h p = some k → ∃ v : Word, Gives (.dmapGet stl d a) s (unitDone s 1 stl (s.putG d v)) ∧
        v = BitVec.ofNat 64 ((match e.st with | .clean => 0 | .dirty => 1 | .inflight => 2 | .skipped => 3) * 2 ^ 62 + (if e.need0 then 2 ^ 61 else 0) +
          (if e.again then 2 ^ 60 else 0) + (if e.again0 then 2 ^ 59 else 0) + e.new * 2 ^ 24 + e.old)) ∧
      (p = 0 → l < r.layers → (θ / 2 ^ 15 = 1 ∨ (Fmt.f16.dec θ).isNan = true) →
        Gives (.dmapThr stl a b) s (trapped s 0x15#8 (BitVec.ofNat 64 (8 + h * 2 ^ 8 + l * 2 ^ 48)))) ∧
      (p = 0 → l < r.layers → θ / 2 ^ 15 = 0 → (Fmt.f16.dec θ).isNan = false → s.speculative = false → Free s at' →
        Gives (.dmapThr stl a b) s (unitDone s 1 stl (s.writeRuns at' (natToBytes 2 θ)))))) ∧
  (∀ (s : State) (stl : BitVec 3) (d a b : BitVec 5) (r : Rec) (e : State.Ready), Ready s (gs [d, a, b]) →
    let x := s.g d
    let bh := bits (s.g a) 15 0
    let nh := bits (s.g a) 15 0
    let entry := s.g b
    let own := fun (h : Nat) => s.crec h = some r ∧ (r.key = s.ctx.ask.toNat ∨ s.privileged = true)
    let good := entry.toNat % 4 = 0 ∧ entry.toNat < 2 ^ 56
    (¬good → Gives (.waveBind stl d a b) s (trapped s 0x06#8 entry) ∧ Gives (.waveNext stl d a b) s (trapped s 0x06#8 entry)) ∧
    (good → own bh → s.spanCores (bits x 11 0) (bits x 13 12) = [] → Gives (.waveBind stl d a b) s (trapped s 0x17#8 0x3000000000000000#64)) ∧
    (good → own bh → s.spanCores (bits x 11 0) (bits x 13 12) ≠ [] → s.speculative = false → s.drainsOut = false →
      ∃ t, Gives (.waveBind stl d a b) s (unitDone s 1 stl t) ∧ t.mem = s.mem ∧ t.ctx = s.ctx ∧
        t.bindOf bh = if entry = 0#64 then none else some { entry := entry, span := bits x 13 12, site := bits x 11 0 }) ∧
    (good → own nh →
      (s.bindOf nh ≠ none → Gives (.waveNext stl d a b) s (unitDone s 1 stl (s.putG d 0#64))) ∧
      (s.bindOf nh = none → State.lowest (s.readyOf nh) = none → Gives (.waveNext stl d a b) s (unitDone s 1 stl (s.putG d 0#64))) ∧
      (s.bindOf nh = none → State.lowest (s.readyOf nh) = some e → (s.queued (coreOf s.site)).length < 256 →
        ∃ t : State, Gives (.waveNext stl d a b) s (unitDone s 1 stl (t.putG d (BitVec.ofNat 64 e.ord))) ∧ t.mem = s.mem ∧ t.ctx = s.ctx ∧
          (t.ent (nh / 16384) e.blk.bid e.layer).st = .inflight)))

/-- R296 to R299, R313 to R316: what VLDW reads of a block's versions by its qualifier, what VSTW makes pending or installs, DELTA and SETTLE. That an ordered
reader sees the newest version below its ordinal whatever its qualifier (log entry 59), and that a task's first write discards the version that an earlier task of
its ordinal has left (log entry 95), is the model's choice.
R294, R315 and R316: DELTA records δ for the task's DONE and rounds it upward; outside a wave task's own write it raises VERSION 7. SETTLE goes
on when every entry of its range is settled up to its wave, SETTLE.TRY says whether it is. -/
def Obligations.VersionResults : Prop :=
  (∀ (s : State) (stl : BitVec 3) (d a b : BitVec 5) (y : BitVec 1) (r : Rec) (σ : Slot) (off pos : Nat), a.toNat < 31 →
    Ready s [(.g, a.toNat), (.g, a.toNat + 1)] →
    let w := s.g a
    let x := s.g (a + 1#5)
    let h := bits w 15 0
    let n := s.vbytes
    let ends := fun (i : Instr) (seen : Seen) =>
      (seen = .absent → Gives i s (unitDone s 1 stl (s.putG b 1#64))) ∧
      (seen = .freed → Gives i s (trapped s 0x15#8 (BitVec.ofNat 64 (5 + h * 2 ^ 8 + pos % 2 ^ 24 * 2 ^ 24 + σ.layer % 256 * 2 ^ 48)))) ∧
      (∀ o data, seen = .version o data → Gives i s
        (unitDone s 1 stl ((s.putV d (BitVec.ofNat 4096 (bytesToNat ((data.drop off).take n)))).putG b (BitVec.ofNat 64 (o * 2 ^ 16)))))
    let cap := s.capWave r.key (bits x 55 32)
    let bs := natToBytes n (s.vcur d).toNat
    let size := r.verSize σ.part
    (s.ctx.wait = none → s.drainsOut = false → s.nameSlot w x (y == 1#1) n = .at r σ off pos → s.orderedIn r.key = false →
      ends (.vldwCur stl d a b y) (s.committed σ fun _ => true) ∧
      (s.settledAt h σ.bid σ.layer cap = true → ends (.vldwSnap stl d a b y) (s.committed σ fun o => decide (waveOf o ≤ cap))) ∧
      (s.settledAt h σ.bid σ.layer (s.nextWave r.key - 1) = true → ends (.vldwSettled stl d a b y) (s.committed σ fun _ => true)) ∧
      (s.settledAt h σ.bid σ.layer cap = false → ∃ t : State, Gives (.vldwSnap stl d a b y) s t.await ∧ t.mem = s.mem)) ∧
    (s.ctx.wait = none → s.drainsOut = false → s.nameSlot w x (y == 1#1) n = .at r σ off pos → s.orderedIn r.key = true → s.speculative = false →
      ends (.vldwCur stl d a b y) (s.anyVersion σ fun o => decide (o < s.ctx.ord.toNat)) ∧
      ends (.vldwSettled stl d a b y) (s.anyVersion σ fun o => decide (o < s.ctx.ord.toNat)) ∧
      ends (.vldwSnap stl d a b y) (s.anyVersion σ fun o => decide (o < s.ctx.ord.toNat) && decide (waveOf o ≤ bits x 55 32))) ∧
    (Ready s [(s.vf, d.toNat)] → s.waitNow.stage ≠ State.verStage → s.drainsOut = false → s.nameSlot w x (y == 1#1) n = .at r σ off pos →
      (∀ v, s.ownSlot = some σ → s.pendingOf σ = some v → ∃ t, Gives (.vstw stl d a y) s (unitDone s 1 stl t) ∧ t.mem = s.mem ∧
        t = (s.modDie σ.die fun k => { k with attic := k.attic.map fun (u : Ver) => if u = v then { v with data := splice v.data off bs } else u }).conflict
          r.key s.ctx.ord.toNat σ) ∧
      (s.ownSlot = some σ → s.pendingOf σ = none → s.atticHas σ.die size = true → ∃ (t : State) (v : Ver), Gives (.vstw stl d a y) s (unitDone s 1 stl t) ∧
        t = ((s.discardAll σ.die fun u => u.slot == σ && u.ord == s.ctx.ord.toNat).modDie σ.die fun k => { k with attic := k.attic ++ [v] }).conflict r.key s.ctx.ord.toNat σ ∧ v.slot = σ ∧ v.ord = s.ctx.ord.toNat ∧
        v.writer = s.ctx.act.serial ∧ v.by' = none ∧
        v.data = splice (State.startBytes size (s.anyVersion σ fun o => decide (o < s.ctx.ord.toNat))) off bs) ∧
      (s.ownSlot ≠ some σ → s.ctx.act.kind = .wavetask →
        Gives (.vstw stl d a y) s (trapped s 0x15#8 (BitVec.ofNat 64 (7 + h * 2 ^ 8 + pos % 2 ^ 24 * 2 ^ 24 + σ.layer % 256 * 2 ^ 48)))) ∧
      (s.ctx.act.kind = .task →
        Gives (.vstw stl d a y) s (trapped s 0x15#8 (BitVec.ofNat 64 (6 + h * 2 ^ 8 + pos % 2 ^ 24 * 2 ^ 24 + σ.layer % 256 * 2 ^ 48)))) ∧
      (∀ t, s.ctx.act.kind ≠ .task → s.ctx.act.kind ≠ .wavetask → ((s.ent σ.die σ.bid σ.layer).st = .clean ∨ (s.ent σ.die σ.bid σ.layer).st = .skipped) →
        (∀ v ∈ (s.dieAt σ.die).attic, v.slot = σ → v.by' ≠ none) →
        ((s.dirOf σ.die σ.bid σ.layer σ.part).store ≠ 0 → s.atticHas σ.die size = true) → s.install σ r.key r.retain 0 (splice (State.startBytes size (s.committed σ fun _ => true)) off bs) = some t →
        Gives (.vstw stl d a y) s (unitDone s 1 stl t))) ∧
    (s.nameSlot w x (y == 1#1) n = .deleted → s.ctx.wait = none →
      Gives (.vldwCur stl d a b y) s (unitDone s 1 stl (s.putG b 1#64)) ∧
      (Ready s [(s.vf, d.toNat)] → Gives (.vstw stl d a y) s (unitDone s 1 stl s)))) ∧
  (∀ (s : State) (stl : BitVec 3) (d a b : BitVec 5) (r : Rec) (σ : Slot) (m : Msg) (k : BlockAt) (v : Ver),
    let x := s.g a
    let h := bits x 15 0
    let hi := if x.getLsbD 16 then bits x 39 32 else r.layers - 1
    let cap := s.capWave r.key (bits (s.g b) 23 0)
    (s.ownSlot = none → Gives (.delta stl d) s (trapped s 0x15#8 7#64)) ∧
    (s.ownSlot = some σ → s.ctx.act.msg = some m → s.crec m.wHandle = some r → (s.blocksOf m.wHandle).find? (fun b => b.bid == σ.bid) = some k →
      (s.pendingOf σ = none → Gives (.delta stl d) s (trapped s 0x15#8 (BitVec.ofNat 64 (7 + m.wHandle % 65536 * 2 ^ 8 + σ.layer % 256 * 2 ^ 48)))) ∧
      (s.pendingOf σ = some v → ∃ δ : Ex,
        Gives (.delta stl d) s (unitDone s 1 stl ((s.setCtx { s.ctx with delta := some δ }).putG d (BitVec.ofNat 64 (roundEx .f32 .ru false δ).1))) ∧
        ((∀ o old, s.anyVersion σ (fun o => decide (o < s.ctx.ord.toNat)) ≠ .version o old) → δ = .inf false))) ∧
    (Ready s (gs [a, b]) → s.crec h = some r → (r.key = s.ctx.ask.toNat ∨ s.privileged = true) → bits x 63 40 = 0 → bits x 23 17 = 0 → bits (s.g b) 63 24 = 0 →
      (x.getLsbD 16 = true → bits x 39 32 < r.layers ∧ bits x 31 24 ≤ bits x 39 32) → (x.getLsbD 16 = false → bits x 39 32 = 0 ∧ bits x 31 24 = 0) →
      (s.ctx.wait = none → s.drainsOut = false → s.settledTo h hi cap = true → Gives (.settle stl a b) s (unitDone s 1 stl s)) ∧
      (s.ctx.wait = none → s.settledTo h hi cap = false → ∃ t : State, Gives (.settle stl a b) s t.await ∧ t.mem = s.mem ∧ t.ctx.g = s.ctx.g) ∧
      Gives (.settleTry stl d a b) s (unitDone s 1 stl (s.putG d (if s.settledTo h hi cap then 1#64 else 0#64)))))

/-! ## The dispatch engine -/

/-- R341, R342 and R352: SEND and SEND.B check the class, the entry and the destination word in this order; a message for an enabled site of this
package joins its inbox when it has room, else SEND answers 1 and SEND.B waits; a disabled site answers 2, a route that is down 5. RSRV.PUT sends
to a core's service context as SEND.B does. -/
def Obligations.SendResults : Prop :=
  ∀ (s : State) (stl : BitVec 3) (d a b : BitVec 5) (c : BitVec 4), a.toNat < 31 → b.toNat + c.toNat ≤ 32 →
    Ready s ([(.g, a.toNat), (.g, a.toNat + 1)] ++ State.runSrcs b c.toNat) →
    let x := (s.g a).toNat
    let entry := s.g (a + 1#5)
    let pay := payNow s b c.toNat
    let cls := x / 2 ^ 22 % 4
    let dst := x % 4096
    let pkg := x / 2 ^ 12 % 1024
    let may := s.ctx.pri.toNat ≤ cls ∨ s.privileged = true
    let st := fun (i : Instr) (t : State) (n : Nat) => Gives i s (unitDone s 1 stl (t.putG d (BitVec.ofNat 64 (n * 2 ^ 56))))
    let both := fun (t : State) => Gives (.send stl d a b c) s t ∧ Gives (.sendB stl d a b c) s t
    let here := s.routeOf pkg = .here
    let site := 4 * (x / 4 % 1024) + 3
    (¬may → both (trapped s 0x0E#8 0#64)) ∧ (may → ¬entryOk entry → both (trapped s 0x06#8 entry)) ∧
    (may → entryOk entry → x / 2 ^ 40 ≠ 0 → both (trapped s 0x17#8 0x1900000000000000#64)) ∧
    (may → entryOk entry → x / 2 ^ 40 = 0 → s.ctx.wait = none →
      (¬Quiet s → both (heldUp s)) ∧
      (Quiet s → here → s.siteEnabled dst = false → st (.send stl d a b c) s 2 ∧ st (.sendB stl d a b c) s 2) ∧
      (Quiet s → here → s.siteEnabled dst = true → s.inboxRoom (dst / 4) (4 * (dst % 4) + cls) = true →
        ∃ m : Msg, Sends s m .send dst cls (BitVec.ofNat 16 (x / 2 ^ 24)) entry pay ∧ m.arr = s.tick (dieOf dst) ∧ m.dstPkg = pkg ∧
          st (.send stl d a b c) (s.append m) 0 ∧ st (.sendB stl d a b c) (s.append m) 0) ∧
      (Quiet s → here → s.siteEnabled dst = true → s.inboxRoom (dst / 4) (4 * (dst % 4) + cls) = false →
        st (.send stl d a b c) s 1 ∧ ∃ t : State, Gives (.sendB stl d a b c) s t.await ∧ t.mem = s.mem ∧ t.ctx.g = s.ctx.g) ∧
      (Quiet s → s.routeOf pkg = .down → st (.send stl d a b c) (s.dropFor pkg) 5 ∧ st (.sendB stl d a b c) (s.dropFor pkg) 5)) ∧
    (s.ctx.wait = none → Quiet s → here →
      (s.coreEnabled (x / 4 % 1024) = false → st (.rsrvPut stl d a b c) s 2) ∧
      (s.coreEnabled (x / 4 % 1024) = true → s.inboxRoom (x / 4 % 1024) (4 * 3 + s.ctx.pri.toNat) = true →
        ∃ m : Msg, Sends s m .reduce site s.ctx.pri.toNat 0#16 0#64 pay ∧ m.arr = s.tick (dieOf site) ∧ st (.rsrvPut stl d a b c) (s.append m) 0)) ∧
    (∀ (m : Msg) (i : Nat), (s.append m).inbox (coreOf m.dst) i = if i = State.inboxOf m then s.inbox (coreOf m.dst) i ++ [m] else s.inbox (coreOf m.dst) i)

/-- R328, R330, R343 and R347: TASK checks as SEND does, then answers 2, 3 or 4, or queues the task in its core's ordered queue. HOP moves the
activation: its registers are the payload, its inbox message replaces it, and the context is DORMANT; ordered tasks and handlers may not hop. That TASK's
status 2 comes before 3 and 4 is the model's choice (log entry 101). -/
def Obligations.TaskAndHop : Prop :=
  ∀ (s : State) (stl : BitVec 3) (d a b : BitVec 5) (c : BitVec 4), a.toNat < 30 → b.toNat + c.toNat ≤ 32 →
    let x := (s.g a).toNat
    let cls := x / 2 ^ 22 % 4
    let dst := x % 4096
    let pkg := x / 2 ^ 12 % 1024
    let may := s.ctx.pri.toNat ≤ cls ∨ s.privileged = true
    let ordered := s.ctx.act.kind = .task ∨ s.ctx.act.kind = .wavetask
    let st := fun (t : State) (n : Nat) => Gives (.task stl d a b c) s (unitDone s 1 stl (t.putG d (BitVec.ofNat 64 (n * 2 ^ 56))))
    (Ready s ([(.g, a.toNat), (.g, a.toNat + 1), (.g, a.toNat + 2)] ++ State.runSrcs b c.toNat) →
      let entry := s.g (a + 1#5)
      let n := (s.g (a + 2#5)).toNat
      (¬may → Gives (.task stl d a b c) s (trapped s 0x0E#8 0#64)) ∧ (may → ¬entryOk entry → Gives (.task stl d a b c) s (trapped s 0x06#8 entry)) ∧
      (may → entryOk entry → (x / 2 ^ 40 ≠ 0 ∨ n / 2 ^ 48 ≠ 0) → Gives (.task stl d a b c) s (trapped s 0x17#8 0x1900000000000000#64)) ∧
      (may → entryOk entry → x / 2 ^ 40 = 0 → n / 2 ^ 48 = 0 → s.ctx.wait = none → Quiet s → s.routeOf pkg = .here →
        (s.siteEnabled (dst / 4 * 4) = false → st s 2) ∧ (s.siteEnabled (dst / 4 * 4) = true → n = 0 → st s 3) ∧
        (s.siteEnabled (dst / 4 * 4) = true → n ≠ 0 → (ordered ∧ n < s.ctx.ord.toNat) ∨ n < s.gvtOf s.ctx.ask.toNat → st s 4) ∧
        (s.siteEnabled (dst / 4 * 4) = true → n ≠ 0 → ¬(ordered ∧ n < s.ctx.ord.toNat) → s.gvtOf s.ctx.ask.toNat ≤ n → (s.queued (dst / 4)).length < 256 →
          (∀ w ∈ s.pkg.senders, w.msg.kind ≠ .task) →
          ∃ m : Msg, Sends s m .task dst cls (BitVec.ofNat 16 (x / 2 ^ 24)) entry (payNow s b c.toNat) ∧ m.ord = n ∧ st (s.enqueue (dst / 4) m) 0))) ∧
    (Ready s (gs [a, b] ++ State.runSrcs 1#5 16) →
      (¬entryOk (s.g b) → Gives (.hop stl a b) s (trapped s 0x06#8 (s.g b))) ∧
      (entryOk (s.g b) → (ordered ∨ s.nonPre (coreOf s.site) s.ctx = true) → Gives (.hop stl a b) s (trapped s 0x17#8 0x3100000000000000#64)) ∧
      (entryOk (s.g b) → ¬ordered → s.nonPre (coreOf s.site) s.ctx = false → s.routeOf pkg = .here → s.ctx.wait = none →
        (s.siteEnabled dst = false → Gives (.hop stl a b) s (trapped s 0x17#8 0x3000000000000000#64)) ∧
        (s.siteEnabled dst = true → s.resultsOut s.site = false → s.drainsOut = false →
          s.inboxRoom (dst / 4) (4 * (dst % 4) + s.ctx.pri.toNat) = true →
          ∃ (m : Msg) (t : State), Sends s m .hop dst s.ctx.pri.toNat s.ctx.tag (s.g b) ((List.range 16).map fun i => s.g (BitVec.ofNat 5 (i + 1))) ∧
            m.ord = s.ctx.ord.toNat ∧ Gives (.hop stl a b) s t.spend ∧ t.ctx.st = .dormant ∧ t.site = s.site ∧
            t = ((s.append m).setCtx { s.ctx with units := s.ctx.units + 1 }).endActivation .hop)))

/-- R326, R327, R344, R345: FORK pushes an entry at the front of its core's deque, or answers 1 when it is full; STEAL takes the oldest entry that the
victim's domain opens to the thief, and answers 1, 2 or 4 otherwise, or 3 where a take that coincided with it may have had the last such entry. The order 4, 3,
1, 2 of its statuses (log entry 64), and which takes may have coincided with it (log entry 1), are the model's choice.
R335, R336, R352 to R355: a reduction server is pinned and unpinned by a privileged issuer; ORDQ reads the ordered queue; PRI sets the class,
upward only when privileged. That PIN's status 1 comes before 2 is the model's choice (log entry 66). -/
def Obligations.DequeResults : Prop :=
  (∀ (s : State) (stl x : BitVec 3) (d a b : BitVec 5) (c : BitVec 4) (e : DequeEntry), b.toNat + c.toNat ≤ 32 →
    let own := coreOf s.site
    let st := fun (i : Instr) (t : State) (n : Nat) => Gives i s (unitDone s 1 stl (t.putG d (BitVec.ofNat 64 (n * 2 ^ 56))))
    let v := (s.g a).toNat / 4 % 1024
    let pkg := (s.g a).toNat / 2 ^ 12 % 1024
    (Ready s ([(.g, a.toNat)] ++ State.runSrcs b c.toNat) →
      (¬entryOk (s.g a) → Gives (.fork stl d a b x c) s (trapped s 0x06#8 (s.g a))) ∧
      (entryOk (s.g a) → Quiet s → 64 ≤ s.core.deque.length → st (.fork stl d a b x c) s 1) ∧
      (entryOk (s.g a) → Quiet s → s.core.deque.length < 64 →
        ∃ m : Msg, Sends s m .fork s.site s.ctx.pri.toNat s.ctx.tag (s.g a) (payNow s b c.toNat) ∧ m.arr = s.tick s.die ∧
          st (.fork stl d a b x c) (s.modCore own fun k => { k with deque := { msg := m, home := own, dom := x.toNat } :: k.deque }) 0)) ∧
    (Ready s (gs [a]) →
      ((pkg ≠ s.pkg.num ∨ v = own ∨ s.coreEnabled v = false) → st (.steal stl d a) s 4) ∧
      (pkg = s.pkg.num → v ≠ own → s.coreEnabled v = true →
        ((∀ y ∈ (s.coreAt v).deque, State.DequeEntry.open y own = false) →
          ∃ lost : Bool, st (.steal stl d a) (s.modCore v fun k => { k with losers := k.losers.filter (· != own) ++ if lost then [own] else [] }) (if lost then 3 else 1) ∧
            ((s.coreAt v).taken = none → lost = false)) ∧
        ((s.coreAt v).deque.reverse.find? (fun y => State.DequeEntry.open y own) = some e →
          (64 ≤ s.core.deque.length → st (.steal stl d a) s 2) ∧
          (s.core.deque.length < 64 → ∃ t : State, st (.steal stl d a) t 0 ∧ (t.coreAt own).deque = e :: s.core.deque ∧
            (t.coreAt v).deque = ((s.coreAt v).deque.reverse.erase e).reverse ∧ (t.coreAt v).taken.map (·.entry) = some e ∧ t.mem = s.mem ∧ t.ctx = s.ctx))))) ∧
  (∀ (s : State) (stl : BitVec 3) (d a b : BitVec 5) (v : Server),
    let own := coreOf s.site
    let put := fun (i : Instr) (z : Word) => Gives i s (unitDone s 1 stl (s.putG d z))
    let st := fun (i : Instr) (t : State) (n : Nat) => Gives i s (unitDone s 1 stl (t.putG d (BitVec.ofNat 64 (n * 2 ^ 56))))
    let low := fun (xs : List Nat) (z : Word) => (xs = [] → z = BitVec.allOnes 64) ∧ ∀ n ∈ xs, (∀ k ∈ xs, n ≤ k) → z = BitVec.ofNat 64 n
    (s.privileged = false → Gives (.rsrvPin stl d a b) s (trapped s 0x0E#8 0#64) ∧ Gives (.rsrvUnpin stl d a b) s (trapped s 0x0E#8 0#64)) ∧
    (s.privileged = true →
      (s.core.server ≠ none → st (.rsrvPin stl d a b) s 1) ∧ (s.core.server = none → s.core.service = false → st (.rsrvPin stl d a b) s 2) ∧
      (s.core.server = none → s.core.service = true →
        ∃ w : Server, st (.rsrvPin stl d a b) (s.modCore own fun k => { k with server := some w }) 0 ∧ w.site = 4 * own + 3 ∧ w.treep = s.ctx.treep ∧
          w.fmt = min 2 (s.ctx.treen.toNat / 256) ∧ w.n = max 1 (s.ctx.treen.toNat % 256) ∧ w.got = 0 ∧ w.sum = [] ∧ w.cls = s.ctx.pri.toNat ∧
          w.key = s.ctx.ask.toNat) ∧
      (s.core.server = none → st (.rsrvUnpin stl d a b) s 1) ∧
      (s.core.server = some v → v.got = 0 → (∀ i < 16, ∀ m ∈ s.inbox own i, m.kind ≠ .reduce) →
        st (.rsrvUnpin stl d a b) (s.modCore own fun k => { k with server := none }) 0) ∧
      (s.core.server = some v → (v.got ≠ 0 ∨ ∃ i < 16, ∃ m ∈ s.inbox own i, m.kind = .reduce) → Gives (.rsrvUnpin stl d a b) s (heldUp s))) ∧
    put (.ordqLen stl d) (BitVec.ofNat 64 ((s.core.ordq.filter fun t => !t.done).length)) ∧
    (∃ z, put (.ordqHead stl d) z ∧ low ((s.core.ordq.filter fun t => !t.done).map (·.msg.ord)) z) ∧
    put (.ordqVt stl d) (State.orOnes (s.virtualTime own)) ∧ put (.ordqSpec stl d) (if s.speculative then 1#64 else 0#64) ∧
    put (.ordqRset stl d) (BitVec.ofNat 64 ((s.ctx.reads.map fun r => (r.1.die, r.1.bid)).eraseDups.length)) ∧
    (Ready s (gs [a]) →
      ((s.g a).toNat % 4 < s.ctx.pri.toNat → s.privileged = false → Gives (.pri stl d a) s (trapped s 0x0E#8 0#64)) ∧
      (s.ctx.pri.toNat ≤ (s.g a).toNat % 4 ∨ s.privileged = true →
        ∃ t, Gives (.pri stl d a) s (unitDone s 1 stl t) ∧ t.ctx.pri = (s.g a).setWidth 2 ∧
          (∀ r, t.g r = if r = d ∧ d ≠ 0#5 then s.ctx.pri.setWidth 64 else s.g r) ∧ t.mem = s.mem)))

/-- R331, R346, R348 to R350: JOIN goes on with 0 when its counter is at or below 0, and with 1 where its time-out has passed (3 where it had to run in coarse
mode); WAIT of one to four conditions of any kind goes on, when one holds or all do, with the mask of those that hold, and where its time-out has passed with
that mask and bit 4; bit 5 says that the core's monitor table had no room for every line (coarse mode); the time-out counts from the tick of issue. BAR.INIT and
BAR.ARR change the barrier word in one event and return the old phase; BAR.WAIT traps on a token from the future and goes on with the phases passed; each
waits otherwise, and goes on with the result that a re-check leaves (`WaitSteps`). That BAR.INIT and BAR.ARR are performed in the step of their issue where the owner's service context is free (log entry 17),
and that a barrier word in a FIFO slot is read as it stands (log entry 24), is the model's choice. -/
def Obligations.MonitorWaits : Prop :=
  ∀ (s u : State) (stl : BitVec 3) (d a b : BitVec 5) (loc x' : Nat) (runs : List (Nat × Nat)) (m : Word) (w : Wait), Ready s (gs [a, b]) →
    let fin := fun (i : Instr) (t : State) (r : Nat) => Gives i s (unitDone s 1 stl ((t.setCtx { t.ctx with mons := [] }).putG d (BitVec.ofNat 64 r)))
    let waits := fun (i : Instr) (n : Nat) => ∃ t : State, Gives i s t.await ∧ t.mem = s.mem ∧ t.ctx.g = s.ctx.g ∧
      t.ctx.wait.map (fun w => (w.stage, w.deadline)) = some (State.monStage, if n = 2 ^ 32 - 1 then none else some (s.waitNow.tick + n))
    let fresh := s.waitNow.stage = 0 ∧ s.waitNow.deadline = none
    let k := (s.g b).toNat % 65536
    let n := (s.g b).toNat % 2 ^ 32
    let phase := m.toNat % 65536
    let read := fun (x : State) => (x.touch [lineOf loc]).rangeServed x.site [lineOf loc]
    let reads := s.reach .read 0 (s.g a) 8 8 [(0, 8)] = .go u ((loc, 8) :: runs) ∧ Free u [(loc, 8)] ∧ Plain u [(loc, 8)] ∧ u.condWord loc = m ∧ fresh
    let past := fun (t : Nat) => t ≠ 2 ^ 32 - 1 ∧ s.tickOver (s.waitNow.tick + t) = true
    (s.ctx.wait = some w → w.stage = State.monDone →
      fin (.join stl d a b) s (w.data.headD 0) ∧ fin (.barWait stl d a b) s (w.data.headD 0) ∧ fin (.barSync stl d a) s (w.data.headD 0) ∧
      (Ready s ((.g, a.toNat) :: State.runSrcs (a + 1#5) (min (31 - a.toNat) (2 * ((s.g a).toNat % 4 + 1)))) → fin (.wait stl d a) s (w.data.headD 0))) ∧
    (reads → u.inFifo loc = false →
      (m.toInt ≤ 0 → fin (.join stl d a b) (read u) 0) ∧ (0 < m.toInt → ¬past n → waits (.join stl d a b) n) ∧
      (0 < m.toInt → past n → fin (.join stl d a b) (read u) (if u.monFree = 0 then 3 else 1))) ∧
    (reads →
      (32768 ≤ (phase + 65536 - k) % 65536 → Gives (.barWait stl d a b) s (trapped s 0x12#8 (BitVec.ofNat 64 (k + phase * 65536)))) ∧
      ((phase + 65536 - k) % 65536 < 32768 → phase ≠ k → fin (.barWait stl d a b) (read (read u)) ((phase + 65536 - k) % 65536 + 65536)) ∧
      (phase = k → waits (.barWait stl d a b) (2 ^ 32 - 1))) ∧
    (s.waitNow.stage ≠ 2 → s.reach .both 0 (s.g a) 8 8 [(0, 8)] = .go u ((loc, 8) :: runs) → Free u ((loc, 8) :: runs) → u.speculative = false →
      u.inFifo loc = false → (State.isService u.ctx = false ∨ u.owner loc ≠ coreOf u.site) → u.serviceFree (u.owner loc) = some x' →
      m = BitVec.ofNat 64 (bytesToNat (u.rdRuns ((loc, 8) :: runs))) →
      let wrote := fun (new : Word) => (u.coreWrite (u.owner loc) ((loc, 8) :: runs) (natToBytes 8 new.toNat)).amoRecord x'
      Gives (.barInit stl d a b) s (unitDone s 1 stl ((wrote (BitVec.ofNat 64 (phase + k * 2 ^ 16))).putG d (BitVec.ofNat 64 phase))) ∧
      (∃ new : Word, Gives (.barArr stl d a) s (unitDone s 1 stl ((wrote new).putG d (BitVec.ofNat 64 phase))) ∧
        (bits m 47 32 + 1 < max 1 (bits m 31 16) → bits new 47 32 = bits m 47 32 + 1 ∧ bits new 15 0 = phase) ∧
        (max 1 (bits m 31 16) ≤ bits m 47 32 + 1 → bits new 47 32 = 0 ∧ bits new 15 0 = (phase + 1) % 65536) ∧
        bits new 31 16 = bits m 31 16 ∧ bits new 63 48 = bits m 63 48)) ∧
    (Ready s ((.g, a.toNat) :: State.runSrcs (a + 1#5) (min (31 - a.toNat) (2 * ((s.g a).toNat % 4 + 1)))) → a.toNat < 30 → fresh →
      s.drainsOut = false → (s.g a).toNat % 4 = 0 → (s.g a).toNat / 8 % 2 ^ 29 = 0 →
      let c := s.g (a + 1#5)
      let y := s.g (a + 2#5)
      let inbox := bits c 63 60 = 1 ∧ bits c 59 2 = 0 ∧ y = 0#64
      let full := (s.inbox (coreOf s.site) (4 * (s.site % 4) + bits c 1 0)) ≠ []
      let gvt := bits c 63 60 = 4 ∧ bits c 59 0 = 0 ∧ bits y 63 48 = 0
      (inbox → full → fin (.wait stl d a) s 1) ∧ (inbox → ¬full → past ((s.g a).toNat / 2 ^ 32) → fin (.wait stl d a) s 16) ∧
      (inbox → ¬full → ¬past ((s.g a).toNat / 2 ^ 32) → waits (.wait stl d a) ((s.g a).toNat / 2 ^ 32)) ∧
      (gvt → y.toNat ≤ s.gvtOf s.ctx.ask.toNat → fin (.wait stl d a) s 1)) ∧
    (∀ xs : List State.Cond, Ready s ((.g, a.toNat) :: State.runSrcs (a + 1#5) (min (31 - a.toNat) (2 * ((s.g a).toNat % 4 + 1)))) →
      let cnt := (s.g a).toNat % 4 + 1
      let every := (s.g a).getLsbD 2
      a.toNat + 2 * cnt < 32 → (s.g a).toNat / 8 % 2 ^ 29 = 0 → fresh →
      askAll s 0 ((List.range cnt).map fun i => (s.g (a + BitVec.ofNat 5 (1 + 2 * i)), s.g (a + BitVec.ofNat 5 (2 + 2 * i)))) u xs → u.drainsOut = false →
      let ls := State.condLines xs
      (∀ l ∈ ls, u.lineHeld l = false ∧ u.rangeAt l = none) →
      let seen := (u.touch ls).rangeServed u.site ls
      let met := if every then xs.all u.condNow else xs.any u.condNow
      let mask := State.condMask (xs.map u.condNow) + if u.monFree < ls.length then 32 else 0
      (met = true → fin (.wait stl d a) seen mask) ∧
      (met = false → past ((s.g a).toNat / 2 ^ 32) → fin (.wait stl d a) seen (mask + 16)) ∧
      (met = false → ¬past ((s.g a).toNat / 2 ^ 32) → ∃ t : State, Gives (.wait stl d a) s t.await ∧ t.mem = s.mem ∧ t.ctx.g = s.ctx.g ∧
        t.ctx.mons = ls.take u.monFree ∧ t.ctx.wait.map (fun w => (w.stage, w.deadline)) =
          some (State.monStage, if (s.g a).toNat / 2 ^ 32 = 2 ^ 32 - 1 then none else some (s.waitNow.tick + (s.g a).toNat / 2 ^ 32)))) ∧
    (∀ (bs : List Bool) (i : Nat), (State.condMask bs).testBit i = bs.getD i false) ∧
    (∀ (t : State) (q : Nat) (v : Word), let c := fun (code : Nat) => t.condNow { kind := 0, a := q, b := code, c := v.toNat }
      let z := t.condWord q
      (c 0 = true ↔ z = v) ∧ (c 1 = true ↔ z ≠ v) ∧ (c 2 = true ↔ z.toInt < v.toInt) ∧ (c 3 = true ↔ v.toInt ≤ z.toInt) ∧
      (c 4 = true ↔ z.toNat < v.toNat) ∧ (c 5 = true ↔ v.toNat ≤ z.toNat) ∧
      (t.condNow { kind := 1, a := q } = true ↔ t.inbox (coreOf t.site) (4 * (t.site % 4) + q) ≠ []) ∧
      (∀ k : Nat, t.condNow { kind := 2, a := q, b := k } = true ↔ z.toNat % 65536 ≠ k) ∧
      (t.condNow { kind := 3, a := q } = true ↔ t.xferPending (BitVec.ofNat 64 q) = false) ∧
      (t.condNow { kind := 4, a := q } = true ↔ q ≤ t.gvtOf t.ctx.ask.toNat) ∧
      (∀ (k : Nat) (r : Rec), t.crec q = some r → (t.condNow { kind := 5, a := q, b := k } = true ↔ t.settledTo q (r.layers - 1) k = true)))

/-- R341, R351: LAUNCH sends its members' messages in one step when every inbox has room, one to each member, and answers how many, with status 5 when a
route is down; LAUNCH.AT holds them at their dies until its tick, and answers 1 when that has passed; an absent site answers 2, and nothing is sent. It waits
for the packages that some messages have left for. That a route which is down gives status 5 with the count, over status 1 of LAUNCH.AT, is the model's choice
(log entry 43); whether a site of another package is absent is its judgement, and a free value here (log entry 7). -/
def Obligations.LaunchResults : Prop :=
  ∀ (s u z y : State) (stl : BitVec 3) (d a b : BitVec 5) (c : BitVec 4) (k : Nat) (down away : Bool) (runs : List (Nat × Nat)), a.toNat < 29 → b.toNat + c.toNat ≤ 32 →
    Ready s ([(.g, a.toNat), (.g, a.toNat + 1), (.g, a.toNat + 2), (.g, a.toNat + 3)] ++ State.runSrcs b c.toNat) →
    let entry := s.g (a + 1#5)
    let x := s.g (a + 2#5)
    let t := (s.g (a + 3#5)).toNat
    let cls := bits x 23 22
    let n := bits x 41 32 + 1
    let pay := payNow s b c.toNat
    let bs := (atLoad u runs).rdRuns runs
    let es := (List.range n).map fun i => (BitVec.ofNat 64 (bytesToNat ((bs.drop (8 * i)).take 8)) : Word)
    let v := afterLoad u runs
    let ms := (es.map State.memberOf).mergeSort fun x y => decide (x % 2 ^ 22 ≤ y % 2 ^ 22)
    let w := v.modPkg fun p => { p with nextId := p.nextId + 1 }
    let may := s.ctx.pri.toNat ≤ cls ∨ s.privileged = true
    let st := fun (i : Instr) (t : State) (n k : Nat) => Gives i s (unitDone s 1 stl (t.putG d (BitVec.ofNat 64 (n * 2 ^ 56 + k))))
    let left := fun (i : Instr) (y : State) (far n k : Nat) => ∃ t : State, Gives i s t.await ∧ t.mem = y.mem ∧ t.ctx.g = y.ctx.g ∧
      t.ctx.wait.map (fun w => (w.stage, w.token)) = some (State.launchedStage, far) ∧
      (s.site, ({ token := far, status := 0, value := BitVec.ofNat 64 (n * 2 ^ 56 + k) } : Reply)) ∈ t.pkg.results
    let ends := fun (i : Instr) (y : State) (away : Bool) (far n k : Nat) => if away then left i y far n k else st i y n k
    (¬may → Gives (.launch stl d a b c) s (trapped s 0x0E#8 0#64) ∧ Gives (.launchAt stl d a b c) s (trapped s 0x0E#8 0#64)) ∧
    (may → s.ctx.wait = none → s.reach .read 0 (s.g a) 8 (8 * n) ((upto 0 n).map fun i => (8 * i, 8)) = .go u runs →
      (¬entryOk entry → Gives (.launch stl d a b c) s (trapped s 0x06#8 entry)) ∧
      (entryOk entry → Free u runs → Quiet v → bits x 63 42 = 0 → bits x 31 24 = 0 → bits x 21 0 = 0 → (∀ e ∈ es, bits e 47 22 = 0) →
        ((∀ m, v.routeOf (m / 4096 % 1024) = .here → (v.memberAbsent m = true ↔ v.siteEnabled (m % 4096) = false)) ∧
          ∀ m, v.routeOf (m / 4096 % 1024) = .down → v.memberAbsent m = false) ∧
        ((∃ m ∈ ms, v.memberAbsent m = true) →
          st (.launch stl d a b c) v 2 0 ∧ st (.launchAt stl d a b c) v 2 0) ∧
        ((∀ m ∈ ms, v.memberAbsent m = false) →
          w.reserveAll v.pkg.nextId cls entry pay ms = (none, z) → z.drainsOut = false →
          let x := z.modPkg fun p => { p with nextId := p.nextId + 1 }
          let far := z.pkg.nextId
          (x.launchAll v.pkg.nextId far cls entry pay none ms = (k, down, away, y) →
            ends (.launch stl d a b c) y away far (if down then 5 else 0) k ∧
            (t ≤ s.tick s.die → ends (.launchAt stl d a b c) y away far (if down then 5 else 1) k)) ∧
          (s.tick s.die < t → x.launchAll v.pkg.nextId far cls entry pay (some t) ms = (k, down, away, y) →
            ends (.launchAt stl d a b c) y away far (if down then 5 else 0) k))))

/-! ## Steps of engines and of the host -/

/-- R17, R82 to R84, R93, R312, R324, R325, R351, R361, R366 and R367: a host write reaches its inbox slot or is logged; the scan delivers or rejects
the command at HEAD; a core starts the winner; results, slots, tokens, timed launches and link messages arrive; a port that goes down holds nothing.
A write to an inbox window during a landed package stop is held until the checkpoint has been taken, or the stop ends: the model's choice (log entry 103). What
a link message's words say, and that it waits where there is no room, are the model's reading (log entries 47 and 91). -/
def Obligations.DispatchSteps : Prop :=
  ∀ (s : State) (die off core site i k x q c τ n : Nat) (bs : List Byte) (ws : List Word) (lost : List Nat) (m : Msg) (p : State.Pick) (de : DequeEntry)
    (ot : OrdTask) (w : Wait) (r : Reply) (e : State.Ready) (b : Bind) (y : Nat × Nat),
    let fits := 4 ≤ bs.length ∧ bs.length ≤ 128 ∧ bs.length % 4 = 0 ∧ off % 4 = 0 ∧ off % 128 + bs.length ≤ 128 ∧ off < 2 ^ 27
    let at' := 2 ^ 63 + die % 4 * 2 ^ 27 + off
    let o := 0x20000 + 32 * i
    (fits → s.allStopped = true → s.pkg.replay.armed = false → ∃ t : State, Steps (.hostInboxWrite die off bs) s t ∧ t.mem = s.mem ∧ t.cores = s.cores ∧
      t.pkg.heldWrites = s.pkg.heldWrites ++ [(die % 4, off, bs)]) ∧
    (fits → (s.allStopped = false ∨ s.pkg.replay.armed = true) → ∃ t : State, Steps (.hostInboxWrite die off bs) s t ∧ (∀ j < bs.length, t.byte (at' + j) = bs.getD j 0#8) ∧
      ∀ a, (a < at' ∨ at' + bs.length ≤ a) → t.byte a = s.byte a) ∧
    (¬fits → Steps (.hostInboxWrite die off bs) s (s.faultRecord (die % 4) 3 0 0 0#64 (BitVec.ofNat 64 off) 0)) ∧
    ((s.dieAt die).scanAt ≤ s.cycle → s.booted = true → s.pkg.replay.armed = false → s.pkg.replay.replaying = false → s.scanNext die = some (c, i, n) → i < 4096 →
      (s.slotBad die i = true → s.logHeld = false → ∃ t : State, Steps (.inboxScanDelivery die) s t ∧ t.cores = s.cores ∧ (t.dieAt die).scanAt = s.cycle + 8 ∧
        bits (t.reg die (o + 8)) 39 32 = (bits (s.reg die (o + 8)) 39 32 + 1) % 256 ∧
        bits (t.reg die (o + 8)) 31 0 = (bits (s.reg die (o + 8)) 31 0 + 1) % 2 ^ 32) ∧
      (s.slotBad die i = false → s.inboxCore die i = some k → s.pkg.replay.recording = false → m = s.hostMsg die i k →
        ∃ t : State, Steps (.inboxScanDelivery die) s t ∧ t.inbox k (State.inboxOf m) = s.inbox k (State.inboxOf m) ++ [m] ∧
          bits (t.reg die (o + 8)) 39 32 = (bits (s.reg die (o + 8)) 39 32 + 1) % 256 ∧ t.reg die (o + 16) = s.reg die (o + 16) + 1#64)) ∧
    (s.takeService core .amsg = some (i, m, x) → Steps (.activationStart core) s ((s.popInbox core i m).begin x m)) ∧
    (s.takeService core .amsg = none → s.winner core = some p →
      (p.cand = .mail i m → s.startHit p.site m = none → Steps (.activationStart core) s ((s.popInbox core i m).begin p.site m)) ∧
      (p.cand = .deque de → s.startHit p.site de.msg = none →
        Steps (.activationStart core) s
          ((s.modCore core fun c => { c with deque := c.deque.erase de, taken := some { cycle := s.cycle, entry := de } }).begin p.site de.msg)) ∧
      (p.cand = .task ot → s.startHit p.site ot.msg = none →
        Steps (.activationStart core) s (((s.modCore core fun c => { c with ordq := c.ordq.erase ot }).serveQueue core).begin p.site ot.msg))) ∧
    Starts (s.begin x m) x m ∧
    (s.pkg.results.find? (fun r => r.1 == site) = some (site, r) → (s.ctxAt site).img = none → (s.ctxAt site).wait = some w → w.token = r.token →
      (s.ctxAt site).st = .waiting →
      ∃ t : State, Steps (.resultArrival site) s t ∧ (t.ctxAt site).st = .ready ∧ (t.ctxAt site).replies = (s.ctxAt site).replies ++ [r] ∧
        (t.ctxAt site).g = (s.ctxAt site).g ∧ t.mem = s.mem) ∧
    (firstBy State.slotBefore (s.slotWaiters q) = some y → s.freeSlotOf q = some i → i < 4 →
      ∃ t : State, Steps (.longSlotGrant q) s t ∧ (t.ctxAt y.2).long = true ∧ (t.ctxAt y.2).slot.toNat = i ∧ (t.ctxAt y.2).w = [] ∧ (t.ctxAt y.2).st = .ready ∧
        (t.ctxAt y.2).g = (s.ctxAt y.2).g ∧ t.mem = s.mem) ∧
    ((s.cluAt c).token = false → (s.cluAt c).tokenDue ≤ s.tick (c / 16) → s.coreEn c ≠ 0 →
      ∃ t : State, Steps (.admissionTokenGrant c) s t ∧ (t.cluAt c).token = true ∧ (t.cluAt c).tokenDue = (s.cluAt c).tokenDue ∧ t.mem = s.mem) ∧
    (s.timedDue = [(τ, m)] → ∃ t : State, Steps .timedLaunchDelivery s t ∧
      t.inbox (coreOf m.dst) (State.inboxOf m) = s.inbox (coreOf m.dst) (State.inboxOf m) ++ [{ m with arr := τ }] ∧
      (t.dieAt (dieOf m.dst)).timed = (s.dieAt (dieOf m.dst)).timed.erase (τ, m)) ∧
    (State.lowest (((s.handles die).filter fun h => (s.bindOf h).isSome).flatMap s.readyOf) = some e → s.bindOf e.handle = some b →
      s.waveCore b e.blk.bid = some c → (s.queued c).length < 256 →
      ∃ t : State, Steps (.wavetaskDispatch die) s t ∧ (t.ent (e.handle / 16384) e.blk.bid e.layer).st = .inflight ∧ t.mem = s.mem ∧
        ∃ z : OrdTask, (t.coreAt c).ordq = (s.coreAt c).ordq ++ [z] ∧ z.msg.kind = .wavetask ∧ z.msg.cls = 3 ∧ z.msg.entry = b.entry ∧ z.msg.ord = e.ord ∧
          z.msg.key = e.dom ∧ z.done = false) ∧
    (State.linkMsg ws = some m → s.routeOf m.dstPkg = .here → (m.kind ≠ .task → m.kind ≠ .reduce → s.siteEnabled m.dst = true →
        s.inboxRoom (coreOf m.dst) (State.inboxOf m) = true → (∀ y ∈ m.at', y ≤ s.tick (dieOf m.dst)) →
        ∃ t : State, Steps (.linkMessageArrival ws) s t ∧ t.mem = s.mem ∧
          t.inbox (coreOf m.dst) (State.inboxOf m) = s.inbox (coreOf m.dst) (State.inboxOf m) ++ [{ m with arr := s.tick (dieOf m.dst) }] ∧
          (m.kind ≠ .hop → t.pkg.statuses = s.pkg.statuses ++ [(m.srcPkg, m.src, 0)])) ∧
      (m.kind = .task → s.siteEnabled (m.dst / 4 * 4) = true → (m.ord = 0 ∨ m.ord < s.gvtOf m.key) →
        ∃ t : State, Steps (.linkMessageArrival ws) s t ∧ t.mem = s.mem ∧ t.cores = s.cores ∧ t.pkg.statuses = s.pkg.statuses ++ [(m.srcPkg, m.src, 4)])) ∧
    (∃ t : State, Steps (.portDown n lost) s t ∧ (∀ z ∈ t.pkg.sent, z.1 ≠ n) ∧ t.cores = s.cores ∧ ∀ z ∈ s.pkg.sent, z.1 ≠ n → z ∈ t.pkg.sent)

/-- R31, R287, R329 to R331, R346, R348 to R350: the re-checks of a wait on one to four conditions of any kind, whose meaning `MonitorWaits` states, at a
write to a monitored line or another event of a condition, in coarse mode every 256 ticks, and at the end of the time-out's tick; a task's abort at a
boundary, a publication of the lower bounds, a commit, and the end of a stall. -/
def Obligations.WaitSteps : Prop :=
  ∀ (s u : State) (x die bid layer part d : Nat) (w : Wait) (f : State.Form) (coarse : Bool) (xs : List State.Cond) (v : Ver),
    let k := s.ctxAt x
    let now := s.tick (dieOf x)
    let z := s.focus x
    let all := xs.all z.condNow
    let met := match f with | .any => xs.any z.condNow | _ => all
    let code := if coarse then 1 else 0
    let c := xs.headD { kind := 2, a := 0 }
    let result := fun (late : Nat) => match f with
      | .any | .all => State.condMask (xs.map z.condNow) + 16 * late + 32 * code
      | .join => late + 2 * code
      | .bar => (bits (z.condWord c.a) 15 0 + 65536 - c.b) % 65536
    let fine := State.condMask (z.fineNow k.mons.length xs)
    let ends := fun (i : Instr) (r : Nat) => ∃ t : State, Steps i s t ∧ (t.ctxAt x).st = .ready ∧
      (t.ctxAt x).wait = some { w with stage := State.monDone, data := [r] } ∧ (t.ctxAt x).g = k.g ∧ t.mem = s.mem
    let rest := fun (i : Instr) => ∃ (t : State) (y : Nat), Steps i s t ∧ now < y ∧
      t.ctxAt x = { k with wait := some { w with again := false, mask := fine, coarseAt := y } } ∧ t.mem = s.mem
    let σ : Slot := { die := die, bid := bid, layer := layer, part := part }
    (k.wait = some w → w.stage = State.monStage → k.st = .waiting → w.gone = none → z.drainsOut = false → xs.length ≤ 4 →
      w.data = State.packConds f coarse xs → (∀ l ∈ State.condLines xs, z.lineHeld l = false ∧ z.rangeAt l = none) →
      (w.again = false → (s.pkg.hits.contains x = true ∨ fine ≠ w.mask) → (met = true → ends (.monitorRecheck x) (result 0)) ∧
        (met = false → w.deadline = none → rest (.monitorRecheck x))) ∧
      (coarse = true → w.coarseAt ≤ now → (met = true → ends (.coarseRecheck x) (result 0)) ∧ (met = false → w.deadline = none → rest (.coarseRecheck x))) ∧
      (w.deadline = some d → d < now → (met = true → ends (.waitTimeout x) (result 0)) ∧ (met = false → f ≠ .bar → ends (.waitTimeout x) (result 1)))) ∧
    (s.pkg.gvtAt / 16 < s.tick 0 / 16 → ∃ t : State, Steps .gvtPublication s t ∧ t.pkg.gvtAt = s.tick 0 ∧ t.mem = s.mem ∧
      (∀ q, s.gvtOf q ≤ t.gvtOf q ∧ (q ∈ s.doms → t.gvtOf q = max (s.gvtOf q) (s.lower q)) ∧ (q ∉ s.doms → t.gvtOf q = s.gvtOf q)) ∧
      ∀ q, ∀ z ∈ (t.coreAt q).ordq, z.done = true → t.gvtOf z.msg.key ≤ z.msg.ord) ∧
    ((s.dieAt die).attic.filter (fun z => z.slot == σ && z.by'.isNone) = [v] → v.ord < s.gvtOf v.domain →
      (s.modDie die fun z => { z with attic := z.attic.filter (· != v) }).install σ v.domain v.retain v.ord v.data = some u →
      Steps (.versionCommit die bid layer part) s u ∧ (u.dirOf die bid layer part).vord = v.ord ∧ (u.dirOf die bid layer part).size = v.data.length) ∧
    (k.aborting = true → k.st = .ready ∨ k.st = .stalled → State.ranging k.wait = false → ∃ t : State, Steps (.taskAbort x) s t ∧
      (t.ctxAt x).st = .dormant ∧ (t.ctxAt x).wait = none ∧ (t.ctxAt x).aborting = false ∧ (t.ctxAt x).long = false) ∧
    (k.st = .stalled → k.readyAt ≤ s.cycle → ∃ t : State, Steps (.stallCountSpent x) s t ∧ t.ctxAt x = { k with st := .ready } ∧ t.mem = s.mem) ∧
    (∀ (cause : Byte) (val : Word), Gives (.illegalOpcode cause val) s (trapped s cause val))

/-- R98 to R101 and R377 to R381: pre-emption picks a victim, its halt writes the image, a WAITING context's at once and another's at a unit boundary, the
image completes and is restored; a stop is requested, lands once nothing of its domain issues, halts what still issues after STOPLIM ticks, and ends at RESUME.
That RESUME acts on every stop that covers the die (log entry 52), and that the host's writes of the stop land then (log entry 103), is the model's choice. -/
def Obligations.HaltSteps : Prop :=
  ∀ (s u : State) (core x die d' off : Nat) (bs : List Byte) (v : Word) (p : State.Pick) (t0 : Stop),
    let k := s.ctxAt x
    let at' := State.imageLoc x
    (s.victimOf core = some x →
      ∃ t : State, Steps (.preEmptionRequest core) s t ∧ t.ctxAt x = { k with victim := true } ∧ t.mem = s.mem) ∧
    (k.victim = true → k.wait.any (·.ending) = false →
      k.st = .waiting ∨ ((k.st = .ready ∧ k.wait.any (fun w => !w.short) = false ∨ k.st = .stalled) ∧ k.frm.act = false) → x < 4096 →
      ∃ t : State, Steps (.preEmptionHalt x) s t ∧ (t.ctxAt x).st = .saving ∧ (t.ctxAt x).victim = false ∧ (t.ctxAt x).long = false ∧
        (t.ctxAt x).img.isSome = true ∧ (∀ r, 1 ≤ r → r < 32 → t.load (at' + 8 * r) 8 = (SMap.get 0#64 k.g r).toNat) ∧
        t.load (at' + 0x700) 8 = k.pc.toNat ∧ t.load (at' + 0x728) 8 = k.tag.toNat ∧ ∀ a, (a < at' ∨ at' + 0x2800 ≤ a) → t.byte a = s.byte a) ∧
    (k.st = .saving → s.imageWaits x = false → ∃ t : State, Steps (.imageComplete x) s t ∧ (t.ctxAt x).st = .dormant ∧
      (t.ctxAt x).img = k.img.map (fun i => { i with complete := true }) ∧ ∀ a, (a < at' + 0x780 ∨ at' + 0x788 ≤ a) → t.byte a = s.byte a) ∧
    (s.winner (coreOf x) = some p → p.cand = .image x → s.restoreAt x = some u →
      Steps (.imageRestore x) s u ∧ (u.ctxAt x).st = .ready ∧ (u.ctxAt x).img = none ∧ u.mem = s.mem) ∧
    (bits v 61 59 ≠ 7 → ∃ (t : State) (z : Stop), Steps (.stopGo die v) s t ∧ t.pkg.stops = s.pkg.stops ++ [z] ∧ z.die = die ∧ z.dom = bits v 61 59 ∧
      z.site = bits v 21 0 % 4096 ∧ z.tick = s.tick die ∧ z.landed = false) ∧
    (bits v 61 59 = 7 → Steps (.stopGo die v) s s) ∧
    (∃ t : State, Steps (.stopResume die) s t ∧ (∀ z ∈ t.pkg.stops, die ∈ State.stopDies z.dom z.site → z.landed = false ∧ z.resuming = true) ∧
      (∀ z ∈ s.pkg.stops, die ∉ State.stopDies z.dom z.site → z ∈ t.pkg.stops) ∧
      (t.allStopped = true ∨ s.pkg.heldWrites = [] → t.mem = s.mem ∧ t.pkg.heldWrites = s.pkg.heldWrites) ∧
      (t.allStopped = false → t.pkg.heldWrites = [] ∧ (s.pkg.heldWrites = [(d', off, bs)] →
        ∀ j < bs.length, t.byte (2 ^ 63 + d' % 4 * 2 ^ 27 + off + j) = bs.getD j 0#8))) ∧
    (∀ y, y ∈ s.stillIssue t0 ↔ y ∈ s.allSites ∧ State.Stop.covers t0 y = true ∧ ((s.ctxAt y).st = .ready ∨ (s.ctxAt y).st = .stalled) ∧
      (s.ctxAt y).frozen = false ∧ (s.ctxAt y).inPlace = false ∧ State.isService (s.ctxAt y) = false) ∧
    (s.pkg.stops = [t0] → t0.die = die → t0.landed = false → t0.resuming = false →
      (s.stillIssue t0 = [] → ∃ t : State, Steps (.stopLanded die) s t ∧ t.pkg.stops = [{ t0 with landed := true }] ∧ t.mem = s.mem ∧
        ∀ d ∈ State.stopDies t0.dom t0.site, t.reg d 0x400018 = BitVec.ofNat 64 (s.tick d)) ∧
      (t0.tick + max 1 (bits (s.reg die 0x400000) 31 16) ≤ s.tick die → (∃ y ∈ s.stillIssue t0, State.atBoundary (s.ctxAt y) = true) →
        ∃ t : State, Steps (.stoplimExpiry die) s t ∧ ∀ d ∈ State.stopDies t0.dom t0.site, (t.reg d 0x400000).getLsbD 61 = true))

/-- R181 to R183, R187 to R190, R224 and R231: the coherence messages of a line, a reservation's grant, and the messages of a commutative range: joins,
budgets and their acknowledgements, drains and theirs, and the forced request, whose number an empty answer carries. Until a sharer has acknowledged its last
budget, the largest of those under way counts. What a forced core has added since a drain crossed the request is the model's reading (log entry 89). -/
def Obligations.LineSteps : Prop :=
  ∀ (s : State) (line core h id n q : Nat) (wr : Bool) (r : Range) (rest : List UpMsg) (down : List DownMsg) (d : Drain) (b : Word) (pt : Partial) (ids : List Nat) (g : Sharer)
    (ask : Nat) (fmt : RFmt),
    let c := SMap.get {} s.pkg.coh line
    let x := s.rline line
    let coh := fun (t : State) => SMap.get {} t.pkg.coh line
    let same := fun (t : State) => t.mem = s.mem ∧ t.ctx = s.ctx
    (c.holder.isSome = true → ∃ t : State, Steps (.writeBack line) s t ∧ coh t = { c with holder := none } ∧ same t) ∧
    (c.holder = some h → h ≠ core → ∃ t : State, Steps (.forwardedRequest line core wr) s t ∧ same t ∧
      coh t = if wr = true ∧ s.hostBias line = false then { holder := some core, wts := c.rts + 1, rts := c.rts + 1 } else { c with holder := none }) ∧
    (c.holder = none → ∃ t : State, Steps (.leaseRenewal line core) s t ∧ same t ∧ (coh t).holder = none ∧ (coh t).wts = c.wts ∧ c.rts ≤ (coh t).rts) ∧
    ((SMap.get {} s.pkg.resv line).ids = id :: ids → (SMap.get {} s.pkg.resv line).granted = false → s.isCommand id = true → s.rangeAt line = none →
      ∃ t : State, Steps (.reservationGrant line) s t ∧ (SMap.get {} t.pkg.resv line).granted = true ∧ (SMap.get {} t.pkg.resv line).ids = id :: ids ∧ same t) ∧
    (x.forcing = none → State.takeUp core x.up = some (.join core, rest) → s.rangeAt line = some (h, r) → (∀ z ∈ x.sharers, z.core ≠ core) →
      ∃ t : State, Steps (.rangeJoinMessage line core) s t ∧ same t ∧ (t.rline line).up = rest ∧
        (t.rline line).sharers.map (·.core) = x.sharers.map (·.core) ++ [core] ∧
        ∀ z ∈ (t.rline line).sharers, z.budget = r.fmt.split r.bound (x.sharers.length + 1)) ∧
    (x.forcing.all (fun z => !z.todo.isEmpty) = true → State.takeUp core x.up = some (.join core, rest) → s.rangeAt line = some (h, r) →
      x.sharers.find? (fun z => z.core == core) = some g →
      ∃ t : State, Steps (.rangeJoinMessage line core) s t ∧ same t ∧ (t.rline line).up = rest ∧
        (t.rline line).sharers.map (·.core) = x.sharers.map (·.core) ∧ (t.rline line).down = x.down ++ [.budget core (x.seq + 1) g.budget]) ∧
    (x.forcing = none → State.takeUp core x.up = some (.drain d, rest) → s.rangeAt line = some (h, r) →
      (d.empty = true → ∃ t : State, Steps (.drainArrival line core) s t ∧ same t ∧ (t.rline line).up = rest) ∧
      (d.empty = false → SMap.get false s.pkg.bad line = false → ∃ t : State, Steps (.drainArrival line core) s t ∧ t.ctx = s.ctx ∧ (t.rline line).up = rest ∧ (t.rline line).sharers = x.sharers ∧
        (∀ a, (a < line * 128 ∨ line * 128 + r.fmt.width * d.elems.length ≤ a) → t.byte a = s.byte a) ∧
        (r.fmt = .i64 → ∀ i < d.elems.length, t.load (line * 128 + 8 * i) 8 = (s.load (line * 128 + 8 * i) 8 + (d.elems.getD i 0#64).toNat) % 2 ^ 64))) ∧
    (State.takeDown core x.down = some (.budget core q b, down) → s.rangeAt line = some (h, r) → s.part core line = some pt → pt.bseq < q →
      r.fmt.over pt.track b = false →
      ∃ t : State, Steps (.budgetMessage line core) s t ∧ same t ∧ t.part core line = some { pt with budget := b, bseq := q } ∧
        (t.rline line).down = down ∧ (t.rline line).up = x.up ++ [.ack core q]) ∧
    (State.takeDown core x.down = some (.budget core q b, down) → s.part core line = none →
      ∃ t : State, Steps (.budgetMessage line core) s t ∧ same t ∧ (t.rline line).down = down ∧ (t.rline line).up = x.up ++ [.ack core q]) ∧
    (x.forcing = some { owner := h, since := n, todo := core :: ids, eps := none, ask := ask } → 0 < ids.length →
      State.takeUp core x.up = some (.drain d, rest) → s.rangeAt line = some (id, r) → d.empty = true →
      ∃ t : State, Steps (.drainArrival line core) s t ∧ same t ∧ (t.rline line).up = rest ∧
        (d.ask ≠ ask → (t.rline line).sharers = x.sharers ∧ (t.rline line).forcing = x.forcing) ∧
        (d.ask = ask → (t.rline line).sharers = x.sharers.filter (fun z => z.core != core) ∧
          ∃ k : Nat, ids.head? = some k ∧ (t.rline line).forcing = some { owner := h, since := n, todo := ids, eps := none, ask := x.asks + 1 } ∧
            .force k (x.asks + 1) ∈ (t.rline line).down)) ∧
    (State.takeUp core x.up = some (.ack core q, rest) → s.rangeAt line = some (h, r) →
      ∃ t : State, Steps (.budgetAck line core) s t ∧ same t ∧ (t.rline line).up = rest ∧ (core, q) ∉ (t.rline line).decs ∧
        (t.rline line).sharers = x.sharers.map fun z => if z.core = core then z.acked r.fmt q else z) ∧
    (g.sent.find? (fun z => z.1 == q) = some (q, b) →
      (g.acked fmt q).sent = g.sent.filter (fun z => decide (q < z.1)) ∧ (g.acked fmt q).budget = g.budget ∧
      ((g.acked fmt q).sent = [] → (g.acked fmt q).counted = b) ∧
      (fmt.fp = false → b.toNat ≤ (g.acked fmt q).counted.toNat ∧ ∀ z ∈ (g.acked fmt q).sent, z.2.toNat ≤ (g.acked fmt q).counted.toNat)) ∧
    (State.takeDown core x.down = some (.force core ask, down) → s.drainPending core line = true → ∃ (t : State) (z : Drain) (more : List UpMsg),
      Steps (.forcedDrainRequest line core) s t ∧ same t ∧ t.part core line = none ∧ (t.rline line).down = down ∧ (t.rline line).up = x.up ++ .drain z :: more ∧
        z.core = core ∧ z.forced = true ∧ z.empty = true ∧ z.ask = ask ∧ (s.part core line = none → more = []) ∧
        (s.part core line = some pt → s.rangeAt line = some (h, r) → pt.track ≠ 0#64 →
          more = [.drain { core := core, elems := pt.elems, track := pt.track, forced := false, empty := false }])) ∧
    (State.takeDown core x.down = some (.force core ask, down) → s.drainPending core line = false →
      (∃ t : State, Steps (.forcedDrainRequest line core) s t ∧ same t ∧ t.part core line = none ∧ (t.rline line).down = down ∧
        ∃ z : Drain, (t.rline line).up = x.up ++ [.drain z] ∧ z.core = core ∧ z.forced = true ∧ z.ask = ask ∧
          (s.part core line = none → z.empty = true) ∧ (s.part core line = some pt → z.empty = false ∧ z.elems = pt.elems ∧ z.track = pt.track))) ∧
    (State.takeDown core x.down = some (.drainAck core, down) → n = (s.coreAt core).unacked →
      ∃ t : State, Steps (.drainAck line core) s t ∧ same t ∧ (t.rline line).down = down ∧ (t.coreAt core).unacked = n - 1)

/-- R128, R173, R191 to R196, R203, R216, R336, R362, R393 and R394: the end of a shelf switch, of a tracking period, of a crate's move and of a transfer; a
fault window's list; an extent's release; the host's requests; and the service steps of AMO and of a reduction server.
An extent is held while some core holds a line of it, partial lines included. That a switch from CACHE and a list wait for reservations, and which crates a
period's end queues, are the model's reading (log entries 88 and 49). -/
def Obligations.MemorySteps : Prop :=
  ∀ (s u : State) (clu shelf d k id τ first count dpa core i x : Nat) (m : ShelfMode) (md : Medium) (c : XCmd) (wr po : Bool) (data : List Byte) (lost : List Nat)
    (rows : List (List (Area × List (Nat × Nat) × Nat))) (p : Park) (ms : Msg) (rq : Request) (v : Server),
    let sh := SMap.get {} (s.cluAt clu).shelves shelf
    let lo := ploc clu shelf 0
    let hi := lo + (if shelf % 2 = 0 then 0x40000 else 0x36000)
    let crate := fun (t : State) (k : Nat) => SMap.get {} t.pkg.crates k
    let loc := gloc 0 (dpa / 64 * 64)
    let base := gloc 0 (bits (s.reg d 0x1008) 51 12 * 4096)
    let ends := fun (i : Instr) => ∃ t : State, Steps i s t ∧ t.ctx = s.ctx ∧
      ∀ k, (first ≤ k ∧ k < first + count → (crate t k).medium = .absent ∧ (crate t k).released = true) ∧
        (¬(first ≤ k ∧ k < first + count) → crate t k = crate s k)
    (sh.target = some m → (sh.mode = .cache → ∀ z ∈ s.pkg.resv, lo ≤ z.1 * 128 → z.1 * 128 < hi → z.2.ids = []) → ∃ t : State, Steps (.pantrySwitchEnd clu shelf) s t ∧ SMap.get {} (t.cluAt clu).shelves shelf = { mode := m } ∧ t.ctx = s.ctx ∧
      ∀ a, t.byte a = if (sh.mode = .cache ∨ m = .cache) ∧ lo ≤ a ∧ a < hi then 0#8 else s.byte a) ∧
    ((s.reg d 0x2000).getLsbD 0 = true → (s.dieAt d).evalAt / s.period d < s.tick d / s.period d → SMap.wf {} s.pkg.crates = true →
      ∃ t : State, Steps (.trackingPeriodEnd d) s t ∧ (t.dieAt d).evalAt = s.tick d ∧ t.mem = s.mem ∧
        ∀ k, (crate t k).medium = (crate s k).medium ∧ (k % 4 ≠ d → crate t k = crate s k) ∧ (k % 4 = d → (crate t k).accesses = 0 ∧
          ((crate s k).moving = none → (crate t k).moving = some .hbm → s.medium k = .cellar ∧ bits (s.reg d 0x2000) 63 48 ≤ (crate s k).accesses))) ∧
    ((crate s k).moving = some md → ∃ t : State, Steps (.crateMoveComplete k) s t ∧ (crate t k).medium = md ∧ (crate t k).moving = none ∧ t.mem = s.mem ∧
      ∀ q, q ≠ k → crate t q = crate s q) ∧
    (s.pkg.xfers.find? (fun z => z.id == id) = some c → c.parked = none → c.verdict = 0 → (∀ l ∈ c.lines, s.granted id l = true) →
      s.rowsData c 0 c.n = (rows, .ok () u) → (∀ l ∈ State.linesOf ((rows.flatten.map fun w => w.2.1).flatten), l ∈ c.lines) →
      Steps (.transferCompletion id) s ((u.engStore rows.flatten).endXfer c none) ∧
        ∀ z ∈ ((u.engStore rows.flatten).endXfer c none).pkg.xfers, z.id ≠ c.id) ∧
    ((s.dieAt d).winStart = some τ → τ + s.faultWin d ≤ s.tick d →
      (∃ t : State, Steps (.faultWindowClose d) s t ∧ (t.dieAt d).parks = (s.dieAt d).parks.filter (fun z => decide (τ + s.faultWin d ≤ z.tick)) ∧
        ((s.reg d 0x1000).getLsbD 62 = true → t.mem = s.mem ∧
          (t.dieAt d).formed = (s.dieAt d).formed ++ (s.dieAt d).parks.filter fun z => decide (z.tick < τ + s.faultWin d))) ∧
      ((s.reg d 0x1000).getLsbD 62 = false → (s.dieAt d).formed = [] → (s.dieAt d).parks = [p] → p.tick < τ + s.faultWin d →
        s.listHeld d 1 = false → (∀ l, SMap.get false s.pkg.bad l = false) →
        ∃ t : State, Steps (.faultWindowClose d) s t ∧ t.reg d 0x1010 = 1#64 ∧ (t.reg d 0x1000).getLsbD 62 = true ∧ (t.dieAt d).formed = [] ∧
          t.load base 8 = p.page % 2 ^ 40 * 2 ^ 16 ∧ t.load (base + 8) 8 = p.key % 1024)) ∧
    ((s.dieAt d).formed = [] → ∃ t : State, Steps (.faultListReadyClear d) s t ∧ (t.reg d 0x1000).getLsbD 62 = false ∧ t.mem = s.mem) ∧
    ((∀ k, first ≤ k → k < first + count → s.medium k = .cellar) →
      (s.extentHeld first count = false → ends (.extentRelease first count) ∧
        ∀ l, State.extentLine first count l = true → (SMap.get {} s.pkg.coh l).holder = none ∧ ∀ q, s.part q l = none) ∧
      (s.extentHeld first count = true → ∃ t : State, Steps (.extentRelease first count) s t ∧ (first, count) ∈ t.pkg.releasing ∧ t.mem = s.mem ∧
        t.pkg.crates = s.pkg.crates)) ∧
    ((first, count) ∈ s.pkg.releasing → ends (.extentReleaseTimeout first count lost)) ∧
    (s.booted = true → s.medium (crateOf loc) = .absent → ∃ t : State, Steps (.hostMemRequest wr po dpa data) s t ∧ t.pkg.hostReply = (true, [])) ∧
    (s.booted = true → s.medium (crateOf loc) ≠ .absent → s.lineBusy 0 (lineOf loc) = false → s.rangeAt (lineOf loc) = none → Plain s [(loc, 64)] →
      (wr = false → ∃ t : State, Steps (.hostMemRequest wr po dpa data) s t ∧ t.mem = s.mem ∧
        t.pkg.hostReply = (false, (List.range 64).map fun i => s.byte (loc + i))) ∧
      (wr = true → data.length = 64 → ∃ t : State, Steps (.hostMemRequest wr po dpa data) s t ∧ t.pkg.hostReply = (false, []) ∧
        SMap.get false t.pkg.bad (lineOf loc) = po ∧ ∀ a, t.byte a = if loc ≤ a ∧ a < loc + 64 then data.getD (a - loc) 0#8 else s.byte a)) ∧
    (s.takeService core .amo = some (i, ms, x) → ms.req = some rq → s.lineBusy 0 (lineOf rq.key) = false → s.rangeAt (lineOf rq.key) = none →
      let n := if rq.wide then 8 else 4
      let old := bytesToNat (s.rdN rq.key n)
      ∃ t : State, Steps (.amoExecute core) s t ∧ t.ctx.g = s.ctx.g ∧ (rq.token ≠ 0 → (rq.asker, Reply.mk rq.token 0 (opVal rq.op n old)) ∈ t.pkg.results) ∧
        (Plain s [(rq.key, n)] → (s.coreAt core).tracectl.getLsbD 0 = false → ∀ a, t.byte a = if rq.key ≤ a ∧ a < rq.key + n then
          (natToBytes n (opNew rq.op n old rq.operand rq.compare)).getD (a - rq.key) 0#8 else s.byte a)) ∧
    ((s.coreAt core).server = some v → s.takeService core .reduce = some (i, ms, x) → v.got + 1 < v.n →
      ∃ t : State, Steps (.reduceMessage core) s t ∧ t.ctx.g = s.ctx.g ∧
        (t.coreAt core).server = some { v with
          sum := State.addSum v.fmt v.sum ms.payload, got := v.got + 1
          insts := v.insts ++ (ms.inst.toList ++ ms.also).filter fun k => !v.insts.contains k }) ∧
    (∀ (fmt : Nat) (a b : List Word) (j : Nat), j < max a.length b.length → fmt = 1 →
      (State.addSum fmt a b).getD j 0#64 = a.getD j 0#64 + b.getD j 0#64)

/-- R64, R66, R236, R237, R240, R251 to R253 and R333: a K-group updates every accumulator of the tile with one rounding, or parks or fails the command;
completions, row segments staged and committed, the hand-off of a lease to the one claimant, and the grant of an array's start. That PROG reads 0 once a command
is complete is the model's reading (log entry 69). -/
def Obligations.MatrixSteps : Prop :=
  ∀ (s u v : State) (c e g die key page acc i0 j0 : Nat) (m q : MCmd) (as bs : List (List Nat)) (qas qbs : List (Ex × Int)) (code cls cyc : Nat)
    (addr val : Word) (runs : List (Nat × Nat)) (rows : List (List (Area × List (Nat × Nat) × Nat))) (x : RowSlot) (k : Nat × Nat × Nat) (n : Nat) (sat : Bool),
    let d := dieOf m.site
    let runs' := m.op.isMma = true ∧ m.started = true ∧ m.failed = false ∧ m.prog < m.groupsK
    let only := (s.cluAt c).cmds = [m] ∧ clusterOf m.site = c ∧ s.dieCmds (c / 16) = [m]
    let seg := State.segAt m m.staged
    let sg := State.segAt m x.seg
    let dst := Tensor.elems (m.ten 0) (m.arg 2 + sg.1) (m.arg 3 + sg.2.1) sg.2.2
    let fails := fun (i : Instr) (code : Nat) (addr : Word) => ∃ w : State, Steps i s w ∧ w.mem = s.mem ∧
      (w.cluAt c).cmds = [{ m with failed := true, err := some ((m.err).getD { ticket := m.id, code := code, addr := addr }) }]
    (only → runs' → m.verdict = 0 → s.membersGo m m.members = (none, q, u) → q ≠ m → (u.reg d 0x3008).getLsbD 63 = false →
      (m.members.all q.ahead.contains = true → Steps (.kgroupComplete c) s
        (((u.setCmd { q with prog := m.prog + 1, ahead := [] }).noteProg { q with prog := m.prog + 1, ahead := [] }).askStarts d)) ∧
      (m.members.all q.ahead.contains = false → Steps (.kgroupComplete c) s (u.setCmd q))) ∧
    (only → runs' → m.verdict ≠ 0 → fails (.kgroupComplete c) (if m.verdict = 1 then 0x12 else 0x13) m.pval) ∧
    (m.ahead = [] → m.parked = [] →
      (s.memberGroup m e = .ok () u → s.membersGo m [e] = (none, { m with ahead := [e] }, u)) ∧
      (s.memberGroup m e = .absent key page val acc → s.membersGo m [e] = (none, s.parkMember m e key page acc val)) ∧
      (s.memberGroup m e = .err code addr → s.membersGo m [e] = (some (code, addr), m, s) ∧
        (only → runs' → m.verdict = 0 → m.members = [e] → fails (.kgroupComplete c) code addr))) ∧
    (as.length ≤ 256 → bs.length ≤ 256 → i0 % 256 = 0 → j0 % 256 = 0 → ∀ i < as.length, ∀ j < bs.length,
      (s.updateBlock m g i0 j0 as bs qas qbs).cell (State.cellOf m (i0 + i) (j0 + j)) = roundNE32 (Ex.add (f32Val (s.cell (State.cellOf m (i0 + i) (j0 + j))))
        (groupTerm m g (as.getD i []) (bs.getD j []) (qas.getD i (.fin false 0 1 0, 0)) (qbs.getD j (.fin false 0 1 0, 0))))) ∧
    (only → m.op.isMma = true → m.started = true → m.failed = false → m.groupsK ≤ m.prog → Steps (.matrixCommandComplete c) s ((s.noteProg { m with prog := 0 }).endCmd m) ∧
      ∀ z ∈ (((s.noteProg { m with prog := 0 }).endCmd m).cluAt c).cmds, z.id ≠ m.id) ∧
    (only → m.op.isMma = true → m.failed = true → Steps (.matrixCommandComplete c) s (s.endCmd m)) ∧
    (only → m.op = .macc sat false → m.failed = false → m.parked = [] → m.verdict = 0 →
      (∀ l ∈ m.lines, s.granted m.id l = true) → s.cmdRows m 0 m.rowsM = (rows, .ok () u) →
      (∀ l ∈ State.linesOf ((rows.flatten.map fun w => w.2.1).flatten), l ∈ m.lines) →
      let z := { m with stop := rows.length }
      Steps (.matrixCommandComplete c) s (((u.engStore rows.flatten).setCmd z).endCmd z)) ∧
    (only → m.op = .macc sat true → m.failed = false → m.parked = [] → m.verdict = 0 → m.staged < m.segs → m.slots = [] →
      (∀ k < 16, ∃ r w, s.engRuns m.who .write (State.slotAddr m k) (Area.mk (State.slotAddr m k) 0 (32 * seg.2.2)).bytes = .ok r w ∧
        (State.linesOf r).any (w.lineBusy m.id) = false) →
      ∃ (w : State) (z : MCmd), Steps (.rowStage c) s w ∧ (w.cluAt c).cmds = [z] ∧ z.staged = m.staged + 1 ∧ z.slots.map (·.seg) = [m.staged] ∧
        z.slots.map (·.st) = [0]) ∧
    (only → m.op = .macc sat true → m.parked = [] → m.slots = [x] →
      (x.st = 2 → ∃ (w : State) (z : MCmd), Steps (.rowCommit c) s w ∧ w.mem = s.mem ∧ (w.cluAt c).cmds = [z] ∧ z.slots = [] ∧ z.donesegs = m.donesegs + 1 ∧
        z.err = some ((m.err).getD { ticket := m.id, code := 0x20, addr := 0#64 })) ∧
      (x.st = 1 → m.failed = true → Steps (.rowCommit c) s (s.setCmd { m with slots := [], donesegs := m.donesegs + 1 })) ∧
      (x.st = 1 → m.failed = false → m.verdict = 0 → (∀ l ∈ m.lines, s.granted m.id l = true) →
        s.engNow m.who m.id (Area.mk (State.slotAddr m x.slot) 0 (32 * sg.2.2)) = .ok n u → u.engRuns m.who .write dst.addr dst.bytes = .ok runs v →
        (∀ l ∈ State.linesOf runs, l ∈ m.lines) →
        Steps (.rowCommit c) s ((v.engWrite dst runs (State.drainVals m ((unpackBits 32 n sg.2.2).map (BitVec.ofNat 32)))).setCmd
          { m with slots := [], donesegs := m.donesegs + 1 }))) ∧
    ((s.cluAt c).lease = none → s.claimants c = [k] → ∃ w : State, Steps (.leaseHandoff c) s w ∧ (w.cluAt c).lease = some k.2.1 ∧ (w.cluAt c).runCount = 0 ∧
      (w.cluAt c).releasing = false ∧ w.mem = s.mem ∧ w.ctx = s.ctx) ∧
    ((s.askStarts die).startsOf die = [(cls, cyc, c, m)] → (s.dieAt die).lastGrant = none →
      ∃ w : State, Steps (.arrayStartGrant die) s w ∧ (w.dieAt die).lastGrant = some s.cycle ∧ w.reg die 0x3010 = s.reg die 0x3010 + 1#64 ∧
        (w.cluAt c).arrayBusy = true ∧ w.mem = s.mem)

/-- R382 to R385: a checkpoint is taken only in a landed stop of the package; recording and replay are ended; a replay that may not begin says so,
and one that may has its commands delivered; the end of a kernel instance is logged with its CRCs.
That a replay's commands are delivered by the scans, the room and the form of a capture region, and that the host's writes of the stop land after the
snapshot, are the model's (log entries 96, 5 and 103). -/
def Obligations.DebugSteps : Prop :=
  ∀ (s : State) (k d' off : Nat) (bs : List Byte) (cs : List Word) (f : Bool),
    let stands := ∃ t ∈ s.pkg.stops, t.landed = true ∧ (t.dom = 5 ∨ t.dom = 6)
    let status := fun (t : State) => bits (t.reg 0 0x400400) 55 52
    let room := Config.captureSlots (s.reg 0 0x400410).toNat s.crateList.length
    let region := gloc 0 (bits (s.reg 0 0x400408) 51 16 * 65536)
    let size := Config.captureSize (s.reg 0 0x400410).toNat s.crateList.length
    (¬stands → ∃ t : State, Steps .checkpoint s t ∧ status t = 1 ∧ t.pkg = s.pkg ∧ t.mem = s.mem) ∧
    (stands → ∃ t : State, Steps .checkpoint s t ∧
      ((∀ l, SMap.get false s.pkg.bad l = false) → ∀ a, a < 2 ^ 63 → (a < region ∨ region + size ≤ a) → t.byte a = s.byte a) ∧
      t.pkg.replay.inboxes = SMap.keep (fun a _ => decide (2 ^ 63 ≤ a)) s.mem ∧ t.pkg.heldWrites = [] ∧
      (s.pkg.heldWrites = [(d', off, bs)] → ∀ j < bs.length, off % 2 ^ 27 + bs.length ≤ 2 ^ 27 →
        t.byte (2 ^ 63 + d' * 2 ^ 27 + off % 2 ^ 27 + j) = bs.getD j 0#8) ∧
      bits (t.reg 0 0x400430) 63 32 = 0 ∧ t.pkg.replay.log = [] ∧ t.pkg.replay.recording = false ∧
      t.pkg.replay.crates.map (·.1) = s.crateList.map (fun k => gloc 0 (k * 65536)) ∧
      (room.isSome = true → t.pkg.replay.armed = true ∧ status t = 0) ∧ (room = none → t.pkg.replay.armed = false ∧ status t = 2)) ∧
    (∃ t : State, Steps .endrec s t ∧ t.pkg.replay = { s.pkg.replay with recording := false, armed := false } ∧ t.mem = s.mem ∧ t.ctx = s.ctx) ∧
    (s.replayOk = false → ∃ t : State, Steps .replay s t ∧ status t = 1 ∧ t.pkg = s.pkg ∧ t.mem = s.mem) ∧
    (s.replayOk = true → ∃ t : State, Steps .replay s t ∧ status t = 0 ∧ (t.reg 0 0x400400).getLsbD 63 = !s.pkg.replay.log.isEmpty ∧
      t.pkg.replay.replaying = !s.pkg.replay.log.isEmpty ∧ t.pkg.replay.next = 0 ∧ t.pkg.replay.recording = false ∧ t.pkg.replay.log = s.pkg.replay.log) ∧
    (∀ (d : Nat) (y : Recorded), s.pkg.replay.armed = false → s.pkg.replay.recording = false → s.booted = true → (s.dieAt d).scanAt ≤ s.cycle → s.pkg.replay.replaying = true →
      s.pkg.replay.log[s.pkg.replay.next]? = some y → dieOf y.msg.dst = d → s.inboxRoom (coreOf y.msg.dst) (State.inboxOf y.msg) = true →
      (y.msg.cls = 0 → (s.cluAt (coreOf y.msg.dst / 16)).token = true) →
      ∃ (t : State) (z : Msg), Steps (.inboxScanDelivery d) s t ∧ t.mem = s.mem ∧ t.pkg.replay.next = s.pkg.replay.next + 1 ∧
        t.inbox (coreOf y.msg.dst) (State.inboxOf y.msg) = s.inbox (coreOf y.msg.dst) (State.inboxOf y.msg) ++ [z] ∧
        z.dst = y.msg.dst ∧ z.entry = y.msg.entry ∧ z.payload = y.msg.payload ∧ z.arr = s.tick d ∧ z.sendTick = s.tick d) ∧
    (∃ t : State, Steps .abort s t ∧ t.mem = s.mem ∧ t.pkg.replay = { s.pkg.replay with recording := false, armed := false, replaying := false, insts := [] } ∧
      (t.reg 0 0x400400).getLsbD 63 = false) ∧
    (k ∈ s.pkg.replay.insts → s.instLives k = false → s.crcAll (SMap.get 0 s.pkg.replay.kernels k) 0#64 0 3 = .inl (cs, f) →
      s.pkg.replay.replaying = false →
      ∃ t : State, Steps (.kernelInstanceEnd k) s t ∧ t.mem = s.mem ∧ (∀ z, z ∈ t.pkg.replay.insts ↔ z ∈ s.pkg.replay.insts ∧ z ≠ k) ∧
        t.pkg.replay.crcs = s.pkg.replay.crcs ++ [(k, cs ++ [if f then 1#64 else 0#64])])

/-- R4, R156, R157, R162, R334, R388 to R392, R398 and R400: PUBF and the publish register close written lines; alarms; a key's load; the attestation
report, with the nonce that the write of ATGO took; telemetry (its overdue records are the model's reading, log entry 54); register writes; and the two resets.
What the model chose or read: the registers' values at reset (log entry 2), empty memory (log entry 3), PUBF in one step, and PUBLISH_COMPLETE after the writes
before it (log entry 33), what a warm reset keeps (log entry 55), BOOTST, which is free (log entry 73). -/
def Obligations.SystemSteps : Prop :=
  ∀ (s u : State) (stl c : BitVec 3) (a b : BitVec 5) (die off line cnt mkid rep' : Nat) (v : Word) (runs : List (Nat × Nat))
    (nonce : List Byte) (τ : Nat) (owed : List Nat),
    let d := die % 4
    let n := (s.g b).toNat % 2 ^ 32
    let clean := ∀ l, SMap.get false s.pkg.bad l = false
    let k := bits v 9 0
    let keyOf := fun (t : State) => SMap.get KeySt.none (t.dieAt d).keys k
    let cleared := fun (t : State) => (∀ i < 8, t.reg d (0x8000 + 8 * i) = 0#64) ∧ (t.dieAt d).loading = none
    let rep := gloc 0 (bits (s.reg d 0x120) 51 8 * 256)
    let q := s.reg d 0x4008
    let tel := gloc 0 (bits (s.reg d 0x4000) 51 12 * 4096 + 64 * (q.toNat % 2 ^ (max 6 (min 16 (bits (s.reg d 0x4000) 4 0)))))
    let due := ((s.dieAt d).lastTel / 100000 + 1) * 100000
    let o := off % 2 ^ 24 / 8 * 8
    let okAt := fun (d : Nat) => decide (Config.bootStatus d s.free % 5 = 0)
    (Ready s (gs [a, b]) → s.drainsOut = false →
      (n = 0 → Gives (.pubf stl a b c) s (unitDone s 1 stl s)) ∧
      (n ≠ 0 → (s.g a).toNat + n ≤ 0xFE * 2 ^ 48 → u.drainsOut = false →
        s.reach .code 0 (s.g a) 1 n (crateParts (s.g a).toNat 0 n (n / 65536 + 2)) = .go u runs →
        ∃ t, Gives (.pubf stl a b c) s (unitDone s 1 stl t) ∧ t.mem = u.mem ∧ t.ctx = u.ctx ∧
          ∀ l : Nat, SMap.get none t.pkg.code l =
            if ∃ r ∈ runs, lineOf r.1 ≤ l ∧ l ≤ lineOf (r.1 + r.2 - 1) then
              (SMap.get none u.pkg.code l).map fun cs => { scope := c.toNat, site := u.site, gang := u.gangOf } :: cs
            else SMap.get none u.pkg.code l)) ∧
    ((s.dieAt d).publishing ≠ none → Steps (.publishGo die) s s) ∧
    ((s.dieAt d).publishing = none → ∃ t : State, Steps (.publishGo die) s t ∧ t.mem = s.mem ∧ t.pkg = s.pkg ∧
      (t.dieAt d).publishing = some (bits (s.reg d 0x7000) 51 7, min (bits (s.reg d 0x7008) 24 0) (2 ^ 24), bits (s.reg d 0x7008) 41 32) ∧
      ∀ r, r ∈ (t.dieAt d).pubWrites ↔ r ∈ s.pkg.hostReqs ∧ r.write = true) ∧
    ((s.dieAt d).publishing = some (line, cnt, mkid) → (∀ r ∈ (s.dieAt d).pubWrites, r ∉ s.pkg.hostReqs) →
      ∃ t : State, Steps (.publishComplete die) s t ∧ (t.dieAt d).publishing = none ∧ t.mem = s.mem ∧ ∀ l : Nat, SMap.get none t.pkg.code l =
        if lineOf (gloc mkid (line * 128)) ≤ l ∧ l < lineOf (gloc mkid (line * 128)) + cnt ∧ s.medium (crateOf (l * 128)) ≠ .absent then
          (SMap.get none s.pkg.code l).map fun cs => { scope := 6, site := 0 } :: cs
        else SMap.get none s.pkg.code l) ∧
    (s.alarm die = false → s.powerHigh die = true → ∃ t : State, Steps (.alarmRaise die) s t ∧ t.alarm die = true ∧ (t.dieAt die).alarms = (s.dieAt die).alarms + 1 ∧
      (t.dieAt die).alarmAt = s.tick die ∧ t.mem = s.mem) ∧
    (s.alarm die = true → s.powerLow die = true → ∃ t : State, Steps (.alarmClear die) s t ∧ t.alarm die = false ∧ t.mem = s.mem ∧
      (t.dieAt die).throttle = (s.dieAt die).throttle + (s.tick die - (s.dieAt die).alarmAt)) ∧
    ((k = 0 ∨ keyOf s = .loaded) → ∃ t : State, Steps (.keyLoad die v) s t ∧ keyOf t = keyOf s ∧ cleared t) ∧
    (k ≠ 0 → keyOf s ≠ .loaded → ∃ t : State, Steps (.keyLoad die v) s t ∧ keyOf t = .loaded ∧ cleared t ∧
      SMap.get 0 (t.dieAt d).keyVals k = ((s.dieAt d).loading.map (·.2)).getD (s.staged d)) ∧
    (o = 0x8040 → v.getLsbD 63 = true → ∃ t : State, Steps (.registerWrite die off v) s t ∧ (s.dieAt d).loading.or (some (v, s.staged d)) = (t.dieAt d).loading) ∧
    (s.ctlRead d 0x8040).getLsbD 62 = (s.dieAt d).loading.isSome ∧
    ((s.dieAt d).attesting = none → Plain s [(rep, 256)] → (∀ l ∈ State.linesOf [(rep, 256)], s.rangeAt l = none ∧ s.lineBusy 0 l = false) →
      ∃ t : State, Steps (.attestation die) s t ∧ (t.dieAt d).attesting = none ∧ (∀ j < 32, t.byte (rep + j) = s.byte (rep + j)) ∧
        (∀ j < 64, t.byte (rep + 32 + j) = (natToBytes 64 (Config.digest d 0).toNat).getD j 0#8 ∧
          t.byte (rep + 96 + j) = (natToBytes 64 (Config.digest d 1).toNat).getD j 0#8) ∧ ∀ x, (x < rep ∨ rep + 256 ≤ x) → t.byte x = s.byte x) ∧
    ((s.dieAt d).attesting = none → SMap.get false s.pkg.bad (lineOf rep) = false → (∃ l ∈ State.linesOf [(rep, 256)], s.lineBusy 0 l = true) →
      ∃ t : State, Steps (.attestation die) s t ∧ (t.dieAt d).attesting = some (rep, s.rdN rep 32) ∧ t.mem = s.mem) ∧
    ((s.dieAt d).attesting = some (rep', nonce) → nonce.length = 32 → Plain s [(rep', 256)] →
      (∀ l ∈ State.linesOf [(rep', 256)], s.rangeAt l = none ∧ s.lineBusy 0 l = false) →
      ∃ t : State, Steps (.attestation die) s t ∧ (t.dieAt d).attesting = none ∧ (∀ j < 32, t.byte (rep' + j) = nonce.getD j 0#8) ∧
        ∀ x, (x < rep' ∨ rep' + 256 ≤ x) → t.byte x = s.byte x) ∧
    ((s.dieAt d).telOwed = τ :: owed → s.lineBusy 0 (lineOf tel) = false →
      ∃ t : State, Steps (.telemetryRecord die) s t ∧ (t.dieAt d).telOwed = owed ∧ (t.dieAt d).lastTel = (s.dieAt d).lastTel ∧ t.reg d 0x4008 = q + 1#64 ∧
        (clean → t.load tel 8 = τ % 2 ^ 64)) ∧
    ((s.reg d 0x4000).getLsbD 63 = true → (s.dieAt d).telOwed = [] → due ≤ s.tick d → s.lineBusy 0 (lineOf tel) = false →
      ∃ t : State, Steps (.telemetryRecord die) s t ∧ (t.dieAt d).lastTel = due ∧ t.reg d 0x4008 = q + 1#64 ∧
        (clean → t.load tel 8 = due % 2 ^ 64 ∧ t.load (tel + 8) 8 = q.toNat % 2 ^ 32 * 2 ^ 32 + d ∧
          ∀ x, (x < tel ∨ tel + 64 ≤ x) → t.byte x = s.byte x)) ∧
    (o ≠ 0x1000 → ∃ t : State, Steps (.registerWrite die off v) s t ∧ t.mem = s.mem ∧ t.ctx = s.ctx ∧
      t.reg d o = (s.reg d o &&& ~~~ctlMask d o) ||| (v &&& ctlMask d o) ∧ ∀ p, p ≠ o → t.reg d p = s.reg d p) ∧
    (s.pkg.xfers = [] → (∀ x ∈ SMap.vals s.clus, x.cmds = []) →
      ∃ t : State, Steps .warmReset s t ∧ t.cycle = s.cycle ∧ t.ctx = Ctx.reset ∧ t.parked = [] ∧ t.pkg.xfers = [] ∧ t.pkg.hist = [] ∧
        (∀ l, SMap.get false t.pkg.bad l = true → isGlobal (l * 128) = true ∧ mkidOf (l * 128) = 0) ∧
        (∀ x, isGlobal x = true → mkidOf x = 0 → t.byte x = s.byte x) ∧ (∀ x, isGlobal x = false → t.byte x = 0#8)) ∧
    (∃ t : State, Steps .coldReset s t ∧ t.cycle = 0 ∧ t.mem = [] ∧ t.ctx = Ctx.reset ∧ t.parked = [] ∧ t.cores = [] ∧ t.clus = [] ∧ t.pkg = ({} : Pkg) ∧
      ∀ d < 4, (t.reg d 0x0A8).toNat = Config.bootStatus d s.free % 5 + (if okAt 0 && okAt 1 && okAt 2 && okAt 3 then 2 ^ 63 else 0))

/-! ## Encoding, the step, memory and reset -/

/-- The worked encodings of the spec (02_encoding, and the entries of the families): each word decodes to the instruction that it stands for; an
opcode of no table row, a function of no entry and a reserved field are refused by name (R43, R44). -/
def Obligations.DecodeWords : Prop :=
  decodeUnit false [0x0C462FFB#32] = .ok (.addi 1#3 3#5 2#5 0xFFB#12) ∧
  decodeUnit false [0x24060FFD#32] = .ok (.bne 0#3 3#5 0#5 0xFFD#12) ∧
  decodeUnit false [0x2E3C0040#32] = .ok (.jal 0#3 30#5 0x40#17) ∧
  decodeUnit false [0x1E0E0000#32, 0x3F800000#32] = .ok (.lil 0#3 7#5 0x3F800000#32) ∧
  decodeUnit false [0x34060281#32] = .ok (.srd 0#3 3#5 5#10) ∧
  decodeUnit false [0x60082404#32] = .ok (.ld 0#3 4#5 2#5 2#3 0#2 4#7) ∧
  decodeUnit false [0x6208677F#32] = .ok (.st 0#3 4#5 6#5 3#3 2#2 0x7F#7) ∧
  decodeUnit false [0x5A00100F#32, 0x48822180#32] = .ok (.vaddfAdd { mask := some 1#3, mod := none } 2#3 1#5 2#5 3#5 0#3) ∧
  decodeUnit false [0x5A031059#32] = .ok (.kmaskFill 0#3 1#5 17#5 5#3) ∧
  decodeUnit false [0x700A6390#32] = .ok (.amoAdd 0#3 5#5 6#5 7#5 1#1) ∧
  decodeUnit false [0x78142000#32] = .ok (.rangeDecl 0#3 10#5 2#5) ∧
  decodeUnit false [0x7A124005#32] = .ok (.xferRgather 0#3 9#5 4#5 0#5) ∧
  decodeUnit false [0x84004003#32] = .ok (.mmaAcc 0#3 4#5 1#1) ∧
  decodeUnit false [0xA2064280#32] = .ok (.editIns 0#3 3#5 4#5 5#5) ∧
  decodeUnit false [0xC40663A1#32] = .ok (.fork 0#3 3#5 6#5 7#5 2#3 1#4) ∧
  decodeUnit false [0x3E000000#32] = .bad .illegalOpcode 0 0x3E000000#32 ∧
  decodeUnit false [0xFD0E8000#32, 0x24060FFD#32] = .bad .illegalFunction 1 0x24060FFD#32 ∧
  decodeUnit false [0x60082584#32] = .bad .reservedField 0 0x60082584#32

/-- Decode and encode agree (R21 to R44): the words of every well-formed instruction that the vector mode admits decode to it, with every operand at
every value its field has; so no two of them have the same words. -/
def Obligations.RoundTrip : Prop :=
  ∀ (long : Bool) (i : Instr), i.wf = true → (i.longOnly = true → long = true) → i.modeFault long = false → decodeUnit long (encode i) = .ok i

/-- R21 and R153: where the words at the program counter decode to an instruction, the step is that instruction's, and a unit that waits stays in
progress; where they do not, it is the decode fault's trap, with the word and its position (R44). A word is fetched from its translated place,
once the core's drains have been acknowledged (R224). A core that the step wakes takes its wake latency (R97). -/
def Obligations.StepRunsDecoded : Prop :=
  ∀ (s t u : State) (x : Nat) (i : Instr) (w : IWord) (ws : List IWord), Issues s t x →
    let pc := t.ctx.pc.toNat
    (t.fetchUnit pc = .unit (some i) w u → step s = s.wakes (State.keepUnit i (exec i u))) ∧
    (t.fetchUnit pc = .unit none w u → step s = s.wakes (State.keepUnit (buildLate w) (exec (buildLate w) u))) ∧
    (t.drainsOut = false → Fetches pc u 0 ws t → ws.length ≤ 6 → decodeUnit t.ctx.long ws = .ok i → (∀ n < ws.length, shapeUnit t.ctx.long (ws.take n) = .more) →
      step s = s.wakes (State.keepUnit i (exec i u))) ∧
    (∀ (b : Bad) (n : Nat), t.drainsOut = false → Fetches pc u 0 ws t → ws.length ≤ 6 → shapeUnit t.ctx.long ws = .bad b n w →
      (∀ n < ws.length, shapeUnit t.ctx.long (ws.take n) = .more) → step s = s.wakes (.next (trapped t b.cause (decodeVal n w)))) ∧
    (∀ (va j loc : Nat) (tr : Option (Nat × Walk)), t.headFault t.me 0 (BitVec.ofNat 64 (va % 2 ^ 56)) 1 = none → t.place t.me .fetch 0 (va % 2 ^ 56) (64 + j) = .at loc tr →
      t.lineHeld (lineOf loc) = false → t.openFor (lineOf loc) t.site = false → t.mediaFault true [(loc, 4)] = none →
      t.fetchWord va j = .word (BitVec.ofNat 32 (bytesToNat (t.rdN loc 4))) ((t.keepLeaves t.ctx.ask.toNat tr.toList).touch [lineOf loc]))

/-- R70: memory keeps its one canonical form: locations strictly rising, and no entry that an unlisted location reads as, after every step. -/
def Obligations.MemoryCanonical : Prop :=
  ∀ (s t : State), Memory.wf s.mem = true → step s = .next t → Memory.wf t.mem = true

/-- What holds at reset (R19, R83, R153, R172, R238, R240, R290, R325, R332, R389, R394, R396, R400), and that the first step is the cold reset's. That memory is empty (log entry 3), and that the package
is powered and not yet booted (log entry 73), is the model's choice. -/
def Obligations.ResetState : Prop :=
  let s := State.reset
  Memory.wf s.mem = true ∧ s.mem = [] ∧ s.cycle = 0 ∧ s.booted = false ∧ step s = s.wakes (exec .coldReset s) ∧
    (∀ k, (s.coreAt k).service = true ∧ (s.coreAt k).deque = [] ∧ (s.coreAt k).ordq = [] ∧ (∀ i, s.inbox k i = [])) ∧
    (∀ h, (s.shelfAt h).mode = .cache ∧ (s.shelfAt h).target = none) ∧
    (∀ c, (s.cluAt c).tag0 = none ∧ (s.cluAt c).tag1 = none ∧ (s.cluAt c).leaserun = 16#7 ∧ (s.cluAt c).lease = none ∧ (s.cluAt c).token = true ∧
      ∀ j, SMap.get 0#32 (s.cluAt c).planes j = 0#32) ∧
    (∀ l, s.openFor l s.site = false) ∧
    (∀ d, bits (s.reg d 0x1000) 12 0 = 256 ∧ bits (s.reg d 0x3000) 63 48 = 400 ∧ bits (s.reg d 0x3000) 11 0 = 256 ∧ bits (s.reg d 0x3008) 47 32 = 700 ∧
      (s.reg d 0x4000).getLsbD 63 = true ∧ bits (s.reg d 0x5100) 4 0 = 10)

/-! ## Numbers -/

/-- R51 to R54 and R57 to R60: what a pattern means, and the one rounding: without an overflow a result is its exact value's neighbour in the mode, with NX
where it differs and UF where it is tiny as well; an overflow gives the mode's table entry with OF and NX; a NaN, an infinity and a zero give theirs; a
conversion to an integer rounds, or saturates with NV. -/
def Obligations.RoundingLaws : Prop :=
  ∀ (f : Fmt) (r : Rm) (sat n v sg : Bool) (num den w b : Nat) (e : Int) (x : Ex), 0 < den → 0 < num →
    let y := roundEx f r sat (.fin n num den e)
    let a := exVal (.fin false num den e)
    let m := patMag f b
    let sign := fun (n : Bool) (k : Nat) => k + if n then 2 ^ (f.width - 1) else 0
    let away := r = .rne ∨ awayFrom r n = true
    let lo : Int := if sg then -(2 ^ (w - 1) : Nat) else 0
    let hi : Int := if sg then (2 ^ (w - 1) : Nat) - 1 else (2 ^ w : Nat) - 1
    [Fmt.f32, .f16, .bf16, .e5m2, .e4m3, .e2m1].map (fun f => (f.width, f.frac, f.bias, f.maxFin)) =
      [(32, 23, 127, 0x7F7FFFFF), (16, 10, 15, 0x7BFF), (16, 7, 127, 0x7F7F), (8, 2, 15, 0x7B), (8, 3, 7, 0x7E), (4, 1, 1, 7)] ∧
    (b < 2 ^ f.width →
      (m ≤ f.maxFin → IsNumber (f.dec b) ∧ exVal (f.dec b) = patVal f b ∧ (f.dec b).isNeg = b.testBit (f.width - 1)) ∧
      (f.maxFin < m → (f.hasInf = true → m = f.maxFin + 1 → f.dec b = .inf (b.testBit (f.width - 1))) ∧
        (f.hasInf = true → m ≠ f.maxFin + 1 → f.dec b = .nan (!b.testBit (f.frac - 1))) ∧ (f.hasInf = false → f.dec b = .nan false))) ∧
    (¬overflows f r n a → Rounds f r n a y.1 ∧ patMag f y.1 ≤ f.maxFin ∧ y.2.getLsbD 2 = false ∧ y.2.getLsbD 1 = false ∧ y.2.getLsbD 0 = false ∧
      (y.2.getLsbD 4 = true ↔ magVal f (patMag f y.1) ≠ a) ∧ (y.2.getLsbD 3 = true ↔ magVal f (patMag f y.1) ≠ a ∧ tinyAfter f r n a)) ∧
    (overflows f r n a → y.2 = 0b10100#5 ∧
      (sat = true ∨ ¬away ∨ f = .e2m1 → y.1 = sign n f.maxFin) ∧
      (sat = false → away → f ≠ .e2m1 → y.1 = if f = .e4m3 then 0x7F else sign n (f.maxFin + 1))) ∧
    roundEx f r sat (.nan v) = (f.canonNan, if v = true ∨ f = .e2m1 then 1#5 else 0#5) ∧
    roundEx f r sat (.inf n) = (if f = .e4m3 ∧ sat = false then 0x7F else if f.hasInf = true then sign n (f.maxFin + 1) else sign n f.maxFin,
      if f.hasInf = true then 0#5 else 1#5) ∧
    roundEx f r sat (.fin n 0 den e) = (sign n 0, 0#5) ∧
    (0 < w → IsNumber x → ∃ i : Int, RoundsInt r (exVal x) i ∧ (i < lo → toIntDest r sg w x = (BitVec.ofInt w lo, 1#5)) ∧
      (hi < i → toIntDest r sg w x = (BitVec.ofInt w hi, 1#5)) ∧
      (lo ≤ i → i ≤ hi → toIntDest r sg w x = (BitVec.ofInt w i, if (i : Rat) = exVal x then 0#5 else 0b10000#5))) ∧
    toIntDest r sg w (.nan v) = (0#w, 1#5) ∧ toIntDest r sg w (.inf n) = (BitVec.ofInt w (if n then lo else hi), 1#5)

/-- R36, R38, R61, R137 to R139 and R143: the exact functions of the float lanes, the order of the MOD prefix's result steps and its clamp, comparisons by
value with their NV, and the special functions: each result is within its bound of the value, and rounded correctly where that is asked; the reciprocal's value,
and the results of zeros and infinities. Which result within the bound a lane has is a free value (log entry 8). -/
def Obligations.LaneLaws : Prop :=
  ∀ (f : Fmt) (x y : Ex) (m : Mod) (b : Nat) (c : CmpFn) (n exact : Bool) (k choice : Nat) (sat : Bool) (L : Int) (num den : Nat) (e : Int) (fl : Flags),
    let X := exVal x
    let Y := exVal y
    let signed := fun (b : Bool) (v : Rat) => if b = true then -v else v
    let scaled := X * (2 : Rat) ^ m.scale.toInt
    let i := fun (g : Fmt) => g.maxFin + 1
    let one := fun (g : Fmt) => g.bias * 2 ^ g.frac
    let neg := fun (g : Fmt) => 2 ^ (g.width - 1)
    (IsNumber x → IsNumber y → exVal (x.add y) = X + Y ∧ exVal (x.mul y) = X * Y ∧ exVal (x.fma y x) = X * Y + X ∧ exVal x.neg = -X ∧
      exVal (x.min2 y) = min X Y ∧ exVal (x.max2 y) = max X Y) ∧
    (IsNumber x → IsNumber (modPost m x) ∧ exVal (modPost m x) = signed m.neg (if m.abs = true then (if scaled < 0 then -scaled else scaled) else scaled)) ∧
    modPost m (.inf n) = .inf (m.neg != (n && !m.abs)) ∧ (∀ v, modPost m (.nan v) = .nan v) ∧
    modFloat f none x = roundEx f .rne false x ∧
    modFloat f (some m) x = (clampFloat f m (roundEx f .rne m.sat (modPost m x)).1, (roundEx f .rne m.sat (modPost m x)).2) ∧
    (m.clamp = 0#2 → clampFloat f m b = b) ∧ ((f.dec b).isNan = true → clampFloat f m b = b) ∧
    (IsNumber (f.dec b) → b < 2 ^ f.width → (m.clamp = 1#2 → patVal f (clampFloat f m b) = min (max (patVal f b) 0) 1) ∧
      (m.clamp = 2#2 → patVal f (clampFloat f m b) = min (max (patVal f b) (-1)) 1) ∧
      (m.clamp = 3#2 →
        let lo := (roundEx f .rne false (Fmt.f16.dec (m.lit.toNat % 65536))).1
        let hi := (roundEx f .rne false (Fmt.f16.dec (m.lit.toNat / 65536))).1
        IsNumber (Fmt.f16.dec (m.lit.toNat % 65536)) → IsNumber (Fmt.f16.dec (m.lit.toNat / 65536)) → IsNumber (f.dec lo) → IsNumber (f.dec hi) →
        patVal f (clampFloat f m b) = min (max (patVal f b) (patVal f lo)) (patVal f hi))) ∧
    (IsNumber x → IsNumber y → (cmpFloat c x y).2 = 0#5 ∧ ((cmpFloat c x y).1 = true ↔
      match c with | .eq => X = Y | .ne => X ≠ Y | .lt => X < Y | .le => X ≤ Y | .gt => Y < X | .ge => Y ≤ X | .un => False)) ∧
    (IsNumber x → (cmpFloat .lt (.inf n) x).1 = n ∧ (cmpFloat .gt (.inf n) x).1 = !n ∧ (cmpFloat .lt x (.inf n)).1 = !n ∧ (cmpFloat .eq x (.inf n)).1 = false) ∧
    (∀ v : Bool, (∀ w, y ≠ .nan w) → cmpFloat c (.nan v) y = (decide (c = .ne ∨ c = .un), if v = true ∨ c = .lt ∨ c = .le ∨ c = .gt ∨ c = .ge then 1#5 else 0#5) ∧
      cmpFloat c y (.nan v) = cmpFloat c (.nan v) y) ∧
    (∀ v w : Bool, cmpFloat c (.nan v) (.nan w) = cmpFloat c (.nan (v || w)) (.fin false 0 1 0)) ∧
    (0 < num → 0 < den →
      let a := exVal (.fin false num den e)
      let u := (2 : Rat) ^ max (L - (f.frac : Int)) (1 - (f.bias : Int) - (f.frac : Int))
      let z := roundSf f k choice sat { val := .fin n num den e, exact := exact, flags := fl }
      let near := magVal f (patMag f z.1)
      let within := if k = 0 then u / 2 else (k : Rat) * u
      (2 : Rat) ^ L ≤ a → a < (2 : Rat) ^ (L + 1) →
        (k = 0 → z = ((roundEx f .rne sat (.fin n num den e)).1, (roundEx f .rne sat (.fin n num den e)).2 ||| fl)) ∧
        (z.2.getLsbD 2 = false → z.1.testBit (f.width - 1) = n ∧ patMag f z.1 ≤ f.maxFin ∧ near ≤ a + within ∧ a ≤ near + within) ∧
        (z.2.getLsbD 2 = true → fl.getLsbD 2 = true ∨ magVal f (f.maxFin + 1) ≤ a + within) ∧
        (near ≠ a → z.2.getLsbD 2 = false → z.2.getLsbD 4 = true)) ∧
    (∀ s : Sfu, ∃ q : Nat, sfuLane s f none b = roundSf f (s.bound f) q false (sfuVal s (f.dec b))) ∧
    (0 < num → 0 < den → exVal (sfuVal .rcp (.fin n num den e)).val = 1 / exVal (.fin n num den e)) ∧
    [Sfu.rcp, .rsqrt, .sqrt, .exp2, .log2, .exp, .ln, .sinpi, .cospi, .tanh, .sigm, .silu].map (fun s => [Fmt.f32, .f16, .bf16].map s.bound) =
      [[1, 0, 0], [1, 0, 0], [0, 0, 0], [2, 1, 1], [2, 1, 1], [2, 1, 1], [2, 1, 1], [2, 1, 1], [2, 1, 1], [3, 1, 1], [3, 1, 1], [4, 1, 1]] ∧
    (∀ g ∈ [Fmt.f32, .f16, .bf16],
      let at' := fun (s : Sfu) (b : Nat) => sfuLane s g none b
      let nv := (g.canonNan, 1#5)
      [Sfu.rcp, .rsqrt, .sqrt, .exp2, .log2, .exp, .ln, .sinpi, .cospi, .tanh, .sigm, .silu].map (at' · 0) =
        [(i g, 2#5), (i g, 2#5), (0, 0#5), (one g, 0#5), (neg g + i g, 2#5), (one g, 0#5), (neg g + i g, 2#5), (0, 0#5), (one g, 0#5), (0, 0#5),
         (one g - 2 ^ g.frac, 0#5), (0, 0#5)] ∧
      [Sfu.rcp, .rsqrt, .sqrt, .sinpi, .cospi, .tanh, .silu].map (at' · (neg g)) =
        [(neg g + i g, 2#5), (neg g + i g, 2#5), (neg g, 0#5), (neg g, 0#5), (one g, 0#5), (neg g, 0#5), (neg g, 0#5)] ∧
      [Sfu.rcp, .rsqrt, .sqrt, .exp2, .log2, .exp, .ln, .sinpi, .cospi, .tanh, .sigm, .silu].map (at' · (i g)) =
        [(0, 0#5), (0, 0#5), (i g, 0#5), (i g, 0#5), (i g, 0#5), (i g, 0#5), (i g, 0#5), nv, nv, (one g, 0#5), (one g, 0#5), (i g, 0#5)] ∧
      [Sfu.rcp, .rsqrt, .sqrt, .exp2, .log2, .exp, .ln, .sinpi, .cospi, .tanh, .sigm, .silu].map (at' · (neg g + i g)) =
        [(neg g, 0#5), nv, nv, (0, 0#5), nv, (0, 0#5), nv, nv, nv, (neg g + one g, 0#5), (0, 0#5), (neg g, 0#5)])
end

