-- ==== Sys2Proof/Laws/SMap.lean ====
section
/-! SUPPORT. Sparse maps: what a read after a write finds, that every operation keeps the canonical form, and that canonical maps with the same
values are the same data. -/
namespace Sys2Proof.SMap

variable {α : Type}

@[simp] theorem get_nil (d : α) (k : Nat) : get d [] k = d := rfl
theorem get_cons (d : α) (j : Nat) (a : α) (m : SMap α) (k : Nat) : get d ((j, a) :: m) k = if j = k then a else get d m k := rfl
@[simp] theorem get_cons_self (d : α) (k : Nat) (a : α) (m : SMap α) : get d ((k, a) :: m) k = a := by simp [get]
@[simp] theorem keys_nil : keys ([] : SMap α) = [] := rfl
@[simp] theorem keys_cons (j : Nat) (a : α) (m : SMap α) : keys ((j, a) :: m) = j :: keys m := rfl
@[simp] theorem keys_length (m : SMap α) : (keys m).length = m.length := by induction m <;> simp_all [keys]
@[simp] theorem vals_length (m : SMap α) : (vals m).length = m.length := by induction m <;> simp_all [vals]

/-! ## Reads after writes -/

theorem get_insert (d : α) (m : SMap α) (k q : Nat) (a : α) : get d (insert k a m) q = if q = k then a else get d m q := by
  induction m with
  | nil => simp [insert, get, eq_comm]
  | cons x m ih =>
    obtain ⟨j, b⟩ := x
    unfold insert
    split
    · simp [get, eq_comm]
    · split
      · rename_i h; subst h
        by_cases e : k = q <;> simp [get, e, eq_comm]
      · rename_i h1 h2
        simp only [get_cons, ih]
        by_cases e : j = q
        · subst e; simp [Ne.symm h2]
        · simp [e]

theorem get_erase (d : α) (m : SMap α) (k q : Nat) : get d (erase k m) q = if q = k then d else get d m q := by
  induction m with
  | nil => simp [erase]
  | cons x m ih =>
    obtain ⟨j, b⟩ := x
    unfold erase
    split
    · rename_i h; subst h
      rw [ih, get_cons]; by_cases e : j = q
      · simp [e]
      · simp [e, Ne.symm e]
    · rename_i h
      rw [get_cons, get_cons, ih]
      by_cases e : j = q
      · subst e; simp [h]
      · simp [e]

/-- A read after a write: the value written, or what stood there. -/
theorem get_set [DecidableEq α] (d : α) (m : SMap α) (k q : Nat) (a : α) : get d (set d m k a) q = if q = k then a else get d m q := by
  unfold set; split
  · rename_i h; subst h; exact get_erase _ m k q
  · exact get_insert d m k q a
@[simp] theorem get_set_self [DecidableEq α] (d : α) (m : SMap α) (k : Nat) (a : α) : get d (set d m k a) k = a := by simp [get_set]
theorem get_set_ne [DecidableEq α] (d : α) (m : SMap α) {k q : Nat} (a : α) (h : q ≠ k) : get d (set d m k a) q = get d m q := by simp [get_set, h]

/-! ## The canonical form -/

theorem above_mono {j k : Nat} (h : j ≤ k) : ∀ {m : SMap α}, above k m = true → above j m = true
  | [], _ => rfl
  | (i, _) :: m, hm => by
    simp only [above, Bool.and_eq_true, decide_eq_true_eq] at hm ⊢
    exact ⟨Nat.le_trans h hm.1, above_mono h hm.2⟩
theorem above_insert {k j : Nat} (a : α) (h : j ≤ k) : ∀ {m : SMap α}, above j m = true → above j (insert k a m) = true
  | [], _ => by simp [insert, above, h]
  | (i, b) :: m, hm => by
    simp only [above, Bool.and_eq_true, decide_eq_true_eq] at hm
    unfold insert
    split
    · simp [above, h, hm.1, hm.2]
    · split
      · simp [above, h, hm.2]
      · simp [above, hm.1, above_insert a h hm.2]
theorem above_erase {k j : Nat} : ∀ {m : SMap α}, above j m = true → above j (erase k m) = true
  | [], _ => rfl
  | (i, b) :: m, hm => by
    simp only [above, Bool.and_eq_true, decide_eq_true_eq] at hm
    unfold erase; split
    · exact above_erase hm.2
    · simp [above, hm.1, above_erase hm.2]
theorem get_above (d : α) {j k : Nat} (h : k < j) : ∀ {m : SMap α}, above j m = true → get d m k = d
  | [], _ => rfl
  | (i, b) :: m, hm => by
    simp only [above, Bool.and_eq_true, decide_eq_true_eq] at hm
    rw [get_cons, if_neg (by omega)]; exact get_above d h hm.2

variable [DecidableEq α]

theorem wf_cons (d : α) (j : Nat) (a : α) (m : SMap α) : wf d ((j, a) :: m) = true ↔ above (j + 1) m = true ∧ a ≠ d ∧ wf d m = true := by
  simp [wf, and_assoc]
theorem wf_insert (d : α) (k : Nat) (a : α) (h : a ≠ d) : ∀ {m : SMap α}, wf d m = true → wf d (insert k a m) = true
  | [], _ => by simp [insert, wf, above, h]
  | (j, b) :: m, hm => by
    obtain ⟨h1, h2, h3⟩ := (wf_cons d j b m).1 hm
    unfold insert
    split
    · rename_i hk
      refine (wf_cons d k a _).2 ⟨?_, h, hm⟩
      simp only [above, Bool.and_eq_true, decide_eq_true_eq]
      exact ⟨hk, above_mono (by omega) h1⟩
    · split
      · rename_i e; subst e; exact (wf_cons d k a m).2 ⟨h1, h, h3⟩
      · rename_i n1 n2
        exact (wf_cons d j b _).2 ⟨above_insert a (by omega) h1, h2, wf_insert d k a h h3⟩
theorem wf_erase (d : α) (k : Nat) : ∀ {m : SMap α}, wf d m = true → wf d (erase k m) = true
  | [], _ => rfl
  | (j, b) :: m, hm => by
    obtain ⟨h1, h2, h3⟩ := (wf_cons d j b m).1 hm
    unfold erase; split
    · exact wf_erase d k h3
    · exact (wf_cons d j b _).2 ⟨above_erase h1, h2, wf_erase d k h3⟩
/-- A write keeps the canonical form. -/
theorem wf_set (d : α) {m : SMap α} (k : Nat) (a : α) (h : wf d m = true) : wf d (set d m k a) = true := by
  unfold set; split
  · exact wf_erase d k h
  · rename_i n; exact wf_insert d k a n h
omit [DecidableEq α] in
theorem above_keep {j : Nat} (p : Nat → α → Bool) : ∀ {m : SMap α}, above j m = true → above j (keep p m) = true
  | [], _ => rfl
  | (i, b) :: m, hm => by
    simp only [above, Bool.and_eq_true, decide_eq_true_eq] at hm
    unfold keep; split
    · simp [above, hm.1, above_keep p hm.2]
    · exact above_keep p hm.2
theorem wf_keep (d : α) (p : Nat → α → Bool) : ∀ {m : SMap α}, wf d m = true → wf d (keep p m) = true
  | [], _ => rfl
  | (j, b) :: m, hm => by
    obtain ⟨h1, h2, h3⟩ := (wf_cons d j b m).1 hm
    unfold keep; split
    · exact (wf_cons d j b _).2 ⟨above_keep p h1, h2, wf_keep d p h3⟩
    · exact wf_keep d p h3

/-- Canonical maps that read alike are equal. -/
theorem ext (d : α) : ∀ {m n : SMap α}, wf d m = true → wf d n = true → (∀ k, get d m k = get d n k) → m = n
  | [], [], _, _, _ => rfl
  | [], (j, b) :: n, _, hn, h => by
    have := h j; simp [get] at this
    exact absurd this.symm ((wf_cons d j b n).1 hn).2.1
  | (j, b) :: m, [], hm, _, h => by
    have := h j; simp [get] at this
    exact absurd this ((wf_cons d j b m).1 hm).2.1
  | (i, a) :: m, (j, b) :: n, hm, hn, h => by
    obtain ⟨a1, a2, a3⟩ := (wf_cons d i a m).1 hm
    obtain ⟨b1, b2, b3⟩ := (wf_cons d j b n).1 hn
    have hi := h i
    have hj := h j
    by_cases e : i = j
    · subst e
      have ab : a = b := by simpa [get] using hi
      subst ab
      congr 1
      refine ext d a3 b3 fun k => ?_
      by_cases q : i = k
      · subst q; rw [get_above d (by omega) a1, get_above d (by omega) b1]
      · have := h k; simpa [get, q] using this
    · rcases Nat.lt_or_gt_of_ne e with l | l
      · rw [get_cons_self, get_cons, if_neg (by omega), get_above d (by omega) b1] at hi
        exact absurd hi a2
      · rw [get_cons_self, get_cons, if_neg e, get_above d (by omega) a1] at hj
        exact absurd hj.symm b2

end Sys2Proof.SMap
end

