-- ==== Sys2Proof/Laws/Memory.lean ====
section
/-! SUPPORT. Memory: reads after writes, one byte and many, and that every write keeps the canonical form. -/
namespace Sys2Proof.Machine
open Sys2Proof

namespace Memory

theorem wf_reset : wf State.reset.mem = true := rfl
theorem read_write (m : List Host.Cell) (a q : Nat) (b : Byte) : read (write m a b) q = if q = a then b else read m q := SMap.get_set _ m a q b
theorem wf_write {m : List Host.Cell} (a : Nat) (b : Byte) (h : wf m = true) : wf (write m a b) = true := SMap.wf_set _ a b h
theorem wf_writeN : ∀ {m : List Host.Cell} (a : Nat) (bs : List Byte), wf m = true → wf (writeN m a bs) = true
  | _, _, [], h => h
  | _, a, b :: bs, h => wf_writeN (a + 1) bs (wf_write a b h)
theorem wf_keep {m : List Host.Cell} (p : Nat → Byte → Bool) (h : wf m = true) : wf (SMap.keep p m) = true := SMap.wf_keep _ p h

/-- A read of one byte after a write of several. -/
theorem read_writeN : ∀ (m : List Host.Cell) (a : Nat) (bs : List Byte) (q : Nat),
    read (writeN m a bs) q = if a ≤ q ∧ q < a + bs.length then bs.getD (q - a) 0#8 else read m q
  | m, a, [], q => by rw [writeN, List.length_nil, if_neg (by omega)]
  | m, a, b :: bs, q => by
    rw [writeN, read_writeN (write m a b) (a + 1) bs q, read_write]
    by_cases h : q = a
    · subst h
      rw [if_neg (by omega), if_pos rfl, if_pos (by simp only [List.length_cons]; omega)]; simp
    · by_cases k : a + 1 ≤ q ∧ q < a + 1 + bs.length
      · have e : q - a = q - (a + 1) + 1 := by omega
        rw [if_pos k, if_pos (by simp only [List.length_cons]; omega), e, List.getD_cons_succ]
      · rw [if_neg k, if_neg h, if_neg (by simp only [List.length_cons]; omega)]
theorem read_writeN_out (m : List Host.Cell) (a : Nat) (bs : List Byte) (q : Nat) (h : q < a ∨ a + bs.length ≤ q) : read (writeN m a bs) q = read m q := by
  rw [read_writeN, if_neg (by omega)]

@[simp] theorem readN_length : ∀ (m : List Host.Cell) (a n : Nat), (readN m a n).length = n
  | _, _, 0 => rfl
  | m, a, n + 1 => by simp [readN, readN_length m (a + 1) n]
/-- A read of as many bytes as were written gives those bytes. -/
theorem readN_congr {m m' : List Host.Cell} : ∀ (a n : Nat), (∀ q, a ≤ q → q < a + n → read m q = read m' q) → readN m a n = readN m' a n
  | _, 0, _ => rfl
  | a, n + 1, h => by
    rw [readN, readN, h a (Nat.le_refl a) (by omega), readN_congr (a + 1) n fun q h1 h2 => h q (by omega) (by omega)]
theorem readN_writeN : ∀ (m : List Host.Cell) (a : Nat) (bs : List Byte), readN (writeN m a bs) a bs.length = bs
  | _, _, [] => rfl
  | m, a, b :: bs => by
    have h : read (writeN m a (b :: bs)) a = b := by rw [read_writeN, if_pos (by simp)]; simp
    rw [List.length_cons, readN, h, writeN, readN_writeN (write m a b) (a + 1) bs]
theorem readN_writeN_out (m : List Host.Cell) (a : Nat) (bs : List Byte) (q n : Nat) (h : q + n ≤ a ∨ a + bs.length ≤ q) :
    readN (writeN m a bs) q n = readN m q n :=
  readN_congr q n fun r h1 h2 => read_writeN_out m a bs r (by omega)

/-- Memories in the canonical form that read alike are the same list. -/
theorem ext {m n : List Host.Cell} (hm : wf m = true) (hn : wf n = true) (h : ∀ a, read m a = read n a) : m = n := SMap.ext _ hm hn h

end Memory

/-! ## Bytes and numbers (R3) -/

@[simp] theorem natToBytes_length : ∀ n v : Nat, (natToBytes n v).length = n
  | 0, _ => rfl
  | n + 1, v => by simp [natToBytes, natToBytes_length n]
theorem bytesToNat_natToBytes : ∀ n v : Nat, bytesToNat (natToBytes n v) = v % 256 ^ n
  | 0, v => by simp [natToBytes, bytesToNat, Nat.mod_one]
  | n + 1, v => by
    rw [natToBytes, bytesToNat, bytesToNat_natToBytes n, BitVec.toNat_ofNat, show 256 ^ (n + 1) = 256 * 256 ^ n from Nat.pow_succ', Nat.mod_mul]
theorem bytesToNat_lt : ∀ bs : List Byte, bytesToNat bs < 256 ^ bs.length
  | [] => by simp [bytesToNat]
  | b :: bs => by
    have h := bytesToNat_lt bs
    have hb := b.isLt
    simp only [bytesToNat, List.length_cons, Nat.pow_succ]
    omega

namespace State

@[simp] theorem byte_poke (s : State) (loc : Nat) (bs : List Byte) (q : Nat) :
    (s.poke loc bs).byte q = if loc ≤ q ∧ q < loc + bs.length then bs.getD (q - loc) 0#8 else s.byte q := Memory.read_writeN s.mem loc bs q
@[simp] theorem poke_mem (s : State) (loc : Nat) (bs : List Byte) : (s.poke loc bs).mem = Memory.writeN s.mem loc bs := rfl
@[simp] theorem poke_ctx (s : State) (loc : Nat) (bs : List Byte) : (s.poke loc bs).ctx = s.ctx := rfl
@[simp] theorem poke_pkg (s : State) (loc : Nat) (bs : List Byte) : (s.poke loc bs).pkg = s.pkg := rfl
@[simp] theorem poke_dies (s : State) (loc : Nat) (bs : List Byte) : (s.poke loc bs).dies = s.dies := rfl
theorem load_pokeNat (s : State) (loc n v : Nat) : (s.pokeNat loc n v).load loc n = v % 256 ^ n := by
  have h := Memory.readN_writeN s.mem loc (natToBytes n v)
  rw [natToBytes_length] at h
  rw [load, pokeNat, poke_mem, h, bytesToNat_natToBytes]
theorem wf_poke (s : State) (loc : Nat) (bs : List Byte) (h : Memory.wf s.mem = true) : Memory.wf (s.poke loc bs).mem = true := Memory.wf_writeN loc bs h
theorem wf_pokeWords : ∀ (s : State) (loc : Nat) (ws : List Word), Memory.wf s.mem = true → Memory.wf (s.pokeWords loc ws).mem = true
  | _, _, [], h => h
  | s, loc, w :: ws, h => wf_pokeWords (s.pokeNat loc 8 w.toNat) (loc + 8) ws (wf_poke s loc _ h)

end State
end Sys2Proof.Machine
end

