-- ==== Sys2Proof/Laws/PerInstr.lean ====
section
/-! SUPPORT. Per instruction: the encoder gives a unit as many words as its form has (R21): prefixes, the base word and a literal. -/
namespace Sys2Proof.Laws.Length
open Sys2Proof

/-- The unit has `Instr.words` words. -/
def Statement (i : Instr) : Prop := (encode i).length = i.words

/-- Every instruction but the two with a literal of their own: its prefixes decide. -/
theorem of_pre (i : Instr) (hw : i.words = 1 + i.pre.words)
    (hl : encodeLit i = match i.pre.mod with | some m => if m.clamp = 3#2 then [m.lit] else [] | none => []) : Statement i := by
  unfold Statement encode
  rw [hw, hl]
  generalize i.pre = p
  obtain ⟨_ | k, _ | m⟩ := p
  · rfl
  · by_cases h : m.clamp = 3#2 <;> simp [encodePre, Pre.words, h]
  · rfl
  · by_cases h : m.clamp = 3#2 <;> simp [encodePre, Pre.words, h]

theorem aluAdd (p : Pre) (s : BitVec 3) (d a b : BitVec 5) : Statement (.aluAdd p s d a b) := of_pre _ rfl rfl
theorem aluSub (p : Pre) (s : BitVec 3) (d a b : BitVec 5) : Statement (.aluSub p s d a b) := of_pre _ rfl rfl
theorem aluAnd (s : BitVec 3) (d a b : BitVec 5) : Statement (.aluAnd s d a b) := of_pre _ rfl rfl
theorem aluOr (s : BitVec 3) (d a b : BitVec 5) : Statement (.aluOr s d a b) := of_pre _ rfl rfl
theorem aluXor (s : BitVec 3) (d a b : BitVec 5) : Statement (.aluXor s d a b) := of_pre _ rfl rfl
theorem aluAndn (s : BitVec 3) (d a b : BitVec 5) : Statement (.aluAndn s d a b) := of_pre _ rfl rfl
theorem aluOrn (s : BitVec 3) (d a b : BitVec 5) : Statement (.aluOrn s d a b) := of_pre _ rfl rfl
theorem aluXnor (s : BitVec 3) (d a b : BitVec 5) : Statement (.aluXnor s d a b) := of_pre _ rfl rfl
theorem aluShl (s : BitVec 3) (d a b : BitVec 5) : Statement (.aluShl s d a b) := of_pre _ rfl rfl
theorem aluShr (s : BitVec 3) (d a b : BitVec 5) : Statement (.aluShr s d a b) := of_pre _ rfl rfl
theorem aluSar (s : BitVec 3) (d a b : BitVec 5) : Statement (.aluSar s d a b) := of_pre _ rfl rfl
theorem aluRol (s : BitVec 3) (d a b : BitVec 5) : Statement (.aluRol s d a b) := of_pre _ rfl rfl
theorem aluRor (s : BitVec 3) (d a b : BitVec 5) : Statement (.aluRor s d a b) := of_pre _ rfl rfl
theorem aluSlt (s : BitVec 3) (d a b : BitVec 5) : Statement (.aluSlt s d a b) := of_pre _ rfl rfl
theorem aluSltn (s : BitVec 3) (d a b : BitVec 5) : Statement (.aluSltn s d a b) := of_pre _ rfl rfl
theorem aluMin (s : BitVec 3) (d a b : BitVec 5) : Statement (.aluMin s d a b) := of_pre _ rfl rfl
theorem aluMax (s : BitVec 3) (d a b : BitVec 5) : Statement (.aluMax s d a b) := of_pre _ rfl rfl
theorem aluMinn (s : BitVec 3) (d a b : BitVec 5) : Statement (.aluMinn s d a b) := of_pre _ rfl rfl
theorem aluMaxn (s : BitVec 3) (d a b : BitVec 5) : Statement (.aluMaxn s d a b) := of_pre _ rfl rfl
theorem aluAbsd (p : Pre) (s : BitVec 3) (d a b : BitVec 5) : Statement (.aluAbsd p s d a b) := of_pre _ rfl rfl
theorem aluwAdd (p : Pre) (s : BitVec 3) (d a b : BitVec 5) : Statement (.aluwAdd p s d a b) := of_pre _ rfl rfl
theorem aluwSub (p : Pre) (s : BitVec 3) (d a b : BitVec 5) : Statement (.aluwSub p s d a b) := of_pre _ rfl rfl
theorem aluwAnd (s : BitVec 3) (d a b : BitVec 5) : Statement (.aluwAnd s d a b) := of_pre _ rfl rfl
theorem aluwOr (s : BitVec 3) (d a b : BitVec 5) : Statement (.aluwOr s d a b) := of_pre _ rfl rfl
theorem aluwXor (s : BitVec 3) (d a b : BitVec 5) : Statement (.aluwXor s d a b) := of_pre _ rfl rfl
theorem aluwAndn (s : BitVec 3) (d a b : BitVec 5) : Statement (.aluwAndn s d a b) := of_pre _ rfl rfl
theorem aluwOrn (s : BitVec 3) (d a b : BitVec 5) : Statement (.aluwOrn s d a b) := of_pre _ rfl rfl
theorem aluwXnor (s : BitVec 3) (d a b : BitVec 5) : Statement (.aluwXnor s d a b) := of_pre _ rfl rfl
theorem aluwShl (s : BitVec 3) (d a b : BitVec 5) : Statement (.aluwShl s d a b) := of_pre _ rfl rfl
theorem aluwShr (s : BitVec 3) (d a b : BitVec 5) : Statement (.aluwShr s d a b) := of_pre _ rfl rfl
theorem aluwSar (s : BitVec 3) (d a b : BitVec 5) : Statement (.aluwSar s d a b) := of_pre _ rfl rfl
theorem aluwRol (s : BitVec 3) (d a b : BitVec 5) : Statement (.aluwRol s d a b) := of_pre _ rfl rfl
theorem aluwRor (s : BitVec 3) (d a b : BitVec 5) : Statement (.aluwRor s d a b) := of_pre _ rfl rfl
theorem aluwSlt (s : BitVec 3) (d a b : BitVec 5) : Statement (.aluwSlt s d a b) := of_pre _ rfl rfl
theorem aluwSltn (s : BitVec 3) (d a b : BitVec 5) : Statement (.aluwSltn s d a b) := of_pre _ rfl rfl
theorem aluwMin (s : BitVec 3) (d a b : BitVec 5) : Statement (.aluwMin s d a b) := of_pre _ rfl rfl
theorem aluwMax (s : BitVec 3) (d a b : BitVec 5) : Statement (.aluwMax s d a b) := of_pre _ rfl rfl
theorem aluwMinn (s : BitVec 3) (d a b : BitVec 5) : Statement (.aluwMinn s d a b) := of_pre _ rfl rfl
theorem aluwMaxn (s : BitVec 3) (d a b : BitVec 5) : Statement (.aluwMaxn s d a b) := of_pre _ rfl rfl
theorem aluwAbsd (p : Pre) (s : BitVec 3) (d a b : BitVec 5) : Statement (.aluwAbsd p s d a b) := of_pre _ rfl rfl
theorem mulLo (p : Pre) (s : BitVec 3) (d a b : BitVec 5) : Statement (.mulLo p s d a b) := of_pre _ rfl rfl
theorem mulHi (s : BitVec 3) (d a b : BitVec 5) : Statement (.mulHi s d a b) := of_pre _ rfl rfl
theorem mulHin (s : BitVec 3) (d a b : BitVec 5) : Statement (.mulHin s d a b) := of_pre _ rfl rfl
theorem mulHisn (s : BitVec 3) (d a b : BitVec 5) : Statement (.mulHisn s d a b) := of_pre _ rfl rfl
theorem mulW (p : Pre) (s : BitVec 3) (d a b : BitVec 5) : Statement (.mulW p s d a b) := of_pre _ rfl rfl
theorem mulWn (s : BitVec 3) (d a b : BitVec 5) : Statement (.mulWn s d a b) := of_pre _ rfl rfl
theorem divQ (s : BitVec 3) (d a b : BitVec 5) : Statement (.divQ s d a b) := of_pre _ rfl rfl
theorem divQn (s : BitVec 3) (d a b : BitVec 5) : Statement (.divQn s d a b) := of_pre _ rfl rfl
theorem divRem (s : BitVec 3) (d a b : BitVec 5) : Statement (.divRem s d a b) := of_pre _ rfl rfl
theorem divRemn (s : BitVec 3) (d a b : BitVec 5) : Statement (.divRemn s d a b) := of_pre _ rfl rfl
theorem divQw (s : BitVec 3) (d a b : BitVec 5) : Statement (.divQw s d a b) := of_pre _ rfl rfl
theorem divQnw (s : BitVec 3) (d a b : BitVec 5) : Statement (.divQnw s d a b) := of_pre _ rfl rfl
theorem divRemw (s : BitVec 3) (d a b : BitVec 5) : Statement (.divRemw s d a b) := of_pre _ rfl rfl
theorem divRemnw (s : BitVec 3) (d a b : BitVec 5) : Statement (.divRemnw s d a b) := of_pre _ rfl rfl
theorem bitClz (s : BitVec 3) (d a : BitVec 5) : Statement (.bitClz s d a) := of_pre _ rfl rfl
theorem bitCtz (s : BitVec 3) (d a : BitVec 5) : Statement (.bitCtz s d a) := of_pre _ rfl rfl
theorem bitPopc (s : BitVec 3) (d a : BitVec 5) : Statement (.bitPopc s d a) := of_pre _ rfl rfl
theorem bitBrev (s : BitVec 3) (d a : BitVec 5) : Statement (.bitBrev s d a) := of_pre _ rfl rfl
theorem bitBswap (s : BitVec 3) (d a : BitVec 5) : Statement (.bitBswap s d a) := of_pre _ rfl rfl
theorem bitSext8 (s : BitVec 3) (d a : BitVec 5) : Statement (.bitSext8 s d a) := of_pre _ rfl rfl
theorem bitSext16 (s : BitVec 3) (d a : BitVec 5) : Statement (.bitSext16 s d a) := of_pre _ rfl rfl
theorem bitSext32 (s : BitVec 3) (d a : BitVec 5) : Statement (.bitSext32 s d a) := of_pre _ rfl rfl
theorem bitZext8 (s : BitVec 3) (d a : BitVec 5) : Statement (.bitZext8 s d a) := of_pre _ rfl rfl
theorem bitZext16 (s : BitVec 3) (d a : BitVec 5) : Statement (.bitZext16 s d a) := of_pre _ rfl rfl
theorem bitZext32 (s : BitVec 3) (d a : BitVec 5) : Statement (.bitZext32 s d a) := of_pre _ rfl rfl
theorem bitExtr (s : BitVec 3) (d a b : BitVec 5) : Statement (.bitExtr s d a b) := of_pre _ rfl rfl
theorem bitExtrn (s : BitVec 3) (d a b : BitVec 5) : Statement (.bitExtrn s d a b) := of_pre _ rfl rfl
theorem bitDep (s : BitVec 3) (d a b : BitVec 5) : Statement (.bitDep s d a b) := of_pre _ rfl rfl
theorem cmovNz (p : Pre) (s : BitVec 3) (d a b : BitVec 5) : Statement (.cmovNz p s d a b) := of_pre _ rfl rfl
theorem cmovZ (p : Pre) (s : BitVec 3) (d a b : BitVec 5) : Statement (.cmovZ p s d a b) := of_pre _ rfl rfl
theorem cmovLt (p : Pre) (s : BitVec 3) (d a b : BitVec 5) : Statement (.cmovLt p s d a b) := of_pre _ rfl rfl
theorem cmovGe (p : Pre) (s : BitVec 3) (d a b : BitVec 5) : Statement (.cmovGe p s d a b) := of_pre _ rfl rfl
theorem addi (s : BitVec 3) (d a : BitVec 5) (i : BitVec 12) : Statement (.addi s d a i) := of_pre _ rfl rfl
theorem andi (s : BitVec 3) (d a : BitVec 5) (i : BitVec 12) : Statement (.andi s d a i) := of_pre _ rfl rfl
theorem ori (s : BitVec 3) (d a : BitVec 5) (i : BitVec 12) : Statement (.ori s d a i) := of_pre _ rfl rfl
theorem xori (s : BitVec 3) (d a : BitVec 5) (i : BitVec 12) : Statement (.xori s d a i) := of_pre _ rfl rfl
theorem slti (s : BitVec 3) (d a : BitVec 5) (i : BitVec 12) : Statement (.slti s d a i) := of_pre _ rfl rfl
theorem sltin (s : BitVec 3) (d a : BitVec 5) (i : BitVec 12) : Statement (.sltin s d a i) := of_pre _ rfl rfl
theorem shiShl (s : BitVec 3) (d a : BitVec 5) (w : BitVec 1) (h : BitVec 6) : Statement (.shiShl s d a w h) := of_pre _ rfl rfl
theorem shiShr (s : BitVec 3) (d a : BitVec 5) (w : BitVec 1) (h : BitVec 6) : Statement (.shiShr s d a w h) := of_pre _ rfl rfl
theorem shiSar (s : BitVec 3) (d a : BitVec 5) (w : BitVec 1) (h : BitVec 6) : Statement (.shiSar s d a w h) := of_pre _ rfl rfl
theorem shiRor (s : BitVec 3) (d a : BitVec 5) (w : BitVec 1) (h : BitVec 6) : Statement (.shiRor s d a w h) := of_pre _ rfl rfl
theorem lil (s : BitVec 3) (d : BitVec 5) (lit : BitVec 32) : Statement (.lil s d lit) := rfl
theorem lih (s : BitVec 3) (d : BitVec 5) (lit : BitVec 32) : Statement (.lih s d lit) := rfl
theorem adpc (s : BitVec 3) (d : BitVec 5) (o : BitVec 17) : Statement (.adpc s d o) := of_pre _ rfl rfl
theorem beq (s : BitVec 3) (a b : BitVec 5) (o : BitVec 12) : Statement (.beq s a b o) := of_pre _ rfl rfl
theorem bne (s : BitVec 3) (a b : BitVec 5) (o : BitVec 12) : Statement (.bne s a b o) := of_pre _ rfl rfl
theorem blt (s : BitVec 3) (a b : BitVec 5) (o : BitVec 12) : Statement (.blt s a b o) := of_pre _ rfl rfl
theorem bge (s : BitVec 3) (a b : BitVec 5) (o : BitVec 12) : Statement (.bge s a b o) := of_pre _ rfl rfl
theorem bltn (s : BitVec 3) (a b : BitVec 5) (o : BitVec 12) : Statement (.bltn s a b o) := of_pre _ rfl rfl
theorem bgen (s : BitVec 3) (a b : BitVec 5) (o : BitVec 12) : Statement (.bgen s a b o) := of_pre _ rfl rfl
theorem loop (s : BitVec 3) (a b : BitVec 5) (o : BitVec 12) : Statement (.loop s a b o) := of_pre _ rfl rfl
theorem jal (s : BitVec 3) (d : BitVec 5) (o : BitVec 17) : Statement (.jal s d o) := of_pre _ rfl rfl
theorem jalr (s : BitVec 3) (d a : BitVec 5) (i : BitVec 12) : Statement (.jalr s d a i) := of_pre _ rfl rfl
theorem rpt (s : BitVec 3) (a : BitVec 5) (l d p b : BitVec 4) (w : BitVec 1) : Statement (.rpt s a l d p b w) := of_pre _ rfl rfl
theorem nop (s : BitVec 3) : Statement (.nop s) := of_pre _ rfl rfl
theorem srd (s : BitVec 3) (d : BitVec 5) (n : BitVec 10) : Statement (.srd s d n) := of_pre _ rfl rfl
theorem swr (s : BitVec 3) (d : BitVec 5) (n : BitVec 10) : Statement (.swr s d n) := of_pre _ rfl rfl
theorem trap (s : BitVec 3) (c : BitVec 10) : Statement (.trap s c) := of_pre _ rfl rfl
theorem brk (s : BitVec 3) (c : BitVec 10) : Statement (.brk s c) := of_pre _ rfl rfl
theorem eret (s : BitVec 3) : Statement (.eret s) := of_pre _ rfl rfl
theorem yield (s : BitVec 3) : Statement (.yield s) := of_pre _ rfl rfl
theorem getid (s : BitVec 3) (d x : BitVec 5) : Statement (.getid s d x) := of_pre _ rfl rfl
theorem pubf (s : BitVec 3) (a b : BitVec 5) (c : BitVec 3) : Statement (.pubf s a b c) := of_pre _ rfl rfl
theorem done (s : BitVec 3) : Statement (.done s) := of_pre _ rfl rfl
theorem doneDec (s : BitVec 3) (a : BitVec 5) : Statement (.doneDec s a) := of_pre _ rfl rfl
theorem actqEntry (s : BitVec 3) (d : BitVec 5) : Statement (.actqEntry s d) := of_pre _ rfl rfl
theorem actqKind (s : BitVec 3) (d : BitVec 5) : Statement (.actqKind s d) := of_pre _ rfl rfl
theorem actqSendt (s : BitVec 3) (d : BitVec 5) : Statement (.actqSendt s d) := of_pre _ rfl rfl
theorem actqArrt (s : BitVec 3) (d : BitVec 5) : Statement (.actqArrt s d) := of_pre _ rfl rfl
theorem actqStartt (s : BitVec 3) (d : BitVec 5) : Statement (.actqStartt s d) := of_pre _ rfl rfl
theorem actqPend (s : BitVec 3) (d a : BitVec 5) : Statement (.actqPend s d a) := of_pre _ rfl rfl
theorem actqDeq (s : BitVec 3) (d : BitVec 5) : Statement (.actqDeq s d) := of_pre _ rfl rfl
theorem ld (s : BitVec 3) (t a : BitVec 5) (z : BitVec 3) (m : BitVec 2) (o : BitVec 7) : Statement (.ld s t a z m o) := of_pre _ rfl rfl
theorem st (s : BitVec 3) (t a : BitVec 5) (z : BitVec 3) (m : BitVec 2) (o : BitVec 7) : Statement (.st s t a z m o) := of_pre _ rfl rfl
theorem vaddiAdd (p : Pre) (s : BitVec 3) (d a b : BitVec 5) (e : BitVec 3) : Statement (.vaddiAdd p s d a b e) := of_pre _ rfl rfl
theorem vaddiSub (p : Pre) (s : BitVec 3) (d a b : BitVec 5) (e : BitVec 3) : Statement (.vaddiSub p s d a b e) := of_pre _ rfl rfl
theorem vaddiMin (p : Pre) (s : BitVec 3) (d a b : BitVec 5) (e : BitVec 3) : Statement (.vaddiMin p s d a b e) := of_pre _ rfl rfl
theorem vaddiMax (p : Pre) (s : BitVec 3) (d a b : BitVec 5) (e : BitVec 3) : Statement (.vaddiMax p s d a b e) := of_pre _ rfl rfl
theorem vaddiAbsd (p : Pre) (s : BitVec 3) (d a b : BitVec 5) (e : BitVec 3) : Statement (.vaddiAbsd p s d a b e) := of_pre _ rfl rfl
theorem vaddiAvg (p : Pre) (s : BitVec 3) (d a b : BitVec 5) (e : BitVec 3) : Statement (.vaddiAvg p s d a b e) := of_pre _ rfl rfl
theorem vaddiNeg (p : Pre) (s : BitVec 3) (d a : BitVec 5) (e : BitVec 3) : Statement (.vaddiNeg p s d a e) := of_pre _ rfl rfl
theorem vaddiAbs (p : Pre) (s : BitVec 3) (d a : BitVec 5) (e : BitVec 3) : Statement (.vaddiAbs p s d a e) := of_pre _ rfl rfl
theorem vlogiAnd (p : Pre) (s : BitVec 3) (d a b : BitVec 5) (e : BitVec 3) : Statement (.vlogiAnd p s d a b e) := of_pre _ rfl rfl
theorem vlogiOr (p : Pre) (s : BitVec 3) (d a b : BitVec 5) (e : BitVec 3) : Statement (.vlogiOr p s d a b e) := of_pre _ rfl rfl
theorem vlogiXor (p : Pre) (s : BitVec 3) (d a b : BitVec 5) (e : BitVec 3) : Statement (.vlogiXor p s d a b e) := of_pre _ rfl rfl
theorem vlogiAndn (p : Pre) (s : BitVec 3) (d a b : BitVec 5) (e : BitVec 3) : Statement (.vlogiAndn p s d a b e) := of_pre _ rfl rfl
theorem vlogiShl (p : Pre) (s : BitVec 3) (d a b : BitVec 5) (e : BitVec 3) : Statement (.vlogiShl p s d a b e) := of_pre _ rfl rfl
theorem vlogiShr (p : Pre) (s : BitVec 3) (d a b : BitVec 5) (e : BitVec 3) : Statement (.vlogiShr p s d a b e) := of_pre _ rfl rfl
theorem vlogiSar (p : Pre) (s : BitVec 3) (d a b : BitVec 5) (e : BitVec 3) : Statement (.vlogiSar p s d a b e) := of_pre _ rfl rfl
theorem vlogiRol (p : Pre) (s : BitVec 3) (d a b : BitVec 5) (e : BitVec 3) : Statement (.vlogiRol p s d a b e) := of_pre _ rfl rfl
theorem vlogiRor (p : Pre) (s : BitVec 3) (d a b : BitVec 5) (e : BitVec 3) : Statement (.vlogiRor p s d a b e) := of_pre _ rfl rfl
theorem vlogiNot (p : Pre) (s : BitVec 3) (d a : BitVec 5) (e : BitVec 3) : Statement (.vlogiNot p s d a e) := of_pre _ rfl rfl
theorem vlogiPopc (p : Pre) (s : BitVec 3) (d a : BitVec 5) (e : BitVec 3) : Statement (.vlogiPopc p s d a e) := of_pre _ rfl rfl
theorem vlogiClz (p : Pre) (s : BitVec 3) (d a : BitVec 5) (e : BitVec 3) : Statement (.vlogiClz p s d a e) := of_pre _ rfl rfl
theorem vmuliLo (p : Pre) (s : BitVec 3) (d a b : BitVec 5) (e : BitVec 3) : Statement (.vmuliLo p s d a b e) := of_pre _ rfl rfl
theorem vmuliHi (p : Pre) (s : BitVec 3) (d a b : BitVec 5) (e : BitVec 3) : Statement (.vmuliHi p s d a b e) := of_pre _ rfl rfl
theorem vmuliMac (p : Pre) (s : BitVec 3) (d a b : BitVec 5) (e : BitVec 3) : Statement (.vmuliMac p s d a b e) := of_pre _ rfl rfl
theorem vmuliMsb (p : Pre) (s : BitVec 3) (d a b : BitVec 5) (e : BitVec 3) : Statement (.vmuliMsb p s d a b e) := of_pre _ rfl rfl
theorem vcmpiEq (p : Pre) (s : BitVec 3) (d a b : BitVec 5) (e : BitVec 3) : Statement (.vcmpiEq p s d a b e) := of_pre _ rfl rfl
theorem vcmpiNe (p : Pre) (s : BitVec 3) (d a b : BitVec 5) (e : BitVec 3) : Statement (.vcmpiNe p s d a b e) := of_pre _ rfl rfl
theorem vcmpiLt (p : Pre) (s : BitVec 3) (d a b : BitVec 5) (e : BitVec 3) : Statement (.vcmpiLt p s d a b e) := of_pre _ rfl rfl
theorem vcmpiLe (p : Pre) (s : BitVec 3) (d a b : BitVec 5) (e : BitVec 3) : Statement (.vcmpiLe p s d a b e) := of_pre _ rfl rfl
theorem vcmpiGt (p : Pre) (s : BitVec 3) (d a b : BitVec 5) (e : BitVec 3) : Statement (.vcmpiGt p s d a b e) := of_pre _ rfl rfl
theorem vcmpiGe (p : Pre) (s : BitVec 3) (d a b : BitVec 5) (e : BitVec 3) : Statement (.vcmpiGe p s d a b e) := of_pre _ rfl rfl
theorem vaddfAdd (p : Pre) (s : BitVec 3) (d a b : BitVec 5) (e : BitVec 3) : Statement (.vaddfAdd p s d a b e) := of_pre _ rfl rfl
theorem vaddfSub (p : Pre) (s : BitVec 3) (d a b : BitVec 5) (e : BitVec 3) : Statement (.vaddfSub p s d a b e) := of_pre _ rfl rfl
theorem vaddfMin (p : Pre) (s : BitVec 3) (d a b : BitVec 5) (e : BitVec 3) : Statement (.vaddfMin p s d a b e) := of_pre _ rfl rfl
theorem vaddfMax (p : Pre) (s : BitVec 3) (d a b : BitVec 5) (e : BitVec 3) : Statement (.vaddfMax p s d a b e) := of_pre _ rfl rfl
theorem vmulfMul (p : Pre) (s : BitVec 3) (d a b : BitVec 5) (e : BitVec 3) : Statement (.vmulfMul p s d a b e) := of_pre _ rfl rfl
theorem vmulfFma (p : Pre) (s : BitVec 3) (d a b : BitVec 5) (e : BitVec 3) : Statement (.vmulfFma p s d a b e) := of_pre _ rfl rfl
theorem vmulfFms (p : Pre) (s : BitVec 3) (d a b : BitVec 5) (e : BitVec 3) : Statement (.vmulfFms p s d a b e) := of_pre _ rfl rfl
theorem vcmpfEq (p : Pre) (s : BitVec 3) (d a b : BitVec 5) (e : BitVec 3) : Statement (.vcmpfEq p s d a b e) := of_pre _ rfl rfl
theorem vcmpfNe (p : Pre) (s : BitVec 3) (d a b : BitVec 5) (e : BitVec 3) : Statement (.vcmpfNe p s d a b e) := of_pre _ rfl rfl
theorem vcmpfLt (p : Pre) (s : BitVec 3) (d a b : BitVec 5) (e : BitVec 3) : Statement (.vcmpfLt p s d a b e) := of_pre _ rfl rfl
theorem vcmpfLe (p : Pre) (s : BitVec 3) (d a b : BitVec 5) (e : BitVec 3) : Statement (.vcmpfLe p s d a b e) := of_pre _ rfl rfl
theorem vcmpfGt (p : Pre) (s : BitVec 3) (d a b : BitVec 5) (e : BitVec 3) : Statement (.vcmpfGt p s d a b e) := of_pre _ rfl rfl
theorem vcmpfGe (p : Pre) (s : BitVec 3) (d a b : BitVec 5) (e : BitVec 3) : Statement (.vcmpfGe p s d a b e) := of_pre _ rfl rfl
theorem vcmpfUn (p : Pre) (s : BitVec 3) (d a b : BitVec 5) (e : BitVec 3) : Statement (.vcmpfUn p s d a b e) := of_pre _ rfl rfl
theorem vdot (p : Pre) (s : BitVec 3) (d a b : BitVec 5) (e : BitVec 3) : Statement (.vdot p s d a b e) := of_pre _ rfl rfl
theorem vdotAcc (p : Pre) (s : BitVec 3) (d a b : BitVec 5) (e : BitVec 3) : Statement (.vdotAcc p s d a b e) := of_pre _ rfl rfl
theorem vdotI8 (p : Pre) (s : BitVec 3) (d a b : BitVec 5) : Statement (.vdotI8 p s d a b) := of_pre _ rfl rfl
theorem vdotAccI8 (p : Pre) (s : BitVec 3) (d a b : BitVec 5) : Statement (.vdotAccI8 p s d a b) := of_pre _ rfl rfl
theorem vdotI4 (p : Pre) (s : BitVec 3) (d a b : BitVec 5) : Statement (.vdotI4 p s d a b) := of_pre _ rfl rfl
theorem vdotAccI4 (p : Pre) (s : BitVec 3) (d a b : BitVec 5) : Statement (.vdotAccI4 p s d a b) := of_pre _ rfl rfl
theorem vcvt (p : Pre) (s : BitVec 3) (d a : BitVec 5) (x y : BitVec 1) (t e : BitVec 3) (i : BitVec 1) (m : BitVec 2) : Statement (.vcvt p s d a x y t e i m) := of_pre _ rfl rfl
theorem vsfuRcp (p : Pre) (s : BitVec 3) (d a : BitVec 5) (e : BitVec 3) : Statement (.vsfuRcp p s d a e) := of_pre _ rfl rfl
theorem vsfuRsqrt (p : Pre) (s : BitVec 3) (d a : BitVec 5) (e : BitVec 3) : Statement (.vsfuRsqrt p s d a e) := of_pre _ rfl rfl
theorem vsfuSqrt (p : Pre) (s : BitVec 3) (d a : BitVec 5) (e : BitVec 3) : Statement (.vsfuSqrt p s d a e) := of_pre _ rfl rfl
theorem vsfuExp2 (p : Pre) (s : BitVec 3) (d a : BitVec 5) (e : BitVec 3) : Statement (.vsfuExp2 p s d a e) := of_pre _ rfl rfl
theorem vsfuLog2 (p : Pre) (s : BitVec 3) (d a : BitVec 5) (e : BitVec 3) : Statement (.vsfuLog2 p s d a e) := of_pre _ rfl rfl
theorem vsfuExp (p : Pre) (s : BitVec 3) (d a : BitVec 5) (e : BitVec 3) : Statement (.vsfuExp p s d a e) := of_pre _ rfl rfl
theorem vsfuLn (p : Pre) (s : BitVec 3) (d a : BitVec 5) (e : BitVec 3) : Statement (.vsfuLn p s d a e) := of_pre _ rfl rfl
theorem vsfuSinpi (p : Pre) (s : BitVec 3) (d a : BitVec 5) (e : BitVec 3) : Statement (.vsfuSinpi p s d a e) := of_pre _ rfl rfl
theorem vsfuCospi (p : Pre) (s : BitVec 3) (d a : BitVec 5) (e : BitVec 3) : Statement (.vsfuCospi p s d a e) := of_pre _ rfl rfl
theorem vsfuTanh (p : Pre) (s : BitVec 3) (d a : BitVec 5) (e : BitVec 3) : Statement (.vsfuTanh p s d a e) := of_pre _ rfl rfl
theorem vsfuSigm (p : Pre) (s : BitVec 3) (d a : BitVec 5) (e : BitVec 3) : Statement (.vsfuSigm p s d a e) := of_pre _ rfl rfl
theorem vsfuSilu (p : Pre) (s : BitVec 3) (d a : BitVec 5) (e : BitVec 3) : Statement (.vsfuSilu p s d a e) := of_pre _ rfl rfl
theorem vredSum (p : Pre) (s : BitVec 3) (d a : BitVec 5) (e : BitVec 3) : Statement (.vredSum p s d a e) := of_pre _ rfl rfl
theorem vredMax (p : Pre) (s : BitVec 3) (d a : BitVec 5) (e : BitVec 3) : Statement (.vredMax p s d a e) := of_pre _ rfl rfl
theorem vredMin (p : Pre) (s : BitVec 3) (d a : BitVec 5) (e : BitVec 3) : Statement (.vredMin p s d a e) := of_pre _ rfl rfl
theorem vredSumi (p : Pre) (s : BitVec 3) (d a : BitVec 5) (t : BitVec 3) : Statement (.vredSumi p s d a t) := of_pre _ rfl rfl
theorem vredMaxi (p : Pre) (s : BitVec 3) (d a : BitVec 5) (t : BitVec 3) : Statement (.vredMaxi p s d a t) := of_pre _ rfl rfl
theorem vredMini (p : Pre) (s : BitVec 3) (d a : BitVec 5) (t : BitVec 3) : Statement (.vredMini p s d a t) := of_pre _ rfl rfl
theorem vredAndi (p : Pre) (s : BitVec 3) (d a : BitVec 5) (t : BitVec 3) : Statement (.vredAndi p s d a t) := of_pre _ rfl rfl
theorem vredOri (p : Pre) (s : BitVec 3) (d a : BitVec 5) (t : BitVec 3) : Statement (.vredOri p s d a t) := of_pre _ rfl rfl
theorem vredXori (p : Pre) (s : BitVec 3) (d a : BitVec 5) (t : BitVec 3) : Statement (.vredXori p s d a t) := of_pre _ rfl rfl
theorem vpermTbl (p : Pre) (s : BitVec 3) (d a b : BitVec 5) (e : BitVec 3) : Statement (.vpermTbl p s d a b e) := of_pre _ rfl rfl
theorem vpermTbl2 (p : Pre) (s : BitVec 3) (d a b : BitVec 5) (e : BitVec 3) : Statement (.vpermTbl2 p s d a b e) := of_pre _ rfl rfl
theorem vpermBcast (p : Pre) (s : BitVec 3) (d a c : BitVec 5) (e : BitVec 3) : Statement (.vpermBcast p s d a c e) := of_pre _ rfl rfl
theorem vpermSlup (p : Pre) (s : BitVec 3) (d a c : BitVec 5) (e : BitVec 3) : Statement (.vpermSlup p s d a c e) := of_pre _ rfl rfl
theorem vpermSldn (p : Pre) (s : BitVec 3) (d a c : BitVec 5) (e : BitVec 3) : Statement (.vpermSldn p s d a c e) := of_pre _ rfl rfl
theorem vpermZiplo (p : Pre) (s : BitVec 3) (d a b : BitVec 5) (e : BitVec 3) : Statement (.vpermZiplo p s d a b e) := of_pre _ rfl rfl
theorem vpermZiphi (p : Pre) (s : BitVec 3) (d a b : BitVec 5) (e : BitVec 3) : Statement (.vpermZiphi p s d a b e) := of_pre _ rfl rfl
theorem vpermUnze (p : Pre) (s : BitVec 3) (d a b : BitVec 5) (e : BitVec 3) : Statement (.vpermUnze p s d a b e) := of_pre _ rfl rfl
theorem vpermUnzo (p : Pre) (s : BitVec 3) (d a b : BitVec 5) (e : BitVec 3) : Statement (.vpermUnzo p s d a b e) := of_pre _ rfl rfl
theorem vpermRev (p : Pre) (s : BitVec 3) (d a : BitVec 5) (e : BitVec 3) : Statement (.vpermRev p s d a e) := of_pre _ rfl rfl
theorem vpermCmpr (p : Pre) (s : BitVec 3) (d a : BitVec 5) (e : BitVec 3) : Statement (.vpermCmpr p s d a e) := of_pre _ rfl rfl
theorem vmov (p : Pre) (s : BitVec 3) (d a : BitVec 5) (e : BitVec 3) : Statement (.vmov p s d a e) := of_pre _ rfl rfl
theorem vmovBcg (p : Pre) (s : BitVec 3) (d a : BitVec 5) (e : BitVec 3) : Statement (.vmovBcg p s d a e) := of_pre _ rfl rfl
theorem vmovInsg (p : Pre) (s : BitVec 3) (d a c : BitVec 5) (e : BitVec 3) : Statement (.vmovInsg p s d a c e) := of_pre _ rfl rfl
theorem vmovExtg (p : Pre) (s : BitVec 3) (d a c : BitVec 5) (e : BitVec 3) : Statement (.vmovExtg p s d a c e) := of_pre _ rfl rfl
theorem vmovGetv (p : Pre) (s : BitVec 3) (d a : BitVec 5) (e : BitVec 3) : Statement (.vmovGetv p s d a e) := of_pre _ rfl rfl
theorem vmovSetv (p : Pre) (s : BitVec 3) (d a : BitVec 5) (e : BitVec 3) : Statement (.vmovSetv p s d a e) := of_pre _ rfl rfl
theorem kmaskAnd (s : BitVec 3) (d a b : BitVec 5) : Statement (.kmaskAnd s d a b) := of_pre _ rfl rfl
theorem kmaskOr (s : BitVec 3) (d a b : BitVec 5) : Statement (.kmaskOr s d a b) := of_pre _ rfl rfl
theorem kmaskXor (s : BitVec 3) (d a b : BitVec 5) : Statement (.kmaskXor s d a b) := of_pre _ rfl rfl
theorem kmaskAndn (s : BitVec 3) (d a b : BitVec 5) : Statement (.kmaskAndn s d a b) := of_pre _ rfl rfl
theorem kmaskNot (s : BitVec 3) (d a : BitVec 5) : Statement (.kmaskNot s d a) := of_pre _ rfl rfl
theorem kmaskFromg (s : BitVec 3) (d a : BitVec 5) (p : BitVec 3) : Statement (.kmaskFromg s d a p) := of_pre _ rfl rfl
theorem kmaskTog (s : BitVec 3) (d a : BitVec 5) (p : BitVec 3) : Statement (.kmaskTog s d a p) := of_pre _ rfl rfl
theorem kmaskPopc (s : BitVec 3) (d a : BitVec 5) (e : BitVec 3) : Statement (.kmaskPopc s d a e) := of_pre _ rfl rfl
theorem kmaskFirst (s : BitVec 3) (d a : BitVec 5) (e : BitVec 3) : Statement (.kmaskFirst s d a e) := of_pre _ rfl rfl
theorem kmaskFill (s : BitVec 3) (d a : BitVec 5) (e : BitVec 3) : Statement (.kmaskFill s d a e) := of_pre _ rfl rfl
theorem kmaskMov (s : BitVec 3) (d a : BitVec 5) : Statement (.kmaskMov s d a) := of_pre _ rfl rfl
theorem vmodeShort (s : BitVec 3) : Statement (.vmodeShort s) := of_pre _ rfl rfl
theorem vmodeLong (s : BitVec 3) : Statement (.vmodeLong s) := of_pre _ rfl rfl
theorem vqnt (p : Pre) (s : BitVec 3) (d a : BitVec 5) (e : BitVec 3) (g : BitVec 2) : Statement (.vqnt p s d a e g) := of_pre _ rfl rfl
theorem vld (p : Pre) (s : BitVec 3) (t a : BitVec 5) (z : BitVec 3) (m : BitVec 2) (o : BitVec 7) : Statement (.vld p s t a z m o) := of_pre _ rfl rfl
theorem vst (p : Pre) (s : BitVec 3) (t a : BitVec 5) (z : BitVec 3) (m : BitVec 2) (o : BitVec 7) : Statement (.vst p s t a z m o) := of_pre _ rfl rfl
theorem vldx (s : BitVec 3) (d a b : BitVec 5) (k : BitVec 3) (c : BitVec 2) (g w : BitVec 1) : Statement (.vldx s d a b k c g w) := of_pre _ rfl rfl
theorem vstx (s : BitVec 3) (d a b : BitVec 5) (k : BitVec 3) (c : BitVec 2) (g w : BitVec 1) : Statement (.vstx s d a b k c g w) := of_pre _ rfl rfl
theorem ldt (s : BitVec 3) (t a : BitVec 5) (z : BitVec 3) (o : BitVec 7) : Statement (.ldt s t a z o) := of_pre _ rfl rfl
theorem acc (s : BitVec 3) (t a : BitVec 5) (z : BitVec 2) (o : BitVec 7) : Statement (.acc s t a z o) := of_pre _ rfl rfl
theorem accVec (s : BitVec 3) (t a : BitVec 5) (z : BitVec 2) (o : BitVec 7) : Statement (.accVec s t a z o) := of_pre _ rfl rfl
theorem amoAdd (s : BitVec 3) (d a b : BitVec 5) (w : BitVec 1) : Statement (.amoAdd s d a b w) := of_pre _ rfl rfl
theorem amoMin (s : BitVec 3) (d a b : BitVec 5) (w : BitVec 1) : Statement (.amoMin s d a b w) := of_pre _ rfl rfl
theorem amoMax (s : BitVec 3) (d a b : BitVec 5) (w : BitVec 1) : Statement (.amoMax s d a b w) := of_pre _ rfl rfl
theorem amoMinn (s : BitVec 3) (d a b : BitVec 5) (w : BitVec 1) : Statement (.amoMinn s d a b w) := of_pre _ rfl rfl
theorem amoMaxn (s : BitVec 3) (d a b : BitVec 5) (w : BitVec 1) : Statement (.amoMaxn s d a b w) := of_pre _ rfl rfl
theorem amoAnd (s : BitVec 3) (d a b : BitVec 5) (w : BitVec 1) : Statement (.amoAnd s d a b w) := of_pre _ rfl rfl
theorem amoOr (s : BitVec 3) (d a b : BitVec 5) (w : BitVec 1) : Statement (.amoOr s d a b w) := of_pre _ rfl rfl
theorem amoXor (s : BitVec 3) (d a b : BitVec 5) (w : BitVec 1) : Statement (.amoXor s d a b w) := of_pre _ rfl rfl
theorem amoSwap (s : BitVec 3) (d a b : BitVec 5) (w : BitVec 1) : Statement (.amoSwap s d a b w) := of_pre _ rfl rfl
theorem amoCas (s : BitVec 3) (d a b : BitVec 5) (w : BitVec 1) : Statement (.amoCas s d a b w) := of_pre _ rfl rfl
theorem amoFadd (s : BitVec 3) (d a b : BitVec 5) : Statement (.amoFadd s d a b) := of_pre _ rfl rfl
theorem amoFmin (s : BitVec 3) (d a b : BitVec 5) : Statement (.amoFmin s d a b) := of_pre _ rfl rfl
theorem amsg (s : BitVec 3) (d a b : BitVec 5) (c : BitVec 3) : Statement (.amsg s d a b c) := of_pre _ rfl rfl
theorem fence (s : BitVec 3) : Statement (.fence s) := of_pre _ rfl rfl
theorem fenceDrain (s c : BitVec 3) : Statement (.fenceDrain s c) := of_pre _ rfl rfl
theorem fenceEng (s : BitVec 3) : Statement (.fenceEng s) := of_pre _ rfl rfl
theorem hintL1 (s : BitVec 3) (a : BitVec 5) (o : BitVec 7) : Statement (.hintL1 s a o) := of_pre _ rfl rfl
theorem hintClu (s : BitVec 3) (a : BitVec 5) (o : BitVec 7) : Statement (.hintClu s a o) := of_pre _ rfl rfl
theorem hintMsc (s : BitVec 3) (a : BitVec 5) (o : BitVec 7) : Statement (.hintMsc s a o) := of_pre _ rfl rfl
theorem hintCrate (s : BitVec 3) (a : BitVec 5) (o : BitVec 7) : Statement (.hintCrate s a o) := of_pre _ rfl rfl
theorem hintLast (s : BitVec 3) (a : BitVec 5) (o : BitVec 7) : Statement (.hintLast s a o) := of_pre _ rfl rfl
theorem hintCnt (s : BitVec 3) (t : BitVec 5) : Statement (.hintCnt s t) := of_pre _ rfl rfl
theorem rangeDecl (s : BitVec 3) (d a : BitVec 5) : Statement (.rangeDecl s d a) := of_pre _ rfl rfl
theorem rangeBound (s : BitVec 3) (a b : BitVec 5) : Statement (.rangeBound s a b) := of_pre _ rfl rfl
theorem rangeDrain (s : BitVec 3) (a : BitVec 5) : Statement (.rangeDrain s a) := of_pre _ rfl rfl
theorem rangeFree (s : BitVec 3) (a : BitVec 5) : Statement (.rangeFree s a) := of_pre _ rfl rfl
theorem xferCopy (s : BitVec 3) (d a b : BitVec 5) : Statement (.xferCopy s d a b) := of_pre _ rfl rfl
theorem xferGather (s : BitVec 3) (d a b : BitVec 5) : Statement (.xferGather s d a b) := of_pre _ rfl rfl
theorem xferScatter (s : BitVec 3) (d a b : BitVec 5) : Statement (.xferScatter s d a b) := of_pre _ rfl rfl
theorem xferFill (s : BitVec 3) (d a b : BitVec 5) : Statement (.xferFill s d a b) := of_pre _ rfl rfl
theorem xferQcopy (s : BitVec 3) (d a b : BitVec 5) : Statement (.xferQcopy s d a b) := of_pre _ rfl rfl
theorem xferRgather (s : BitVec 3) (d a b : BitVec 5) : Statement (.xferRgather s d a b) := of_pre _ rfl rfl
theorem xwaitOne (s : BitVec 3) (a b : BitVec 5) : Statement (.xwaitOne s a b) := of_pre _ rfl rfl
theorem xwaitAll (s : BitVec 3) (b : BitVec 5) : Statement (.xwaitAll s b) := of_pre _ rfl rfl
theorem xwaitTest (s : BitVec 3) (d a b : BitVec 5) : Statement (.xwaitTest s d a b) := of_pre _ rfl rfl
theorem pageInvp (s : BitVec 3) (d a b : BitVec 5) : Statement (.pageInvp s d a b) := of_pre _ rfl rfl
theorem pageInvk (s : BitVec 3) (d b : BitVec 5) : Statement (.pageInvk s d b) := of_pre _ rfl rfl
theorem pageInva (s : BitVec 3) (d : BitVec 5) : Statement (.pageInva s d) := of_pre _ rfl rfl
theorem pageBias (s : BitVec 3) (d a b : BitVec 5) : Statement (.pageBias s d a b) := of_pre _ rfl rfl
theorem pageResume (s : BitVec 3) (d a b : BitVec 5) : Statement (.pageResume s d a b) := of_pre _ rfl rfl
theorem pageKret (s : BitVec 3) (d b : BitVec 5) : Statement (.pageKret s d b) := of_pre _ rfl rfl
theorem mlseAcq (s : BitVec 3) : Statement (.mlseAcq s) := of_pre _ rfl rfl
theorem mlseTry (s : BitVec 3) (d : BitVec 5) : Statement (.mlseTry s d) := of_pre _ rfl rfl
theorem mlseRel (s : BitVec 3) : Statement (.mlseRel s) := of_pre _ rfl rfl
theorem mlseJoin (s : BitVec 3) (d a : BitVec 5) : Statement (.mlseJoin s d a) := of_pre _ rfl rfl
theorem tdefSet (s : BitVec 3) (d a b : BitVec 5) : Statement (.tdefSet s d a b) := of_pre _ rfl rfl
theorem tdefGet (s : BitVec 3) (a b : BitVec 5) : Statement (.tdefGet s a b) := of_pre _ rfl rfl
theorem tdefClr (s : BitVec 3) (b : BitVec 5) : Statement (.tdefClr s b) := of_pre _ rfl rfl
theorem mmaNew (s : BitVec 3) (a : BitVec 5) (p : BitVec 1) : Statement (.mmaNew s a p) := of_pre _ rfl rfl
theorem mmaAcc (s : BitVec 3) (a : BitVec 5) (p : BitVec 1) : Statement (.mmaAcc s a p) := of_pre _ rfl rfl
theorem mmaqNew (s : BitVec 3) (a : BitVec 5) (p : BitVec 1) : Statement (.mmaqNew s a p) := of_pre _ rfl rfl
theorem mmaqAcc (s : BitVec 3) (a : BitVec 5) (p : BitVec 1) : Statement (.mmaqAcc s a p) := of_pre _ rfl rfl
theorem maccSt (s : BitVec 3) (a : BitVec 5) (x p : BitVec 1) : Statement (.maccSt s a x p) := of_pre _ rfl rfl
theorem maccDrain (s : BitVec 3) (a : BitVec 5) (x p : BitVec 1) : Statement (.maccDrain s a x p) := of_pre _ rfl rfl
theorem mgangForm (s : BitVec 3) (d a : BitVec 5) : Statement (.mgangForm s d a) := of_pre _ rfl rfl
theorem mgangDiss (s : BitVec 3) (d : BitVec 5) : Statement (.mgangDiss s d) := of_pre _ rfl rfl
theorem mstat (s : BitVec 3) (d : BitVec 5) : Statement (.mstat s d) := of_pre _ rfl rfl
theorem mstatWait (s : BitVec 3) (d : BitVec 5) : Statement (.mstatWait s d) := of_pre _ rfl rfl
theorem xexp (s : BitVec 3) (a : BitVec 5) (n : BitVec 1) (f : BitVec 2) (p : BitVec 1) : Statement (.xexp s a n f p) := of_pre _ rfl rfl
theorem mbar (s : BitVec 3) : Statement (.mbar s) := of_pre _ rfl rfl
theorem mhndSet (s : BitVec 3) (a b : BitVec 5) : Statement (.mhndSet s a b) := of_pre _ rfl rfl
theorem mhndClr (s : BitVec 3) : Statement (.mhndClr s) := of_pre _ rfl rfl
theorem mcfgGet (s : BitVec 3) (d : BitVec 5) : Statement (.mcfgGet s d) := of_pre _ rfl rfl
theorem mcfgRun (s : BitVec 3) (d a : BitVec 5) : Statement (.mcfgRun s d a) := of_pre _ rfl rfl
theorem ctxNew (s : BitVec 3) (d a : BitVec 5) : Statement (.ctxNew s d a) := of_pre _ rfl rfl
theorem ctxFork (s : BitVec 3) (d a : BitVec 5) : Statement (.ctxFork s d a) := of_pre _ rfl rfl
theorem ctxFree (s : BitVec 3) (a : BitVec 5) : Statement (.ctxFree s a) := of_pre _ rfl rfl
theorem ctxInfo (s : BitVec 3) (d a : BitVec 5) : Statement (.ctxInfo s d a) := of_pre _ rfl rfl
theorem editIns (s : BitVec 3) (d a b : BitVec 5) : Statement (.editIns s d a b) := of_pre _ rfl rfl
theorem editDel (s : BitVec 3) (d a : BitVec 5) : Statement (.editDel s d a) := of_pre _ rfl rfl
theorem editRep (s : BitVec 3) (d a b : BitVec 5) : Statement (.editRep s d a b) := of_pre _ rfl rfl
theorem walk (s : BitVec 3) (d a : BitVec 5) : Statement (.walk s d a) := of_pre _ rfl rfl
theorem dmapGet (s : BitVec 3) (d a : BitVec 5) : Statement (.dmapGet s d a) := of_pre _ rfl rfl
theorem dmapThr (s : BitVec 3) (a b : BitVec 5) : Statement (.dmapThr s a b) := of_pre _ rfl rfl
theorem dmapCnt (s : BitVec 3) (d a : BitVec 5) : Statement (.dmapCnt s d a) := of_pre _ rfl rfl
theorem settle (s : BitVec 3) (a b : BitVec 5) : Statement (.settle s a b) := of_pre _ rfl rfl
theorem settleTry (s : BitVec 3) (d a b : BitVec 5) : Statement (.settleTry s d a b) := of_pre _ rfl rfl
theorem vldwSnap (s : BitVec 3) (d a b : BitVec 5) (y : BitVec 1) : Statement (.vldwSnap s d a b y) := of_pre _ rfl rfl
theorem vldwCur (s : BitVec 3) (d a b : BitVec 5) (y : BitVec 1) : Statement (.vldwCur s d a b y) := of_pre _ rfl rfl
theorem vldwSettled (s : BitVec 3) (d a b : BitVec 5) (y : BitVec 1) : Statement (.vldwSettled s d a b y) := of_pre _ rfl rfl
theorem vstw (s : BitVec 3) (d a : BitVec 5) (y : BitVec 1) : Statement (.vstw s d a y) := of_pre _ rfl rfl
theorem waveBind (s : BitVec 3) (d a b : BitVec 5) : Statement (.waveBind s d a b) := of_pre _ rfl rfl
theorem waveNext (s : BitVec 3) (d a b : BitVec 5) : Statement (.waveNext s d a b) := of_pre _ rfl rfl
theorem delta (s : BitVec 3) (d : BitVec 5) : Statement (.delta s d) := of_pre _ rfl rfl
theorem kvapPool (s : BitVec 3) (d a b : BitVec 5) : Statement (.kvapPool s d a b) := of_pre _ rfl rfl
theorem kvapApp (s : BitVec 3) (d a b : BitVec 5) : Statement (.kvapApp s d a b) := of_pre _ rfl rfl
theorem send (s : BitVec 3) (d a b : BitVec 5) (c : BitVec 4) : Statement (.send s d a b c) := of_pre _ rfl rfl
theorem sendB (s : BitVec 3) (d a b : BitVec 5) (c : BitVec 4) : Statement (.sendB s d a b c) := of_pre _ rfl rfl
theorem hop (s : BitVec 3) (a b : BitVec 5) : Statement (.hop s a b) := of_pre _ rfl rfl
theorem fork (s : BitVec 3) (d a b : BitVec 5) (x : BitVec 3) (c : BitVec 4) : Statement (.fork s d a b x c) := of_pre _ rfl rfl
theorem join (s : BitVec 3) (d a b : BitVec 5) : Statement (.join s d a b) := of_pre _ rfl rfl
theorem task (s : BitVec 3) (d a b : BitVec 5) (c : BitVec 4) : Statement (.task s d a b c) := of_pre _ rfl rfl
theorem wait (s : BitVec 3) (d a : BitVec 5) : Statement (.wait s d a) := of_pre _ rfl rfl
theorem barInit (s : BitVec 3) (d a b : BitVec 5) : Statement (.barInit s d a b) := of_pre _ rfl rfl
theorem barArr (s : BitVec 3) (d a : BitVec 5) : Statement (.barArr s d a) := of_pre _ rfl rfl
theorem barWait (s : BitVec 3) (d a b : BitVec 5) : Statement (.barWait s d a b) := of_pre _ rfl rfl
theorem barSync (s : BitVec 3) (d a : BitVec 5) : Statement (.barSync s d a) := of_pre _ rfl rfl
theorem launch (s : BitVec 3) (d a b : BitVec 5) (c : BitVec 4) : Statement (.launch s d a b c) := of_pre _ rfl rfl
theorem launchAt (s : BitVec 3) (d a b : BitVec 5) (c : BitVec 4) : Statement (.launchAt s d a b c) := of_pre _ rfl rfl
theorem steal (s : BitVec 3) (d a : BitVec 5) : Statement (.steal s d a) := of_pre _ rfl rfl
theorem rsrvPin (s : BitVec 3) (d a b : BitVec 5) : Statement (.rsrvPin s d a b) := of_pre _ rfl rfl
theorem rsrvUnpin (s : BitVec 3) (d a b : BitVec 5) : Statement (.rsrvUnpin s d a b) := of_pre _ rfl rfl
theorem rsrvPut (s : BitVec 3) (d a b : BitVec 5) (c : BitVec 4) : Statement (.rsrvPut s d a b c) := of_pre _ rfl rfl
theorem ordqVt (s : BitVec 3) (d : BitVec 5) : Statement (.ordqVt s d) := of_pre _ rfl rfl
theorem ordqLen (s : BitVec 3) (d : BitVec 5) : Statement (.ordqLen s d) := of_pre _ rfl rfl
theorem ordqHead (s : BitVec 3) (d : BitVec 5) : Statement (.ordqHead s d) := of_pre _ rfl rfl
theorem ordqSpec (s : BitVec 3) (d : BitVec 5) : Statement (.ordqSpec s d) := of_pre _ rfl rfl
theorem ordqRset (s : BitVec 3) (d : BitVec 5) : Statement (.ordqRset s d) := of_pre _ rfl rfl
theorem pri (s : BitVec 3) (d a : BitVec 5) : Statement (.pri s d a) := of_pre _ rfl rfl
theorem hostInboxWrite (die off : Nat) (data : List Byte) : Statement (.hostInboxWrite die off data) := of_pre _ rfl rfl
theorem inboxScanDelivery (die : Nat) : Statement (.inboxScanDelivery die) := of_pre _ rfl rfl
theorem activationStart (core : Nat) : Statement (.activationStart core) := of_pre _ rfl rfl
theorem resultArrival (site : Nat) : Statement (.resultArrival site) := of_pre _ rfl rfl
theorem longSlotGrant (quad : Nat) : Statement (.longSlotGrant quad) := of_pre _ rfl rfl
theorem preEmptionRequest (core : Nat) : Statement (.preEmptionRequest core) := of_pre _ rfl rfl
theorem preEmptionHalt (site : Nat) : Statement (.preEmptionHalt site) := of_pre _ rfl rfl
theorem imageComplete (site : Nat) : Statement (.imageComplete site) := of_pre _ rfl rfl
theorem imageRestore (site : Nat) : Statement (.imageRestore site) := of_pre _ rfl rfl
theorem monitorRecheck (site : Nat) : Statement (.monitorRecheck site) := of_pre _ rfl rfl
theorem coarseRecheck (site : Nat) : Statement (.coarseRecheck site) := of_pre _ rfl rfl
theorem waitTimeout (site : Nat) : Statement (.waitTimeout site) := of_pre _ rfl rfl
theorem gvtPublication : Statement (.gvtPublication) := of_pre _ rfl rfl
theorem versionCommit (die bid layer part : Nat) : Statement (.versionCommit die bid layer part) := of_pre _ rfl rfl
theorem taskAbort (site : Nat) : Statement (.taskAbort site) := of_pre _ rfl rfl
theorem wavetaskDispatch (die : Nat) : Statement (.wavetaskDispatch die) := of_pre _ rfl rfl
theorem admissionTokenGrant (cluster : Nat) : Statement (.admissionTokenGrant cluster) := of_pre _ rfl rfl
theorem timedLaunchDelivery : Statement (.timedLaunchDelivery) := of_pre _ rfl rfl
theorem arrayStartGrant (die : Nat) : Statement (.arrayStartGrant die) := of_pre _ rfl rfl
theorem alarmRaise (die : Nat) : Statement (.alarmRaise die) := of_pre _ rfl rfl
theorem alarmClear (die : Nat) : Statement (.alarmClear die) := of_pre _ rfl rfl
theorem reduceMessage (core : Nat) : Statement (.reduceMessage core) := of_pre _ rfl rfl
theorem amoExecute (core : Nat) : Statement (.amoExecute core) := of_pre _ rfl rfl
theorem linkMessageArrival (words : List Word) : Statement (.linkMessageArrival words) := of_pre _ rfl rfl
theorem portDown (port : Nat) (lost : List Nat) : Statement (.portDown port lost) := of_pre _ rfl rfl
theorem hostMemRequest (write poison : Bool) (dpa : Nat) (data : List Byte) : Statement (.hostMemRequest write poison dpa data) := of_pre _ rfl rfl
theorem extentRelease (first count : Nat) : Statement (.extentRelease first count) := of_pre _ rfl rfl
theorem extentReleaseTimeout (first count : Nat) (lost : List Nat) : Statement (.extentReleaseTimeout first count lost) := of_pre _ rfl rfl
theorem writeBack (line : Nat) : Statement (.writeBack line) := of_pre _ rfl rfl
theorem forwardedRequest (line core : Nat) (write : Bool) : Statement (.forwardedRequest line core write) := of_pre _ rfl rfl
theorem leaseRenewal (line core : Nat) : Statement (.leaseRenewal line core) := of_pre _ rfl rfl
theorem reservationGrant (line : Nat) : Statement (.reservationGrant line) := of_pre _ rfl rfl
theorem rangeJoinMessage (line core : Nat) : Statement (.rangeJoinMessage line core) := of_pre _ rfl rfl
theorem drainArrival (line core : Nat) : Statement (.drainArrival line core) := of_pre _ rfl rfl
theorem budgetMessage (line core : Nat) : Statement (.budgetMessage line core) := of_pre _ rfl rfl
theorem budgetAck (line core : Nat) : Statement (.budgetAck line core) := of_pre _ rfl rfl
theorem forcedDrainRequest (line core : Nat) : Statement (.forcedDrainRequest line core) := of_pre _ rfl rfl
theorem drainAck (line core : Nat) : Statement (.drainAck line core) := of_pre _ rfl rfl
theorem pantrySwitchEnd (cluster shelf : Nat) : Statement (.pantrySwitchEnd cluster shelf) := of_pre _ rfl rfl
theorem trackingPeriodEnd (die : Nat) : Statement (.trackingPeriodEnd die) := of_pre _ rfl rfl
theorem crateMoveComplete (crate : Nat) : Statement (.crateMoveComplete crate) := of_pre _ rfl rfl
theorem transferCompletion (id : Nat) : Statement (.transferCompletion id) := of_pre _ rfl rfl
theorem faultWindowClose (die : Nat) : Statement (.faultWindowClose die) := of_pre _ rfl rfl
theorem faultListReadyClear (die : Nat) : Statement (.faultListReadyClear die) := of_pre _ rfl rfl
theorem kgroupComplete (cluster : Nat) : Statement (.kgroupComplete cluster) := of_pre _ rfl rfl
theorem matrixCommandComplete (cluster : Nat) : Statement (.matrixCommandComplete cluster) := of_pre _ rfl rfl
theorem rowStage (cluster : Nat) : Statement (.rowStage cluster) := of_pre _ rfl rfl
theorem rowCommit (cluster : Nat) : Statement (.rowCommit cluster) := of_pre _ rfl rfl
theorem leaseHandoff (cluster : Nat) : Statement (.leaseHandoff cluster) := of_pre _ rfl rfl
theorem stopGo (die : Nat) (value : Word) : Statement (.stopGo die value) := of_pre _ rfl rfl
theorem stopResume (die : Nat) : Statement (.stopResume die) := of_pre _ rfl rfl
theorem stopLanded (die : Nat) : Statement (.stopLanded die) := of_pre _ rfl rfl
theorem stoplimExpiry (die : Nat) : Statement (.stoplimExpiry die) := of_pre _ rfl rfl
theorem checkpoint : Statement (.checkpoint) := of_pre _ rfl rfl
theorem endrec : Statement (.endrec) := of_pre _ rfl rfl
theorem replay : Statement (.replay) := of_pre _ rfl rfl
theorem abort : Statement (.abort) := of_pre _ rfl rfl
theorem kernelInstanceEnd (index : Nat) : Statement (.kernelInstanceEnd index) := of_pre _ rfl rfl
theorem publishGo (die : Nat) : Statement (.publishGo die) := of_pre _ rfl rfl
theorem publishComplete (die : Nat) : Statement (.publishComplete die) := of_pre _ rfl rfl
theorem keyLoad (die : Nat) (value : Word) : Statement (.keyLoad die value) := of_pre _ rfl rfl
theorem attestation (die : Nat) : Statement (.attestation die) := of_pre _ rfl rfl
theorem warmReset : Statement (.warmReset) := of_pre _ rfl rfl
theorem coldReset : Statement (.coldReset) := of_pre _ rfl rfl
theorem telemetryRecord (die : Nat) : Statement (.telemetryRecord die) := of_pre _ rfl rfl
theorem registerWrite (die off : Nat) (value : Word) : Statement (.registerWrite die off value) := of_pre _ rfl rfl
theorem illegalOpcode (cause : Byte) (value : Word) : Statement (.illegalOpcode cause value) := of_pre _ rfl rfl
theorem stallCountSpent (site : Nat) : Statement (.stallCountSpent site) := of_pre _ rfl rfl

end Sys2Proof.Laws.Length
end

