-- ==== Sys2Proof/Laws/State.lean ====
section
/-! SUPPORT. The state's updates, field by field: one lemma per field per update, true by unfolding, so that no proof unfolds a record update. -/
namespace Sys2Proof.Machine.State
open Sys2Proof

/-! ## setCtx -/

@[simp] theorem setCtx_site (s : State) (c : Ctx) : (s.setCtx c).site = s.site := rfl
@[simp] theorem setCtx_ctx (s : State) (c : Ctx) : (s.setCtx c).ctx = c := rfl
@[simp] theorem setCtx_parked (s : State) (c : Ctx) : (s.setCtx c).parked = s.parked := rfl
@[simp] theorem setCtx_cores (s : State) (c : Ctx) : (s.setCtx c).cores = s.cores := rfl
@[simp] theorem setCtx_clus (s : State) (c : Ctx) : (s.setCtx c).clus = s.clus := rfl
@[simp] theorem setCtx_dies (s : State) (c : Ctx) : (s.setCtx c).dies = s.dies := rfl
@[simp] theorem setCtx_pkg (s : State) (c : Ctx) : (s.setCtx c).pkg = s.pkg := rfl
@[simp] theorem setCtx_mem (s : State) (c : Ctx) : (s.setCtx c).mem = s.mem := rfl
@[simp] theorem setCtx_cycle (s : State) (c : Ctx) : (s.setCtx c).cycle = s.cycle := rfl
@[simp] theorem setCtx_free (s : State) (c : Ctx) : (s.setCtx c).free = s.free := rfl
@[simp] theorem setCtx_plan (s : State) (c : Ctx) : (s.setCtx c).plan = s.plan := rfl

/-! ## modPkg -/

@[simp] theorem modPkg_site (s : State) (f : Pkg → Pkg) : (s.modPkg f).site = s.site := rfl
@[simp] theorem modPkg_ctx (s : State) (f : Pkg → Pkg) : (s.modPkg f).ctx = s.ctx := rfl
@[simp] theorem modPkg_parked (s : State) (f : Pkg → Pkg) : (s.modPkg f).parked = s.parked := rfl
@[simp] theorem modPkg_cores (s : State) (f : Pkg → Pkg) : (s.modPkg f).cores = s.cores := rfl
@[simp] theorem modPkg_clus (s : State) (f : Pkg → Pkg) : (s.modPkg f).clus = s.clus := rfl
@[simp] theorem modPkg_dies (s : State) (f : Pkg → Pkg) : (s.modPkg f).dies = s.dies := rfl
@[simp] theorem modPkg_pkg (s : State) (f : Pkg → Pkg) : (s.modPkg f).pkg = f s.pkg := rfl
@[simp] theorem modPkg_mem (s : State) (f : Pkg → Pkg) : (s.modPkg f).mem = s.mem := rfl
@[simp] theorem modPkg_cycle (s : State) (f : Pkg → Pkg) : (s.modPkg f).cycle = s.cycle := rfl
@[simp] theorem modPkg_free (s : State) (f : Pkg → Pkg) : (s.modPkg f).free = s.free := rfl
@[simp] theorem modPkg_plan (s : State) (f : Pkg → Pkg) : (s.modPkg f).plan = s.plan := rfl

/-! ## setCore -/

@[simp] theorem setCore_site (s : State) (i : Nat) (x : Core) : (s.setCore i x).site = s.site := rfl
@[simp] theorem setCore_ctx (s : State) (i : Nat) (x : Core) : (s.setCore i x).ctx = s.ctx := rfl
@[simp] theorem setCore_parked (s : State) (i : Nat) (x : Core) : (s.setCore i x).parked = s.parked := rfl
@[simp] theorem setCore_cores (s : State) (i : Nat) (x : Core) : (s.setCore i x).cores = SMap.set {} s.cores i x := rfl
@[simp] theorem setCore_clus (s : State) (i : Nat) (x : Core) : (s.setCore i x).clus = s.clus := rfl
@[simp] theorem setCore_dies (s : State) (i : Nat) (x : Core) : (s.setCore i x).dies = s.dies := rfl
@[simp] theorem setCore_pkg (s : State) (i : Nat) (x : Core) : (s.setCore i x).pkg = s.pkg := rfl
@[simp] theorem setCore_mem (s : State) (i : Nat) (x : Core) : (s.setCore i x).mem = s.mem := rfl
@[simp] theorem setCore_cycle (s : State) (i : Nat) (x : Core) : (s.setCore i x).cycle = s.cycle := rfl
@[simp] theorem setCore_free (s : State) (i : Nat) (x : Core) : (s.setCore i x).free = s.free := rfl
@[simp] theorem setCore_plan (s : State) (i : Nat) (x : Core) : (s.setCore i x).plan = s.plan := rfl

/-! ## setClu -/

@[simp] theorem setClu_site (s : State) (i : Nat) (x : Cluster) : (s.setClu i x).site = s.site := rfl
@[simp] theorem setClu_ctx (s : State) (i : Nat) (x : Cluster) : (s.setClu i x).ctx = s.ctx := rfl
@[simp] theorem setClu_parked (s : State) (i : Nat) (x : Cluster) : (s.setClu i x).parked = s.parked := rfl
@[simp] theorem setClu_cores (s : State) (i : Nat) (x : Cluster) : (s.setClu i x).cores = s.cores := rfl
@[simp] theorem setClu_clus (s : State) (i : Nat) (x : Cluster) : (s.setClu i x).clus = SMap.set {} s.clus i x := rfl
@[simp] theorem setClu_dies (s : State) (i : Nat) (x : Cluster) : (s.setClu i x).dies = s.dies := rfl
@[simp] theorem setClu_pkg (s : State) (i : Nat) (x : Cluster) : (s.setClu i x).pkg = s.pkg := rfl
@[simp] theorem setClu_mem (s : State) (i : Nat) (x : Cluster) : (s.setClu i x).mem = s.mem := rfl
@[simp] theorem setClu_cycle (s : State) (i : Nat) (x : Cluster) : (s.setClu i x).cycle = s.cycle := rfl
@[simp] theorem setClu_free (s : State) (i : Nat) (x : Cluster) : (s.setClu i x).free = s.free := rfl
@[simp] theorem setClu_plan (s : State) (i : Nat) (x : Cluster) : (s.setClu i x).plan = s.plan := rfl

/-! ## setDie -/

@[simp] theorem setDie_site (s : State) (i : Nat) (x : Die) : (s.setDie i x).site = s.site := rfl
@[simp] theorem setDie_ctx (s : State) (i : Nat) (x : Die) : (s.setDie i x).ctx = s.ctx := rfl
@[simp] theorem setDie_parked (s : State) (i : Nat) (x : Die) : (s.setDie i x).parked = s.parked := rfl
@[simp] theorem setDie_cores (s : State) (i : Nat) (x : Die) : (s.setDie i x).cores = s.cores := rfl
@[simp] theorem setDie_clus (s : State) (i : Nat) (x : Die) : (s.setDie i x).clus = s.clus := rfl
@[simp] theorem setDie_dies (s : State) (i : Nat) (x : Die) : (s.setDie i x).dies = SMap.set {} s.dies i x := rfl
@[simp] theorem setDie_pkg (s : State) (i : Nat) (x : Die) : (s.setDie i x).pkg = s.pkg := rfl
@[simp] theorem setDie_mem (s : State) (i : Nat) (x : Die) : (s.setDie i x).mem = s.mem := rfl
@[simp] theorem setDie_cycle (s : State) (i : Nat) (x : Die) : (s.setDie i x).cycle = s.cycle := rfl
@[simp] theorem setDie_free (s : State) (i : Nat) (x : Die) : (s.setDie i x).free = s.free := rfl
@[simp] theorem setDie_plan (s : State) (i : Nat) (x : Die) : (s.setDie i x).plan = s.plan := rfl

/-! ## modCore -/

@[simp] theorem modCore_site (s : State) (i : Nat) (f : Core → Core) : (s.modCore i f).site = s.site := rfl
@[simp] theorem modCore_ctx (s : State) (i : Nat) (f : Core → Core) : (s.modCore i f).ctx = s.ctx := rfl
@[simp] theorem modCore_parked (s : State) (i : Nat) (f : Core → Core) : (s.modCore i f).parked = s.parked := rfl
@[simp] theorem modCore_cores (s : State) (i : Nat) (f : Core → Core) : (s.modCore i f).cores = SMap.set {} s.cores i (f (s.coreAt i)) := rfl
@[simp] theorem modCore_clus (s : State) (i : Nat) (f : Core → Core) : (s.modCore i f).clus = s.clus := rfl
@[simp] theorem modCore_dies (s : State) (i : Nat) (f : Core → Core) : (s.modCore i f).dies = s.dies := rfl
@[simp] theorem modCore_pkg (s : State) (i : Nat) (f : Core → Core) : (s.modCore i f).pkg = s.pkg := rfl
@[simp] theorem modCore_mem (s : State) (i : Nat) (f : Core → Core) : (s.modCore i f).mem = s.mem := rfl
@[simp] theorem modCore_cycle (s : State) (i : Nat) (f : Core → Core) : (s.modCore i f).cycle = s.cycle := rfl
@[simp] theorem modCore_free (s : State) (i : Nat) (f : Core → Core) : (s.modCore i f).free = s.free := rfl
@[simp] theorem modCore_plan (s : State) (i : Nat) (f : Core → Core) : (s.modCore i f).plan = s.plan := rfl

/-! ## modClu -/

@[simp] theorem modClu_site (s : State) (i : Nat) (f : Cluster → Cluster) : (s.modClu i f).site = s.site := rfl
@[simp] theorem modClu_ctx (s : State) (i : Nat) (f : Cluster → Cluster) : (s.modClu i f).ctx = s.ctx := rfl
@[simp] theorem modClu_parked (s : State) (i : Nat) (f : Cluster → Cluster) : (s.modClu i f).parked = s.parked := rfl
@[simp] theorem modClu_cores (s : State) (i : Nat) (f : Cluster → Cluster) : (s.modClu i f).cores = s.cores := rfl
@[simp] theorem modClu_clus (s : State) (i : Nat) (f : Cluster → Cluster) : (s.modClu i f).clus = SMap.set {} s.clus i (f (s.cluAt i)) := rfl
@[simp] theorem modClu_dies (s : State) (i : Nat) (f : Cluster → Cluster) : (s.modClu i f).dies = s.dies := rfl
@[simp] theorem modClu_pkg (s : State) (i : Nat) (f : Cluster → Cluster) : (s.modClu i f).pkg = s.pkg := rfl
@[simp] theorem modClu_mem (s : State) (i : Nat) (f : Cluster → Cluster) : (s.modClu i f).mem = s.mem := rfl
@[simp] theorem modClu_cycle (s : State) (i : Nat) (f : Cluster → Cluster) : (s.modClu i f).cycle = s.cycle := rfl
@[simp] theorem modClu_free (s : State) (i : Nat) (f : Cluster → Cluster) : (s.modClu i f).free = s.free := rfl
@[simp] theorem modClu_plan (s : State) (i : Nat) (f : Cluster → Cluster) : (s.modClu i f).plan = s.plan := rfl

/-! ## modDie -/

@[simp] theorem modDie_site (s : State) (i : Nat) (f : Die → Die) : (s.modDie i f).site = s.site := rfl
@[simp] theorem modDie_ctx (s : State) (i : Nat) (f : Die → Die) : (s.modDie i f).ctx = s.ctx := rfl
@[simp] theorem modDie_parked (s : State) (i : Nat) (f : Die → Die) : (s.modDie i f).parked = s.parked := rfl
@[simp] theorem modDie_cores (s : State) (i : Nat) (f : Die → Die) : (s.modDie i f).cores = s.cores := rfl
@[simp] theorem modDie_clus (s : State) (i : Nat) (f : Die → Die) : (s.modDie i f).clus = s.clus := rfl
@[simp] theorem modDie_dies (s : State) (i : Nat) (f : Die → Die) : (s.modDie i f).dies = SMap.set {} s.dies i (f (s.dieAt i)) := rfl
@[simp] theorem modDie_pkg (s : State) (i : Nat) (f : Die → Die) : (s.modDie i f).pkg = s.pkg := rfl
@[simp] theorem modDie_mem (s : State) (i : Nat) (f : Die → Die) : (s.modDie i f).mem = s.mem := rfl
@[simp] theorem modDie_cycle (s : State) (i : Nat) (f : Die → Die) : (s.modDie i f).cycle = s.cycle := rfl
@[simp] theorem modDie_free (s : State) (i : Nat) (f : Die → Die) : (s.modDie i f).free = s.free := rfl
@[simp] theorem modDie_plan (s : State) (i : Nat) (f : Die → Die) : (s.modDie i f).plan = s.plan := rfl

/-! ## spend -/

@[simp] theorem spend_site (s : State) : (s.spend).site = s.site := rfl
@[simp] theorem spend_ctx (s : State) : (s.spend).ctx = s.ctx := rfl
@[simp] theorem spend_parked (s : State) : (s.spend).parked = s.parked := rfl
@[simp] theorem spend_cores (s : State) : (s.spend).cores = s.cores := rfl
@[simp] theorem spend_clus (s : State) : (s.spend).clus = s.clus := rfl
@[simp] theorem spend_dies (s : State) : (s.spend).dies = s.dies := rfl
@[simp] theorem spend_pkg (s : State) : (s.spend).pkg = s.pkg := rfl
@[simp] theorem spend_mem (s : State) : (s.spend).mem = s.mem := rfl
@[simp] theorem spend_cycle (s : State) : (s.spend).cycle = s.cycle + 1 + s.plan.delays.headD 0 := rfl
@[simp] theorem spend_free (s : State) : (s.spend).free = s.free + 65536 := rfl
@[simp] theorem spend_plan (s : State) : (s.spend).plan = { s.plan with delays := s.plan.delays.tail } := rfl

/-! ## setWait -/

@[simp] theorem setWait_site (s : State) (w : Wait) : (s.setWait w).site = s.site := rfl
@[simp] theorem setWait_ctx (s : State) (w : Wait) : (s.setWait w).ctx = { s.ctx with wait := some { w with short := false, reads := some (w.reads.getD (s.cycle, s.free)) } } := rfl
@[simp] theorem setWait_parked (s : State) (w : Wait) : (s.setWait w).parked = s.parked := rfl
@[simp] theorem setWait_cores (s : State) (w : Wait) : (s.setWait w).cores = s.cores := rfl
@[simp] theorem setWait_clus (s : State) (w : Wait) : (s.setWait w).clus = s.clus := rfl
@[simp] theorem setWait_dies (s : State) (w : Wait) : (s.setWait w).dies = s.dies := rfl
@[simp] theorem setWait_pkg (s : State) (w : Wait) : (s.setWait w).pkg = s.pkg := rfl
@[simp] theorem setWait_mem (s : State) (w : Wait) : (s.setWait w).mem = s.mem := rfl
@[simp] theorem setWait_cycle (s : State) (w : Wait) : (s.setWait w).cycle = s.cycle := rfl
@[simp] theorem setWait_free (s : State) (w : Wait) : (s.setWait w).free = s.free := rfl
@[simp] theorem setWait_plan (s : State) (w : Wait) : (s.setWait w).plan = s.plan := rfl

/-! ## await -/

@[simp] theorem await_site (s : State) : (s.await).site = s.site := rfl
@[simp] theorem await_ctx (s : State) : (s.await).ctx = { s.ctx with st := .waiting } := rfl
@[simp] theorem await_parked (s : State) : (s.await).parked = s.parked := rfl
@[simp] theorem await_cores (s : State) : (s.await).cores = s.cores := rfl
@[simp] theorem await_clus (s : State) : (s.await).clus = s.clus := rfl
@[simp] theorem await_dies (s : State) : (s.await).dies = s.dies := rfl
@[simp] theorem await_pkg (s : State) : (s.await).pkg = s.pkg := rfl
@[simp] theorem await_mem (s : State) : (s.await).mem = s.mem := rfl
@[simp] theorem await_cycle (s : State) : (s.await).cycle = s.cycle + 1 + s.plan.delays.headD 0 := rfl
@[simp] theorem await_free (s : State) : (s.await).free = s.free + 65536 := rfl
@[simp] theorem await_plan (s : State) : (s.await).plan = { s.plan with delays := s.plan.delays.tail } := rfl

/-! ## raise -/

@[simp] theorem raise_site (s : State) (e : Flags) : (s.raise e).site = s.site := rfl
@[simp] theorem raise_ctx (s : State) (e : Flags) : (s.raise e).ctx = { s.ctx with fpflags := s.ctx.fpflags ||| e } := rfl
@[simp] theorem raise_parked (s : State) (e : Flags) : (s.raise e).parked = s.parked := rfl
@[simp] theorem raise_cores (s : State) (e : Flags) : (s.raise e).cores = s.cores := rfl
@[simp] theorem raise_clus (s : State) (e : Flags) : (s.raise e).clus = s.clus := rfl
@[simp] theorem raise_dies (s : State) (e : Flags) : (s.raise e).dies = s.dies := rfl
@[simp] theorem raise_pkg (s : State) (e : Flags) : (s.raise e).pkg = s.pkg := rfl
@[simp] theorem raise_mem (s : State) (e : Flags) : (s.raise e).mem = s.mem := rfl
@[simp] theorem raise_cycle (s : State) (e : Flags) : (s.raise e).cycle = s.cycle := rfl
@[simp] theorem raise_free (s : State) (e : Flags) : (s.raise e).free = s.free := rfl
@[simp] theorem raise_plan (s : State) (e : Flags) : (s.raise e).plan = s.plan := rfl

/-! ## complete -/

@[simp] theorem complete_site (s : State) : (s.complete).site = s.site := rfl
@[simp] theorem complete_ctx (s : State) : (s.complete).ctx = { s.ctx with pend := [] } := rfl
@[simp] theorem complete_parked (s : State) : (s.complete).parked = s.parked := rfl
@[simp] theorem complete_cores (s : State) : (s.complete).cores = s.cores := rfl
@[simp] theorem complete_clus (s : State) : (s.complete).clus = s.clus := rfl
@[simp] theorem complete_dies (s : State) : (s.complete).dies = s.dies := rfl
@[simp] theorem complete_pkg (s : State) : (s.complete).pkg = s.pkg := rfl
@[simp] theorem complete_mem (s : State) : (s.complete).mem = s.mem := rfl
@[simp] theorem complete_cycle (s : State) : (s.complete).cycle = s.cycle := rfl
@[simp] theorem complete_free (s : State) : (s.complete).free = s.free := rfl
@[simp] theorem complete_plan (s : State) : (s.complete).plan = s.plan := rfl

/-! ## retire -/

@[simp] theorem retire_site (s : State) (rep : Bool) (stl : BitVec 3) (pc : BitVec 56) : (s.retire rep stl pc).site = s.site := rfl
@[simp] theorem retire_parked (s : State) (rep : Bool) (stl : BitVec 3) (pc : BitVec 56) : (s.retire rep stl pc).parked = s.parked := rfl
@[simp] theorem retire_cores (s : State) (rep : Bool) (stl : BitVec 3) (pc : BitVec 56) : (s.retire rep stl pc).cores = s.cores := rfl
@[simp] theorem retire_clus (s : State) (rep : Bool) (stl : BitVec 3) (pc : BitVec 56) : (s.retire rep stl pc).clus = s.clus := rfl
@[simp] theorem retire_dies (s : State) (rep : Bool) (stl : BitVec 3) (pc : BitVec 56) : (s.retire rep stl pc).dies = s.dies := rfl
@[simp] theorem retire_pkg (s : State) (rep : Bool) (stl : BitVec 3) (pc : BitVec 56) : (s.retire rep stl pc).pkg = s.pkg := rfl
@[simp] theorem retire_mem (s : State) (rep : Bool) (stl : BitVec 3) (pc : BitVec 56) : (s.retire rep stl pc).mem = s.mem := rfl
@[simp] theorem retire_cycle (s : State) (rep : Bool) (stl : BitVec 3) (pc : BitVec 56) : (s.retire rep stl pc).cycle = s.cycle + 1 + s.plan.delays.headD 0 := rfl
@[simp] theorem retire_free (s : State) (rep : Bool) (stl : BitVec 3) (pc : BitVec 56) : (s.retire rep stl pc).free = s.free + 65536 := rfl
@[simp] theorem retire_plan (s : State) (rep : Bool) (stl : BitVec 3) (pc : BitVec 56) : (s.retire rep stl pc).plan = { s.plan with delays := s.plan.delays.tail } := rfl
@[simp] theorem nextInFrame_g (c : Ctx) (pc : BitVec 56) : (nextInFrame c pc).g = c.g := by unfold nextInFrame; dsimp only; (repeat' split) <;> rfl
@[simp] theorem nextInFrame_v (c : Ctx) (pc : BitVec 56) : (nextInFrame c pc).v = c.v := by unfold nextInFrame; dsimp only; (repeat' split) <;> rfl
@[simp] theorem nextInFrame_w (c : Ctx) (pc : BitVec 56) : (nextInFrame c pc).w = c.w := by unfold nextInFrame; dsimp only; (repeat' split) <;> rfl
@[simp] theorem nextInFrame_k (c : Ctx) (pc : BitVec 56) : (nextInFrame c pc).k = c.k := by unfold nextInFrame; dsimp only; (repeat' split) <;> rfl
@[simp] theorem nextInFrame_tag (c : Ctx) (pc : BitVec 56) : (nextInFrame c pc).tag = c.tag := by unfold nextInFrame; dsimp only; (repeat' split) <;> rfl
@[simp] theorem nextInFrame_src (c : Ctx) (pc : BitVec 56) : (nextInFrame c pc).src = c.src := by unfold nextInFrame; dsimp only; (repeat' split) <;> rfl
@[simp] theorem nextInFrame_ord (c : Ctx) (pc : BitVec 56) : (nextInFrame c pc).ord = c.ord := by unfold nextInFrame; dsimp only; (repeat' split) <;> rfl
@[simp] theorem nextInFrame_trapvec (c : Ctx) (pc : BitVec 56) : (nextInFrame c pc).trapvec = c.trapvec := by unfold nextInFrame; dsimp only; (repeat' split) <;> rfl
@[simp] theorem nextInFrame_inh (c : Ctx) (pc : BitVec 56) : (nextInFrame c pc).inh = c.inh := by unfold nextInFrame; dsimp only; (repeat' split) <;> rfl
@[simp] theorem nextInFrame_cause (c : Ctx) (pc : BitVec 56) : (nextInFrame c pc).cause = c.cause := by unfold nextInFrame; dsimp only; (repeat' split) <;> rfl
@[simp] theorem nextInFrame_trappc (c : Ctx) (pc : BitVec 56) : (nextInFrame c pc).trappc = c.trappc := by unfold nextInFrame; dsimp only; (repeat' split) <;> rfl
@[simp] theorem nextInFrame_trapval (c : Ctx) (pc : BitVec 56) : (nextInFrame c pc).trapval = c.trapval := by unfold nextInFrame; dsimp only; (repeat' split) <;> rfl
@[simp] theorem nextInFrame_trapsave (c : Ctx) (pc : BitVec 56) : (nextInFrame c pc).trapsave = c.trapsave := by unfold nextInFrame; dsimp only; (repeat' split) <;> rfl
@[simp] theorem nextInFrame_fpflags (c : Ctx) (pc : BitVec 56) : (nextInFrame c pc).fpflags = c.fpflags := by unfold nextInFrame; dsimp only; (repeat' split) <;> rfl
@[simp] theorem nextInFrame_chksb (c : Ctx) (pc : BitVec 56) : (nextInFrame c pc).chksb = c.chksb := by unfold nextInFrame; dsimp only; (repeat' split) <;> rfl
@[simp] theorem nextInFrame_long (c : Ctx) (pc : BitVec 56) : (nextInFrame c pc).long = c.long := by unfold nextInFrame; dsimp only; (repeat' split) <;> rfl
@[simp] theorem nextInFrame_slot (c : Ctx) (pc : BitVec 56) : (nextInFrame c pc).slot = c.slot := by unfold nextInFrame; dsimp only; (repeat' split) <;> rfl
@[simp] theorem nextInFrame_frmbase (c : Ctx) (pc : BitVec 56) : (nextInFrame c pc).frmbase = c.frmbase := by unfold nextInFrame; dsimp only; (repeat' split) <;> rfl
@[simp] theorem nextInFrame_treep (c : Ctx) (pc : BitVec 56) : (nextInFrame c pc).treep = c.treep := by unfold nextInFrame; dsimp only; (repeat' split) <;> rfl
@[simp] theorem nextInFrame_treen (c : Ctx) (pc : BitVec 56) : (nextInFrame c pc).treen = c.treen := by unfold nextInFrame; dsimp only; (repeat' split) <;> rfl
@[simp] theorem nextInFrame_mkid (c : Ctx) (pc : BitVec 56) : (nextInFrame c pc).mkid = c.mkid := by unfold nextInFrame; dsimp only; (repeat' split) <;> rfl
@[simp] theorem nextInFrame_ask (c : Ctx) (pc : BitVec 56) : (nextInFrame c pc).ask = c.ask := by unfold nextInFrame; dsimp only; (repeat' split) <;> rfl
@[simp] theorem nextInFrame_pri (c : Ctx) (pc : BitVec 56) : (nextInFrame c pc).pri = c.pri := by unfold nextInFrame; dsimp only; (repeat' split) <;> rfl
@[simp] theorem nextInFrame_act (c : Ctx) (pc : BitVec 56) : (nextInFrame c pc).act = c.act := by unfold nextInFrame; dsimp only; (repeat' split) <;> rfl
@[simp] theorem nextInFrame_hintDrops (c : Ctx) (pc : BitVec 56) : (nextInFrame c pc).hintDrops = c.hintDrops := by unfold nextInFrame; dsimp only; (repeat' split) <;> rfl
@[simp] theorem nextInFrame_rowh (c : Ctx) (pc : BitVec 56) : (nextInFrame c pc).rowh = c.rowh := by unfold nextInFrame; dsimp only; (repeat' split) <;> rfl
@[simp] theorem nextInFrame_pend (c : Ctx) (pc : BitVec 56) : (nextInFrame c pc).pend = c.pend := by unfold nextInFrame; dsimp only; (repeat' split) <;> rfl
@[simp] theorem nextInFrame_xcount (c : Ctx) (pc : BitVec 56) : (nextInFrame c pc).xcount = c.xcount := by unfold nextInFrame; dsimp only; (repeat' split) <;> rfl
@[simp] theorem nextInFrame_xerrs (c : Ctx) (pc : BitVec 56) : (nextInFrame c pc).xerrs = c.xerrs := by unfold nextInFrame; dsimp only; (repeat' split) <;> rfl
@[simp] theorem nextInFrame_merrs (c : Ctx) (pc : BitVec 56) : (nextInFrame c pc).merrs = c.merrs := by unfold nextInFrame; dsimp only; (repeat' split) <;> rfl
@[simp] theorem nextInFrame_half (c : Ctx) (pc : BitVec 56) : (nextInFrame c pc).half = c.half := by unfold nextInFrame; dsimp only; (repeat' split) <;> rfl
@[simp] theorem nextInFrame_mons (c : Ctx) (pc : BitVec 56) : (nextInFrame c pc).mons = c.mons := by unfold nextInFrame; dsimp only; (repeat' split) <;> rfl
@[simp] theorem nextInFrame_reads (c : Ctx) (pc : BitVec 56) : (nextInFrame c pc).reads = c.reads := by unfold nextInFrame; dsimp only; (repeat' split) <;> rfl
@[simp] theorem nextInFrame_delta (c : Ctx) (pc : BitVec 56) : (nextInFrame c pc).delta = c.delta := by unfold nextInFrame; dsimp only; (repeat' split) <;> rfl
@[simp] theorem retire_ctx_g (s : State) (rep : Bool) (stl : BitVec 3) (pc : BitVec 56) : (s.retire rep stl pc).ctx.g = s.ctx.g := by
  cases rep; rfl; exact nextInFrame_g s.ctx pc
@[simp] theorem retire_ctx_v (s : State) (rep : Bool) (stl : BitVec 3) (pc : BitVec 56) : (s.retire rep stl pc).ctx.v = s.ctx.v := by
  cases rep; rfl; exact nextInFrame_v s.ctx pc
@[simp] theorem retire_ctx_w (s : State) (rep : Bool) (stl : BitVec 3) (pc : BitVec 56) : (s.retire rep stl pc).ctx.w = s.ctx.w := by
  cases rep; rfl; exact nextInFrame_w s.ctx pc
@[simp] theorem retire_ctx_k (s : State) (rep : Bool) (stl : BitVec 3) (pc : BitVec 56) : (s.retire rep stl pc).ctx.k = s.ctx.k := by
  cases rep; rfl; exact nextInFrame_k s.ctx pc
@[simp] theorem retire_ctx_tag (s : State) (rep : Bool) (stl : BitVec 3) (pc : BitVec 56) : (s.retire rep stl pc).ctx.tag = s.ctx.tag := by
  cases rep; rfl; exact nextInFrame_tag s.ctx pc
@[simp] theorem retire_ctx_src (s : State) (rep : Bool) (stl : BitVec 3) (pc : BitVec 56) : (s.retire rep stl pc).ctx.src = s.ctx.src := by
  cases rep; rfl; exact nextInFrame_src s.ctx pc
@[simp] theorem retire_ctx_ord (s : State) (rep : Bool) (stl : BitVec 3) (pc : BitVec 56) : (s.retire rep stl pc).ctx.ord = s.ctx.ord := by
  cases rep; rfl; exact nextInFrame_ord s.ctx pc
@[simp] theorem retire_ctx_trapvec (s : State) (rep : Bool) (stl : BitVec 3) (pc : BitVec 56) : (s.retire rep stl pc).ctx.trapvec = s.ctx.trapvec := by
  cases rep; rfl; exact nextInFrame_trapvec s.ctx pc
@[simp] theorem retire_ctx_inh (s : State) (rep : Bool) (stl : BitVec 3) (pc : BitVec 56) : (s.retire rep stl pc).ctx.inh = s.ctx.inh := by
  cases rep; rfl; exact nextInFrame_inh s.ctx pc
@[simp] theorem retire_ctx_cause (s : State) (rep : Bool) (stl : BitVec 3) (pc : BitVec 56) : (s.retire rep stl pc).ctx.cause = s.ctx.cause := by
  cases rep; rfl; exact nextInFrame_cause s.ctx pc
@[simp] theorem retire_ctx_trappc (s : State) (rep : Bool) (stl : BitVec 3) (pc : BitVec 56) : (s.retire rep stl pc).ctx.trappc = s.ctx.trappc := by
  cases rep; rfl; exact nextInFrame_trappc s.ctx pc
@[simp] theorem retire_ctx_trapval (s : State) (rep : Bool) (stl : BitVec 3) (pc : BitVec 56) : (s.retire rep stl pc).ctx.trapval = s.ctx.trapval := by
  cases rep; rfl; exact nextInFrame_trapval s.ctx pc
@[simp] theorem retire_ctx_trapsave (s : State) (rep : Bool) (stl : BitVec 3) (pc : BitVec 56) : (s.retire rep stl pc).ctx.trapsave = s.ctx.trapsave := by
  cases rep; rfl; exact nextInFrame_trapsave s.ctx pc
@[simp] theorem retire_ctx_fpflags (s : State) (rep : Bool) (stl : BitVec 3) (pc : BitVec 56) : (s.retire rep stl pc).ctx.fpflags = s.ctx.fpflags := by
  cases rep; rfl; exact nextInFrame_fpflags s.ctx pc
@[simp] theorem retire_ctx_chksb (s : State) (rep : Bool) (stl : BitVec 3) (pc : BitVec 56) : (s.retire rep stl pc).ctx.chksb = s.ctx.chksb := by
  cases rep; rfl; exact nextInFrame_chksb s.ctx pc
@[simp] theorem retire_ctx_long (s : State) (rep : Bool) (stl : BitVec 3) (pc : BitVec 56) : (s.retire rep stl pc).ctx.long = s.ctx.long := by
  cases rep; rfl; exact nextInFrame_long s.ctx pc
@[simp] theorem retire_ctx_slot (s : State) (rep : Bool) (stl : BitVec 3) (pc : BitVec 56) : (s.retire rep stl pc).ctx.slot = s.ctx.slot := by
  cases rep; rfl; exact nextInFrame_slot s.ctx pc
@[simp] theorem retire_ctx_frmbase (s : State) (rep : Bool) (stl : BitVec 3) (pc : BitVec 56) : (s.retire rep stl pc).ctx.frmbase = s.ctx.frmbase := by
  cases rep; rfl; exact nextInFrame_frmbase s.ctx pc
@[simp] theorem retire_ctx_treep (s : State) (rep : Bool) (stl : BitVec 3) (pc : BitVec 56) : (s.retire rep stl pc).ctx.treep = s.ctx.treep := by
  cases rep; rfl; exact nextInFrame_treep s.ctx pc
@[simp] theorem retire_ctx_treen (s : State) (rep : Bool) (stl : BitVec 3) (pc : BitVec 56) : (s.retire rep stl pc).ctx.treen = s.ctx.treen := by
  cases rep; rfl; exact nextInFrame_treen s.ctx pc
@[simp] theorem retire_ctx_mkid (s : State) (rep : Bool) (stl : BitVec 3) (pc : BitVec 56) : (s.retire rep stl pc).ctx.mkid = s.ctx.mkid := by
  cases rep; rfl; exact nextInFrame_mkid s.ctx pc
@[simp] theorem retire_ctx_ask (s : State) (rep : Bool) (stl : BitVec 3) (pc : BitVec 56) : (s.retire rep stl pc).ctx.ask = s.ctx.ask := by
  cases rep; rfl; exact nextInFrame_ask s.ctx pc
@[simp] theorem retire_ctx_pri (s : State) (rep : Bool) (stl : BitVec 3) (pc : BitVec 56) : (s.retire rep stl pc).ctx.pri = s.ctx.pri := by
  cases rep; rfl; exact nextInFrame_pri s.ctx pc
@[simp] theorem retire_ctx_act (s : State) (rep : Bool) (stl : BitVec 3) (pc : BitVec 56) : (s.retire rep stl pc).ctx.act = s.ctx.act := by
  cases rep; rfl; exact nextInFrame_act s.ctx pc
@[simp] theorem retire_ctx_hintDrops (s : State) (rep : Bool) (stl : BitVec 3) (pc : BitVec 56) : (s.retire rep stl pc).ctx.hintDrops = s.ctx.hintDrops := by
  cases rep; rfl; exact nextInFrame_hintDrops s.ctx pc
@[simp] theorem retire_ctx_rowh (s : State) (rep : Bool) (stl : BitVec 3) (pc : BitVec 56) : (s.retire rep stl pc).ctx.rowh = s.ctx.rowh := by
  cases rep; rfl; exact nextInFrame_rowh s.ctx pc
@[simp] theorem retire_ctx_pend (s : State) (rep : Bool) (stl : BitVec 3) (pc : BitVec 56) : (s.retire rep stl pc).ctx.pend = s.ctx.pend := by
  cases rep; rfl; exact nextInFrame_pend s.ctx pc
@[simp] theorem retire_ctx_xcount (s : State) (rep : Bool) (stl : BitVec 3) (pc : BitVec 56) : (s.retire rep stl pc).ctx.xcount = s.ctx.xcount := by
  cases rep; rfl; exact nextInFrame_xcount s.ctx pc
@[simp] theorem retire_ctx_xerrs (s : State) (rep : Bool) (stl : BitVec 3) (pc : BitVec 56) : (s.retire rep stl pc).ctx.xerrs = s.ctx.xerrs := by
  cases rep; rfl; exact nextInFrame_xerrs s.ctx pc
@[simp] theorem retire_ctx_merrs (s : State) (rep : Bool) (stl : BitVec 3) (pc : BitVec 56) : (s.retire rep stl pc).ctx.merrs = s.ctx.merrs := by
  cases rep; rfl; exact nextInFrame_merrs s.ctx pc
@[simp] theorem retire_ctx_half (s : State) (rep : Bool) (stl : BitVec 3) (pc : BitVec 56) : (s.retire rep stl pc).ctx.half = s.ctx.half := by
  cases rep; rfl; exact nextInFrame_half s.ctx pc
@[simp] theorem retire_ctx_mons (s : State) (rep : Bool) (stl : BitVec 3) (pc : BitVec 56) : (s.retire rep stl pc).ctx.mons = s.ctx.mons := by
  cases rep; rfl; exact nextInFrame_mons s.ctx pc
@[simp] theorem retire_ctx_reads (s : State) (rep : Bool) (stl : BitVec 3) (pc : BitVec 56) : (s.retire rep stl pc).ctx.reads = s.ctx.reads := by
  cases rep; rfl; exact nextInFrame_reads s.ctx pc
@[simp] theorem retire_ctx_delta (s : State) (rep : Bool) (stl : BitVec 3) (pc : BitVec 56) : (s.retire rep stl pc).ctx.delta = s.ctx.delta := by
  cases rep; rfl; exact nextInFrame_delta s.ctx pc
/-- A unit that is not replayed goes on at `pc`. -/
@[simp] theorem retire_ctx_pc (s : State) (stl : BitVec 3) (pc : BitVec 56) : (s.retire false stl pc).ctx.pc = pc := rfl
@[simp] theorem retire_ctx_wait (s : State) (rep : Bool) (stl : BitVec 3) (pc : BitVec 56) : (s.retire rep stl pc).ctx.wait = none := rfl

/-! ## Reading a part after writing one -/

theorem coreAt_setCore (s : State) (i j : Nat) (x : Core) : (s.setCore i x).coreAt j = if j = i then x else s.coreAt j := SMap.get_set _ _ i j x
theorem coreAt_modCore (s : State) (i j : Nat) (f : Core → Core) : (s.modCore i f).coreAt j = if j = i then f (s.coreAt i) else s.coreAt j := SMap.get_set _ _ i j _
@[simp] theorem coreAt_modCore_self (s : State) (i : Nat) (f : Core → Core) : (s.modCore i f).coreAt i = f (s.coreAt i) := SMap.get_set_self _ _ i _
theorem cluAt_setClu (s : State) (i j : Nat) (x : Cluster) : (s.setClu i x).cluAt j = if j = i then x else s.cluAt j := SMap.get_set _ _ i j x
theorem cluAt_modClu (s : State) (i j : Nat) (f : Cluster → Cluster) : (s.modClu i f).cluAt j = if j = i then f (s.cluAt i) else s.cluAt j := SMap.get_set _ _ i j _
@[simp] theorem cluAt_modClu_self (s : State) (i : Nat) (f : Cluster → Cluster) : (s.modClu i f).cluAt i = f (s.cluAt i) := SMap.get_set_self _ _ i _
theorem dieAt_setDie (s : State) (i j : Nat) (x : Die) : (s.setDie i x).dieAt j = if j = i then x else s.dieAt j := SMap.get_set _ _ i j x
theorem dieAt_modDie (s : State) (i j : Nat) (f : Die → Die) : (s.modDie i f).dieAt j = if j = i then f (s.dieAt i) else s.dieAt j := SMap.get_set _ _ i j _
@[simp] theorem dieAt_modDie_self (s : State) (i : Nat) (f : Die → Die) : (s.modDie i f).dieAt i = f (s.dieAt i) := SMap.get_set_self _ _ i _
@[simp] theorem coreAt_setCtx (s : State) (c : Ctx) (j : Nat) : (s.setCtx c).coreAt j = s.coreAt j := rfl
@[simp] theorem coreAt_modPkg (s : State) (f : Pkg → Pkg) (j : Nat) : (s.modPkg f).coreAt j = s.coreAt j := rfl
@[simp] theorem coreAt_setWait (s : State) (w : Wait) (j : Nat) : (s.setWait w).coreAt j = s.coreAt j := rfl
@[simp] theorem coreAt_spend (s : State) (j : Nat) : (s.spend).coreAt j = s.coreAt j := rfl
@[simp] theorem coreAt_await (s : State) (j : Nat) : (s.await).coreAt j = s.coreAt j := rfl
@[simp] theorem coreAt_modClu (s : State) (i : Nat) (f : Cluster → Cluster) (j : Nat) : (s.modClu i f).coreAt j = s.coreAt j := rfl
@[simp] theorem coreAt_modDie (s : State) (i : Nat) (f : Die → Die) (j : Nat) : (s.modDie i f).coreAt j = s.coreAt j := rfl
@[simp] theorem cluAt_setCtx (s : State) (c : Ctx) (j : Nat) : (s.setCtx c).cluAt j = s.cluAt j := rfl
@[simp] theorem cluAt_modPkg (s : State) (f : Pkg → Pkg) (j : Nat) : (s.modPkg f).cluAt j = s.cluAt j := rfl
@[simp] theorem cluAt_setWait (s : State) (w : Wait) (j : Nat) : (s.setWait w).cluAt j = s.cluAt j := rfl
@[simp] theorem cluAt_spend (s : State) (j : Nat) : (s.spend).cluAt j = s.cluAt j := rfl
@[simp] theorem cluAt_await (s : State) (j : Nat) : (s.await).cluAt j = s.cluAt j := rfl
@[simp] theorem cluAt_modCore (s : State) (i : Nat) (f : Core → Core) (j : Nat) : (s.modCore i f).cluAt j = s.cluAt j := rfl
@[simp] theorem cluAt_modDie (s : State) (i : Nat) (f : Die → Die) (j : Nat) : (s.modDie i f).cluAt j = s.cluAt j := rfl
@[simp] theorem dieAt_setCtx (s : State) (c : Ctx) (j : Nat) : (s.setCtx c).dieAt j = s.dieAt j := rfl
@[simp] theorem dieAt_modPkg (s : State) (f : Pkg → Pkg) (j : Nat) : (s.modPkg f).dieAt j = s.dieAt j := rfl
@[simp] theorem dieAt_setWait (s : State) (w : Wait) (j : Nat) : (s.setWait w).dieAt j = s.dieAt j := rfl
@[simp] theorem dieAt_spend (s : State) (j : Nat) : (s.spend).dieAt j = s.dieAt j := rfl
@[simp] theorem dieAt_await (s : State) (j : Nat) : (s.await).dieAt j = s.dieAt j := rfl
@[simp] theorem dieAt_modCore (s : State) (i : Nat) (f : Core → Core) (j : Nat) : (s.modCore i f).dieAt j = s.dieAt j := rfl
@[simp] theorem dieAt_modClu (s : State) (i : Nat) (f : Cluster → Cluster) (j : Nat) : (s.modClu i f).dieAt j = s.dieAt j := rfl

/-! ## Registers (R30, R86) -/

@[simp] theorem remember_site (s : State) (f : File) (r : Nat) (x : BitVec 4096) (lat : Nat) : (s.remember f r x lat).site = s.site := by unfold remember; split <;> rfl
@[simp] theorem remember_parked (s : State) (f : File) (r : Nat) (x : BitVec 4096) (lat : Nat) : (s.remember f r x lat).parked = s.parked := by unfold remember; split <;> rfl
@[simp] theorem remember_cores (s : State) (f : File) (r : Nat) (x : BitVec 4096) (lat : Nat) : (s.remember f r x lat).cores = s.cores := by unfold remember; split <;> rfl
@[simp] theorem remember_clus (s : State) (f : File) (r : Nat) (x : BitVec 4096) (lat : Nat) : (s.remember f r x lat).clus = s.clus := by unfold remember; split <;> rfl
@[simp] theorem remember_dies (s : State) (f : File) (r : Nat) (x : BitVec 4096) (lat : Nat) : (s.remember f r x lat).dies = s.dies := by unfold remember; split <;> rfl
@[simp] theorem remember_pkg (s : State) (f : File) (r : Nat) (x : BitVec 4096) (lat : Nat) : (s.remember f r x lat).pkg = s.pkg := by unfold remember; split <;> rfl
@[simp] theorem remember_mem (s : State) (f : File) (r : Nat) (x : BitVec 4096) (lat : Nat) : (s.remember f r x lat).mem = s.mem := by unfold remember; split <;> rfl
@[simp] theorem remember_cycle (s : State) (f : File) (r : Nat) (x : BitVec 4096) (lat : Nat) : (s.remember f r x lat).cycle = s.cycle := by unfold remember; split <;> rfl
@[simp] theorem remember_free (s : State) (f : File) (r : Nat) (x : BitVec 4096) (lat : Nat) : (s.remember f r x lat).free = s.free := by unfold remember; split <;> rfl
@[simp] theorem remember_plan (s : State) (f : File) (r : Nat) (x : BitVec 4096) (lat : Nat) : (s.remember f r x lat).plan = s.plan := by unfold remember; split <;> rfl
@[simp] theorem putG_site (s : State) (r : BitVec 5) (x : Word) (lat : Nat) : (s.putG r x lat).site = s.site := by unfold putG; split <;> simp
@[simp] theorem putG_parked (s : State) (r : BitVec 5) (x : Word) (lat : Nat) : (s.putG r x lat).parked = s.parked := by unfold putG; split <;> simp
@[simp] theorem putG_cores (s : State) (r : BitVec 5) (x : Word) (lat : Nat) : (s.putG r x lat).cores = s.cores := by unfold putG; split <;> simp
@[simp] theorem putG_clus (s : State) (r : BitVec 5) (x : Word) (lat : Nat) : (s.putG r x lat).clus = s.clus := by unfold putG; split <;> simp
@[simp] theorem putG_dies (s : State) (r : BitVec 5) (x : Word) (lat : Nat) : (s.putG r x lat).dies = s.dies := by unfold putG; split <;> simp
@[simp] theorem putG_pkg (s : State) (r : BitVec 5) (x : Word) (lat : Nat) : (s.putG r x lat).pkg = s.pkg := by unfold putG; split <;> simp
@[simp] theorem putG_mem (s : State) (r : BitVec 5) (x : Word) (lat : Nat) : (s.putG r x lat).mem = s.mem := by unfold putG; split <;> simp
@[simp] theorem putG_cycle (s : State) (r : BitVec 5) (x : Word) (lat : Nat) : (s.putG r x lat).cycle = s.cycle := by unfold putG; split <;> simp
@[simp] theorem putG_free (s : State) (r : BitVec 5) (x : Word) (lat : Nat) : (s.putG r x lat).free = s.free := by unfold putG; split <;> simp
@[simp] theorem putG_plan (s : State) (r : BitVec 5) (x : Word) (lat : Nat) : (s.putG r x lat).plan = s.plan := by unfold putG; split <;> simp
@[simp] theorem putK_site (s : State) (r : Nat) (x : BitVec 512) (lat : Nat) : (s.putK r x lat).site = s.site := by unfold putK; split <;> simp
@[simp] theorem putK_parked (s : State) (r : Nat) (x : BitVec 512) (lat : Nat) : (s.putK r x lat).parked = s.parked := by unfold putK; split <;> simp
@[simp] theorem putK_cores (s : State) (r : Nat) (x : BitVec 512) (lat : Nat) : (s.putK r x lat).cores = s.cores := by unfold putK; split <;> simp
@[simp] theorem putK_clus (s : State) (r : Nat) (x : BitVec 512) (lat : Nat) : (s.putK r x lat).clus = s.clus := by unfold putK; split <;> simp
@[simp] theorem putK_dies (s : State) (r : Nat) (x : BitVec 512) (lat : Nat) : (s.putK r x lat).dies = s.dies := by unfold putK; split <;> simp
@[simp] theorem putK_pkg (s : State) (r : Nat) (x : BitVec 512) (lat : Nat) : (s.putK r x lat).pkg = s.pkg := by unfold putK; split <;> simp
@[simp] theorem putK_mem (s : State) (r : Nat) (x : BitVec 512) (lat : Nat) : (s.putK r x lat).mem = s.mem := by unfold putK; split <;> simp
@[simp] theorem putK_cycle (s : State) (r : Nat) (x : BitVec 512) (lat : Nat) : (s.putK r x lat).cycle = s.cycle := by unfold putK; split <;> simp
@[simp] theorem putK_free (s : State) (r : Nat) (x : BitVec 512) (lat : Nat) : (s.putK r x lat).free = s.free := by unfold putK; split <;> simp
@[simp] theorem putK_plan (s : State) (r : Nat) (x : BitVec 512) (lat : Nat) : (s.putK r x lat).plan = s.plan := by unfold putK; split <;> simp
@[simp] theorem putVShort_site (s : State) (r : BitVec 5) (x : BitVec 256) (lat : Nat) : (s.putVShort r x lat).site = s.site := by unfold putVShort; simp
@[simp] theorem putVShort_parked (s : State) (r : BitVec 5) (x : BitVec 256) (lat : Nat) : (s.putVShort r x lat).parked = s.parked := by unfold putVShort; simp
@[simp] theorem putVShort_cores (s : State) (r : BitVec 5) (x : BitVec 256) (lat : Nat) : (s.putVShort r x lat).cores = s.cores := by unfold putVShort; simp
@[simp] theorem putVShort_clus (s : State) (r : BitVec 5) (x : BitVec 256) (lat : Nat) : (s.putVShort r x lat).clus = s.clus := by unfold putVShort; simp
@[simp] theorem putVShort_dies (s : State) (r : BitVec 5) (x : BitVec 256) (lat : Nat) : (s.putVShort r x lat).dies = s.dies := by unfold putVShort; simp
@[simp] theorem putVShort_pkg (s : State) (r : BitVec 5) (x : BitVec 256) (lat : Nat) : (s.putVShort r x lat).pkg = s.pkg := by unfold putVShort; simp
@[simp] theorem putVShort_mem (s : State) (r : BitVec 5) (x : BitVec 256) (lat : Nat) : (s.putVShort r x lat).mem = s.mem := by unfold putVShort; simp
@[simp] theorem putVShort_cycle (s : State) (r : BitVec 5) (x : BitVec 256) (lat : Nat) : (s.putVShort r x lat).cycle = s.cycle := by unfold putVShort; simp
@[simp] theorem putVShort_free (s : State) (r : BitVec 5) (x : BitVec 256) (lat : Nat) : (s.putVShort r x lat).free = s.free := by unfold putVShort; simp
@[simp] theorem putVShort_plan (s : State) (r : BitVec 5) (x : BitVec 256) (lat : Nat) : (s.putVShort r x lat).plan = s.plan := by unfold putVShort; simp
@[simp] theorem putVLong_site (s : State) (r : BitVec 5) (x : BitVec 4096) (lat : Nat) : (s.putVLong r x lat).site = s.site := by unfold putVLong; simp
@[simp] theorem putVLong_parked (s : State) (r : BitVec 5) (x : BitVec 4096) (lat : Nat) : (s.putVLong r x lat).parked = s.parked := by unfold putVLong; simp
@[simp] theorem putVLong_cores (s : State) (r : BitVec 5) (x : BitVec 4096) (lat : Nat) : (s.putVLong r x lat).cores = s.cores := by unfold putVLong; simp
@[simp] theorem putVLong_clus (s : State) (r : BitVec 5) (x : BitVec 4096) (lat : Nat) : (s.putVLong r x lat).clus = s.clus := by unfold putVLong; simp
@[simp] theorem putVLong_dies (s : State) (r : BitVec 5) (x : BitVec 4096) (lat : Nat) : (s.putVLong r x lat).dies = s.dies := by unfold putVLong; simp
@[simp] theorem putVLong_pkg (s : State) (r : BitVec 5) (x : BitVec 4096) (lat : Nat) : (s.putVLong r x lat).pkg = s.pkg := by unfold putVLong; simp
@[simp] theorem putVLong_mem (s : State) (r : BitVec 5) (x : BitVec 4096) (lat : Nat) : (s.putVLong r x lat).mem = s.mem := by unfold putVLong; simp
@[simp] theorem putVLong_cycle (s : State) (r : BitVec 5) (x : BitVec 4096) (lat : Nat) : (s.putVLong r x lat).cycle = s.cycle := by unfold putVLong; simp
@[simp] theorem putVLong_free (s : State) (r : BitVec 5) (x : BitVec 4096) (lat : Nat) : (s.putVLong r x lat).free = s.free := by unfold putVLong; simp
@[simp] theorem putVLong_plan (s : State) (r : BitVec 5) (x : BitVec 4096) (lat : Nat) : (s.putVLong r x lat).plan = s.plan := by unfold putVLong; simp
@[simp] theorem putV_site (s : State) (r : BitVec 5) (x : BitVec 4096) (lat : Nat) : (s.putV r x lat).site = s.site := by unfold putV; split <;> simp
@[simp] theorem putV_parked (s : State) (r : BitVec 5) (x : BitVec 4096) (lat : Nat) : (s.putV r x lat).parked = s.parked := by unfold putV; split <;> simp
@[simp] theorem putV_cores (s : State) (r : BitVec 5) (x : BitVec 4096) (lat : Nat) : (s.putV r x lat).cores = s.cores := by unfold putV; split <;> simp
@[simp] theorem putV_clus (s : State) (r : BitVec 5) (x : BitVec 4096) (lat : Nat) : (s.putV r x lat).clus = s.clus := by unfold putV; split <;> simp
@[simp] theorem putV_dies (s : State) (r : BitVec 5) (x : BitVec 4096) (lat : Nat) : (s.putV r x lat).dies = s.dies := by unfold putV; split <;> simp
@[simp] theorem putV_pkg (s : State) (r : BitVec 5) (x : BitVec 4096) (lat : Nat) : (s.putV r x lat).pkg = s.pkg := by unfold putV; split <;> simp
@[simp] theorem putV_mem (s : State) (r : BitVec 5) (x : BitVec 4096) (lat : Nat) : (s.putV r x lat).mem = s.mem := by unfold putV; split <;> simp
@[simp] theorem putV_cycle (s : State) (r : BitVec 5) (x : BitVec 4096) (lat : Nat) : (s.putV r x lat).cycle = s.cycle := by unfold putV; split <;> simp
@[simp] theorem putV_free (s : State) (r : BitVec 5) (x : BitVec 4096) (lat : Nat) : (s.putV r x lat).free = s.free := by unfold putV; split <;> simp
@[simp] theorem putV_plan (s : State) (r : BitVec 5) (x : BitVec 4096) (lat : Nat) : (s.putV r x lat).plan = s.plan := by unfold putV; split <;> simp

theorem remember_ctx (s : State) (f : File) (n : Nat) (old : BitVec 4096) (lat : Nat) :
    (s.remember f n old lat).ctx = { s.ctx with pend := (s.remember f n old lat).ctx.pend } := by unfold remember; split <;> rfl
theorem putG_zero (s : State) (x : Word) (lat : Nat) : s.putG 0#5 x lat = s := rfl
theorem g_zero (s : State) : s.g 0#5 = 0#64 := rfl
/-- A write of a g register is read back; it changes no other. -/
theorem g_putG (s : State) (d r : BitVec 5) (x : Word) (lat : Nat) : (s.putG d x lat).g r = if r = d ∧ d ≠ 0#5 then x else s.g r := by
  unfold putG
  by_cases h : d = 0#5
  · simp [h]
  · rw [if_neg h]
    simp only [g, setCtx_ctx]
    rw [remember_ctx]
    by_cases hr : r = d
    · subst hr; simp [h]
    · have : r.toNat ≠ d.toNat := fun e => hr (BitVec.eq_of_toNat_eq e)
      simp [hr, SMap.get_set, this]
/-- Latency 0 leaves nothing of the register to become readable later (R34): its own entries go, the others stay. -/
theorem remember_now (s : State) (f : File) (n : Nat) (old : BitVec 4096) :
    s.remember f n old 0 = s.setCtx { s.ctx with pend := s.ctx.pend.filter fun p => !(p.file == f && p.num == n) } := by
  have h : s.overtaken f n 0 = s.ctx.pend.filter fun p => !(p.file == f && p.num == n) := by
    unfold overtaken
    have hf : (s.ctx.pend.filter fun p => !(p.file == f && p.num == n && (p.tracked || decide (0 < 2)))) =
        s.ctx.pend.filter fun p => !(p.file == f && p.num == n) := by
      apply List.filter_congr; intro p _; simp
    rw [hf]
    conv => rhs; rw [← List.map_id (s.ctx.pend.filter fun p => !(p.file == f && p.num == n))]
    apply List.map_congr_left
    intro p hp
    have hp' := (List.mem_filter.mp hp).2
    rw [if_neg]; rfl
    intro hc; simp [hc.1, hc.2] at hp'
  simp [remember, h]
/-- With latency 0 a write changes the register, and what the register still had to come. -/
theorem putG_now (s : State) (d : BitVec 5) (x : Word) (h : d ≠ 0#5) : s.putG d x 0 =
    s.setCtx { s.ctx with g := SMap.set 0#64 s.ctx.g d.toNat x, pend := s.ctx.pend.filter fun p => !(p.file == File.g && p.num == d.toNat) } := by
  rw [putG, if_neg h, remember_now]
  simp [setCtx]

/-! ## stallFor -/

@[simp] theorem stallFor_site (s : State) (u : Nat) : (s.stallFor u).site = s.site := rfl
@[simp] theorem stallFor_parked (s : State) (u : Nat) : (s.stallFor u).parked = s.parked := rfl
@[simp] theorem stallFor_cores (s : State) (u : Nat) : (s.stallFor u).cores = s.cores := rfl
@[simp] theorem stallFor_clus (s : State) (u : Nat) : (s.stallFor u).clus = s.clus := rfl
@[simp] theorem stallFor_dies (s : State) (u : Nat) : (s.stallFor u).dies = s.dies := rfl
@[simp] theorem stallFor_pkg (s : State) (u : Nat) : (s.stallFor u).pkg = s.pkg := rfl
@[simp] theorem stallFor_mem (s : State) (u : Nat) : (s.stallFor u).mem = s.mem := rfl
@[simp] theorem stallFor_ctx (s : State) (u : Nat) : (s.stallFor u).ctx = { s.ctx with st := .stalled, readyAt := u, wait := some { s.waitNow with short := true } } := rfl
@[simp] theorem stallFor_cycle (s : State) (u : Nat) : (s.stallFor u).cycle = s.cycle + 1 + s.plan.delays.headD 0 := rfl
@[simp] theorem stallFor_free (s : State) (u : Nat) : (s.stallFor u).free = s.free + 65536 := rfl
@[simp] theorem stallFor_plan (s : State) (u : Nat) : (s.stallFor u).plan = { s.plan with delays := s.plan.delays.tail } := rfl

/-! ## putTracked -/

@[simp] theorem putTracked_site (s : State) (r : BitVec 5) (x : Word) (t : Nat) : (s.putTracked r x t).site = s.site := by unfold putTracked; dsimp only; split <;> simp
@[simp] theorem putTracked_parked (s : State) (r : BitVec 5) (x : Word) (t : Nat) : (s.putTracked r x t).parked = s.parked := by unfold putTracked; dsimp only; split <;> simp
@[simp] theorem putTracked_cores (s : State) (r : BitVec 5) (x : Word) (t : Nat) : (s.putTracked r x t).cores = s.cores := by unfold putTracked; dsimp only; split <;> simp
@[simp] theorem putTracked_clus (s : State) (r : BitVec 5) (x : Word) (t : Nat) : (s.putTracked r x t).clus = s.clus := by unfold putTracked; dsimp only; split <;> simp
@[simp] theorem putTracked_dies (s : State) (r : BitVec 5) (x : Word) (t : Nat) : (s.putTracked r x t).dies = s.dies := by unfold putTracked; dsimp only; split <;> simp
@[simp] theorem putTracked_pkg (s : State) (r : BitVec 5) (x : Word) (t : Nat) : (s.putTracked r x t).pkg = s.pkg := by unfold putTracked; dsimp only; split <;> simp
@[simp] theorem putTracked_mem (s : State) (r : BitVec 5) (x : Word) (t : Nat) : (s.putTracked r x t).mem = s.mem := by unfold putTracked; dsimp only; split <;> simp
@[simp] theorem putTracked_cycle (s : State) (r : BitVec 5) (x : Word) (t : Nat) : (s.putTracked r x t).cycle = s.cycle := by unfold putTracked; dsimp only; split <;> simp
@[simp] theorem putTracked_free (s : State) (r : BitVec 5) (x : Word) (t : Nat) : (s.putTracked r x t).free = s.free := by unfold putTracked; dsimp only; split <;> simp
@[simp] theorem putTracked_plan (s : State) (r : BitVec 5) (x : Word) (t : Nat) : (s.putTracked r x t).plan = s.plan := by unfold putTracked; dsimp only; split <;> simp
/-- A tracked write is a write: the register reads the value once the scoreboard lets it (R32). -/
theorem g_putTracked (s : State) (d r : BitVec 5) (x : Word) (t : Nat) : (s.putTracked d x t).g r = if r = d ∧ d ≠ 0#5 then x else s.g r := by
  rw [← g_putG s d r x 0]
  unfold putTracked; dsimp only
  split
  · rfl
  · rfl

end Sys2Proof.Machine.State
end

