-- ==== Sys2Proof/Laws/Unit.lean ====
section
/-! SUPPORT. What the shared operations of a unit can do, said once each: reading sources, issuing, completing, trapping, returning, and the steps of
engines. Proofs about one instruction cite these and do not unfold the operations. -/
namespace Sys2Proof.Machine.State
open Sys2Proof Sys2Proof.Claims

/-! ## Sources -/

/-- The last source of a list that is ready has no older value, unless it reads as a constant. -/
theorem tooEarly_cons {s : State} {f : File} {r : Nat} {rs : List (File × Nat)} :
    s.tooEarly ((f, r) :: rs) = none ↔ (((f == .g || f == .k) && r == 0) = true ∨ s.olds f r = []) ∧ s.tooEarly rs = none := by
  rw [tooEarly]
  split
  · simp_all
  · split <;> simp_all

@[simp] theorem tooEarly_nil (s : State) : s.tooEarly [] = none := rfl

theorem tooEarly_append {s : State} : ∀ (as bs : List (File × Nat)), s.tooEarly (as ++ bs) = none ↔ s.tooEarly as = none ∧ s.tooEarly bs = none
  | [], bs => by simp
  | (f, r) :: as, bs => by rw [List.cons_append, tooEarly_cons, tooEarly_cons, tooEarly_append as bs, and_assoc]

/-- No source of two lists is awaited exactly when none of either is (R32). -/
theorem awaited_append {s : State} : ∀ (as bs : List (File × Nat)), s.awaited (as ++ bs) = none ↔ s.awaited as = none ∧ s.awaited bs = none
  | [], bs => by simp [awaited]
  | (f, r) :: as, bs => by
    have ih := awaited_append (s := s) as bs
    rw [List.cons_append, awaited, awaited]
    split
    · exact ih
    · split
      · simp
      · exact ih

/-- The sources of two lists are ready exactly when those of each are. -/
theorem ready_append {s : State} (as bs : List (File × Nat)) : Claims.Ready s (as ++ bs) ↔ Claims.Ready s as ∧ Claims.Ready s bs := by
  simp only [Claims.Ready, tooEarly_append, awaited_append]; exact and_and_and_comm

/-- A register with no older value reads as it stands (R33). -/
theorem early_of_olds {n : Nat} {s : State} {f : File} {r : Nat} (j : Nat) (cur : BitVec n) (h : s.olds f r = []) : s.early j f r cur = cur := by
  unfold early; rw [h]

/-- A ready g source gives its register's value. -/
theorem rg_of_ready {s : State} {r : BitVec 5} {rs : List (File × Nat)} (j : Nat) (h : Claims.Ready s ((.g, r.toNat) :: rs)) : s.rg j r = s.g r := by
  unfold rg
  split
  · subst r; rfl
  · rename_i h0
    have := (tooEarly_cons.mp h.1).1
    rcases this with h1 | h1
    · simp only [Bool.and_eq_true, beq_iff_eq] at h1; exact absurd (BitVec.eq_of_toNat_eq (by simpa using h1.2)) h0
    · exact early_of_olds j _ h1

/-- A ready k source gives its register's value. -/
theorem rk_of_ready {s : State} {r : Nat} {rs : List (File × Nat)} (j : Nat) (h : Claims.Ready s ((.k, r) :: rs)) : s.rk j r = s.k r := by
  unfold rk
  split
  · subst r; rfl
  · rename_i h0
    rcases (tooEarly_cons.mp h.1).1 with h1 | h1
    · simp only [Bool.and_eq_true, beq_iff_eq] at h1; exact absurd h1.2 h0
    · exact early_of_olds j _ h1

/-- A ready vector source gives its register's value, in either mode. -/
theorem rv_of_ready {s : State} {r : BitVec 5} {rs : List (File × Nat)} (j : Nat) (h : Claims.Ready s ((s.vf, r.toNat) :: rs)) : s.rv j r = s.vcur r := by
  have h1 : s.olds s.vf r.toNat = [] := by
    have h2 := (tooEarly_cons.mp h.1).1
    unfold vf at h2 ⊢
    split at h2 <;> simpa [*] using h2
  unfold rv vcur; unfold vf at h1
  split at h1
  · rename_i hl; rw [if_pos hl, if_pos hl, early_of_olds j _ h1]
  · rename_i hl; rw [if_neg hl, if_neg hl, early_of_olds j _ h1]

/-! ## Issue (R33, R44, R90) -/

/-- Whether or not checking is on, a unit whose sources are ready has the outcome of its body. -/
theorem unit_of_ready {s : State} {srcs : List (File × Nat)} (n : Nat) (stl : BitVec 3) (body : State → Res) (h : Claims.Ready s srcs) :
    s.unit n stl srcs body = s.finish n stl (body s) := by
  unfold unit; rw [h.2, h.1]; simp

/-- The same for a unit whose operands ask for a CLASS that its issuer may use. -/
theorem unitC_of_ready {s : State} {srcs : List (File × Nat)} {bad : State → Bool} (n : Nat) (stl : BitVec 3) (body : State → Res) (h : Claims.Ready s srcs)
    (hb : bad s = false) : s.unitC n stl srcs bad body = s.finish n stl (body s) := by
  unfold unitC; rw [h.2]; simp [hb, unit_of_ready n stl body h]

/-- A CLASS that the issuer may not use raises PRIVILEGE before an early source is judged (R44, R341). -/
theorem unitC_refused {s : State} {srcs : List (File × Nat)} {bad : State → Bool} (n : Nat) (stl : BitVec 3) (body : State → Res)
    (h : s.awaited srcs = none) (hb : bad s = true) : s.unitC n stl srcs bad body = .next (trapped s 0x0E#8 0#64) := by
  unfold unitC; simp [h, hb, finish, trapped]

/-- A source that the scoreboard tracks stalls the unit until its result is there (R32, R81). -/
theorem unit_awaited {s : State} {srcs : List (File × Nat)} {t : Nat} (n : Nat) (stl : BitVec 3) (body : State → Res) (h : s.awaited srcs = some t) :
    s.unit n stl srcs body = .next (s.stallFor t) := by unfold unit; simp [h, finish]

/-- With checking off, a unit that awaits no source has the outcome of its body. -/
theorem unit_unchecked {s : State} (n : Nat) (stl : BitVec 3) (srcs : List (File × Nat)) (body : State → Res) (h : s.ctx.chksb = false)
    (ha : s.awaited srcs = none) : s.unit n stl srcs body = s.finish n stl (body s) := by unfold unit; simp [h, ha]

/-- With checking on, an early source raises STALL_SHORT before anything else (R33). -/
theorem unit_early {s : State} {srcs : List (File × Nat)} {f : File} {r : Nat} (n : Nat) (stl : BitVec 3) (body : State → Res)
    (hc : s.ctx.chksb = true) (ha : s.awaited srcs = none) (h : s.tooEarly srcs = some (f, r)) :
    s.unit n stl srcs body = .next (trapped s 0x04#8 (stallVal f r)) := by unfold unit; simp [hc, ha, h, finish, trapped]

theorem unitP_privileged {s : State} (n : Nat) (stl : BitVec 3) (srcs : List (File × Nat)) (body : State → Res) (h : s.privileged = true) :
    s.unitP n stl srcs body = s.unit n stl srcs body := by unfold unitP; rw [if_pos h]

/-- A privileged form elsewhere raises PRIVILEGE first (R44, R90). -/
theorem unitP_refused {s : State} (n : Nat) (stl : BitVec 3) (srcs : List (File × Nat)) (body : State → Res) (h : s.privileged = false) :
    s.unitP n stl srcs body = .next (trapped s 0x0E#8 0#64) := by unfold unitP; simp [h, finish, trapped]

/-! ## Outcomes -/

@[simp] theorem finish_ok (s : State) (n : Nat) (stl : BitVec 3) (t : State) : s.finish n stl (.ok t) = .next (unitDone s n stl t) := rfl
@[simp] theorem finish_jump (s : State) (n : Nat) (stl : BitVec 3) (t : State) (pc : BitVec 56) : s.finish n stl (.jump t pc) = .next (unitJump s stl t pc) := rfl
@[simp] theorem finish_ended (s : State) (n : Nat) (stl : BitVec 3) (t : State) : s.finish n stl (.ended t) = .next t.spend := rfl
@[simp] theorem finish_trap (s : State) (n : Nat) (stl : BitVec 3) (c : Byte) (v : Word) : s.finish n stl (.trap c v) = .next (trapped s c v) := rfl
@[simp] theorem finish_report (s : State) (n : Nat) (stl : BitVec 3) (t : State) (c : Byte) (v : Word) :
    s.finish n stl (.report t c v) = .next (trapped t c v) := rfl
@[simp] theorem finish_stall (s : State) (n : Nat) (stl : BitVec 3) (t : State) (u : Nat) : s.finish n stl (.stall t u) = .next (t.stallFor u) := rfl
@[simp] theorem finish_wait (s : State) (n : Nat) (stl : BitVec 3) (t : State) : s.finish n stl (.wait t) = .next t.await := rfl

/-- A unit that cannot go on yet is held up with no effect (R81, R128, R224). -/
@[simp] theorem finish_hold (s : State) (n : Nat) (stl : BitVec 3) : s.finish n stl s.hold = .next (heldUp s) := by
  unfold hold holdWith heldUp
  by_cases h : s.drainsOut = true ∧ s.ctx.st ≠ .waiting
  · have : (s.drainsOut && s.ctx.st != .waiting) = true := by simpa using h
    rw [if_pos this, if_pos h]; rfl
  · have : ¬(s.drainsOut && s.ctx.st != .waiting) = true := by simpa using h
    rw [if_neg this, if_neg h]; rfl

/-- A unit answers a next state, or a fault where its body names none. -/
theorem finish_next_or_fault (s : State) (n : Nat) (stl : BitVec 3) (r : Res) :
    (∃ t, s.finish n stl r = .next t) ∨ ∃ name, r = .none name ∧ s.finish n stl r = .fault (.noSuchStep name) := by
  cases r with
  | none name => exact .inr ⟨name, rfl, rfl⟩
  | _ => exact .inl ⟨_, rfl⟩

/-- A step that has something to do takes it; otherwise it is the step the device does not take. -/
@[simp] theorem stepIf_some (s : State) (name : String) (t : State) : s.stepIf name (some t) = .next { t with free := t.free + 65536 } := rfl
@[simp] theorem stepIf_none (s : State) (name : String) : s.stepIf name none = .fault (.noSuchStep name) := rfl

/-- All that a step of an engine or of the host can do. -/
theorem stepIf_next {s t : State} {name : String} {o : Option State} (h : s.stepIf name o = .next t) : ∃ u, o = some u ∧ t = { u with free := u.free + 65536 } := by
  cases o with
  | none => cases h
  | some u => exact ⟨u, rfl, by cases h; rfl⟩

/-! ## Traps (R95, R122) -/

/-- A handled trap: what it saves, what it changes, where the program counter goes; a frame that it suspends stays held until the return. The rest of
the context and the machine stays. -/
theorem takeTrap_handled {s : State} {cause : Byte} (val : Word) (hc : cause ≠ 0x13#8) (hu : cause ≠ 0x0F#8) (hv : s.ctx.trapvec ≠ 0#64)
    (hi : s.ctx.inh = false) :
    s.takeTrap cause val = s.setCtx { s.ctx with
      trappc := s.ctx.pc.setWidth 64, trapval := val, inh := true, cause := cause, pend := [], buf := [], susp := s.ctx.trapFrm || (s.ctx.frm.act && !s.ctx.susp)
      trapFrm := s.ctx.trapFrm || (s.ctx.frm.act && !s.ctx.susp), wait := none, cur := none, skipBp := false, st := .ready, pc := s.ctx.trapvec.setWidth 56 } := by
  unfold takeTrap; simp [hc, hu, hv, hi, setCtx]

/-- An unhandled trap, after the same saving: the fault record and the end of the activation (R96). -/
theorem takeTrap_unhandled {s : State} {cause : Byte} (val : Word) (hc : cause ≠ 0x13#8) (hu : cause ≠ 0x0F#8)
    (h : s.ctx.trapvec = 0#64 ∨ s.ctx.inh = true) :
    s.takeTrap cause val = (s.setCtx { s.ctx with
      trappc := s.ctx.pc.setWidth 64, trapval := val, inh := true, cause := cause, pend := [], buf := [], susp := s.ctx.trapFrm || (s.ctx.frm.act && !s.ctx.susp)
      trapFrm := s.ctx.trapFrm || (s.ctx.frm.act && !s.ctx.susp), wait := none, cur := none, skipBp := false, st := .ready }).unhandled cause := by
  unfold takeTrap; simp [hc, hu, h]

@[simp] theorem returnFromTrap_inh (s : State) : s.returnFromTrap.ctx.inh = false := rfl
@[simp] theorem returnFromTrap_pc (s : State) : s.returnFromTrap.ctx.pc = s.ctx.trappc.setWidth 56 := rfl
@[simp] theorem returnFromTrap_susp (s : State) : s.returnFromTrap.ctx.susp = false := rfl
@[simp] theorem returnFromTrap_pend (s : State) : s.returnFromTrap.ctx.pend = [] := rfl
@[simp] theorem returnFromTrap_g (s : State) : s.returnFromTrap.ctx.g = s.ctx.g := rfl
@[simp] theorem returnFromTrap_mem (s : State) : s.returnFromTrap.mem = s.mem := rfl
@[simp] theorem returnFromTrap_pkg (s : State) : s.returnFromTrap.pkg = s.pkg := rfl

/-! ## Ends -/

/-- After its activation has ended a context is dormant, with nothing in flight (R85). -/
theorem endActivation_st (s : State) (how : EndBy) : (s.endActivation how).ctx.st = .dormant ∧ (s.endActivation how).ctx.pend = [] := ⟨rfl, rfl⟩

end Sys2Proof.Machine.State
end

