-- ==== Sys2Proof/Tests/Slice0.lean ====
section
/-! SUPPORT. Tests and witnesses. Each check of WellFormed refuses a term; worked words of the spec decode; each statement with hypotheses has
a concrete state that meets them (`witness_<Statement>`, or with a suffix for a clause), clause by clause, and where it is cheap the step that the clause then answers. -/
namespace Sys2Proof.Tests
open Sys2Proof Sys2Proof.Machine Sys2Proof.Claims

set_option Elab.async false
set_option maxRecDepth 100000

/-! ## Small states -/

/-- The instruction answers exactly this next state. -/
noncomputable def gives (i : Instr) (s t : State) : Bool := match exec i s with | .next u => decide (u = t) | _ => false
/-- The next state of an instruction that has one. -/
noncomputable def out (i : Instr) (s : State) : State := match exec i s with | .next t => t | _ => s
/-- The instruction answers some next state. -/
noncomputable def runs (i : Instr) (s : State) : Bool := match exec i s with | .next _ => true | _ => false
/-- The state and the runs of an access that goes on. -/
def reached (r : State.Go) (s : State) : State := match r with | .go u _ => u | _ => s
def runsOf (r : State.Go) : List (Nat × Nat) := match r with | .go _ rs => rs | _ => []
def goes (r : State.Go) : Bool := match r with | .go _ _ => true | _ => false

/-- A READY context with these g registers; shelves 0 and 1 of its cluster in SCRATCH, shelf 2 a FIFO. -/
def bench (xs : SMap Word) : State :=
  { State.reset with
    ctx := { Ctx.reset with st := .ready, pc := 0x1000#56, g := xs }
    clus := [(0, { shelves := [(0, { mode := .scratch }), (1, { mode := .scratch }), (2, { mode := .fifo })] })] }
/-- The same context under key 1, so not privileged. -/
def lowly (s : State) : State := s.setCtx { s.ctx with ask := 1#10 }
/-- The same context in long mode, with slot 0. -/
def longer (s : State) : State := s.setCtx { s.ctx with long := true }
/-- The address of a byte of a shelf of cluster 0. -/
def pan (shelf off : Nat) : Word := BitVec.ofNat 64 (0xFF * 2 ^ 48 + shelf * 2 ^ 18 + off)
/-- Key 0 maps the first GiB of global addresses for reading and writing, and the second for reading and execution. -/
def mapped (s : State) : State :=
  let s := s.setReg 0 0x10000 (BitVec.ofNat 64 (2 ^ 63 + 0xBF00000000))
  let s := s.pokeNat (gloc 0 0xBF00000000) 8 (0xBF00010000 + 3)
  let s := s.pokeNat (gloc 0 0xBF00010000) 8 (0x8000000000 + 0x2F)
  s.pokeNat (gloc 0 0xBF00010008) 8 (0x8040000000 + 0x37)
/-- A drain of the issuing core is not acknowledged (R224). -/
def draining (s : State) : State := s.modCore (coreOf s.site) fun c => { c with unacked := 1 }
/-- The issuing context runs a speculative ordered task (R330). -/
def speculating (s : State) : State :=
  s.setCtx { s.ctx with ord := 9#48, act := { s.ctx.act with kind := .task } }

/-! ## Witnesses: registers, results, control, system -/

/-- Registers at the edges of their numbers: g0, g31, k0, k7. -/
theorem witness_RegistersReadBack : (0 < 8 ∧ 7 < 8) ∧ ((bench []).putG 31#5 5#64 2).g 31#5 = 5#64 ∧ ((bench []).putK 7 9#512).k 7 = 9#512 := by decide +kernel
/-- Sources at the edges: the least integer and −1. -/
theorem witness_AluResults : Ready (bench [(1, 0x8000000000000000#64), (2, 0xFFFFFFFFFFFFFFFF#64)]) (gs [1#5, 2#5]) ∧
    gives (.aluMin 0#3 31#5 1#5 2#5) (bench [(1, 0x8000000000000000#64), (2, 0xFFFFFFFFFFFFFFFF#64)])
      (unitDone (bench [(1, 0x8000000000000000#64), (2, 0xFFFFFFFFFFFFFFFF#64)]) 1 0#3
        ((bench [(1, 0x8000000000000000#64), (2, 0xFFFFFFFFFFFFFFFF#64)]).putG 31#5 0x8000000000000000#64 1)) = true := by decide +kernel
theorem witness_MulDivResults : Ready (bench [(1, 0x8000000000000000#64)]) (gs [1#5, 0#5]) ∧ 8 ≤ (8#7).toNat ∧ isModWord 0xFD000000#32 = true ∧
    (0xFD000000#32).setWidth 11 = 0#11 := by decide +kernel
/-- A MOD prefix that saturates and negates, and a MOD prefix before CMOV. -/
def someMod : Mod := { sat := true, neg := true, abs := false, clamp := 3#2, scale := 0x1F#5, nega := true, negb := false, absa := true, absb := false, lit := 0x00100200#32 }
theorem witness_ScalarModResults : ({ mask := none, mod := some someMod } : Pre).mod = some someMod ∧ Ready (bench [(1, 5#64)]) (gs [1#5, 2#5]) := by decide +kernel
theorem witness_BitResults : Ready (bench [(1, 1#64), (2, 0x3F3F#64)]) (gs [1#5, 2#5]) ∧ Ready (bench [(1, 1#64)]) (gs [3#5]) ∧ 14 ≤ (14#7).toNat ∧
    (10#7).toNat < 11 ∧ 31#5 ≠ 0#5 ∧ isModWord 0xFC000000#32 = true ∧ (0xFC000000#32).setWidth 11 = 0#11 := by decide +kernel
theorem witness_ImmediateResults : Ready (bench [(1, 1#64)]) (gs [1#5]) ∧ Ready (bench [(1, 1#64)]) (gs [31#5]) := by decide +kernel
theorem witness_ScalarFrame : scalarDest (.addi 0#3 3#5 1#5 0x800#12) = some 3#5 ∧ runs (.addi 0#3 3#5 1#5 0x800#12) (bench [(1, 1#64)]) = true := by decide +kernel
theorem witness_ControlTransfer : Ready (bench [(1, 1#64), (2, 1#64)]) (gs [1#5, 2#5]) := by decide +kernel
/-- Vector sources in short and in long mode, with a mask. -/
theorem witness_VectorIntegerResults :
    Ready (bench []) (vs (bench []) { mask := some 7#3, mod := none } [1#5, 2#5]) ∧ Ready (longer (bench [])) (vs (longer (bench [])) Pre.none [15#5]) := by decide +kernel
theorem witness_VectorIntegerResults_logic : Ready (bench []) (vs (bench []) { mask := some 0#3, mod := none } [31#5, 0#5]) := by decide +kernel
theorem witness_VectorCompareResults : Ready (longer (bench [])) (vs (longer (bench [])) { mask := some 1#3, mod := none } [15#5, 0#5]) := by decide +kernel
theorem witness_VectorFloatResults :
    Ready (bench []) (vs (bench []) { mask := none, mod := some someMod } [1#5, 2#5]) ∧ Ready (bench []) (vs (bench []) Pre.none [3#5]) := by decide +kernel
theorem witness_VectorConvertResults :
    Ready (bench []) (vs (bench []) Pre.none [1#5]) ∧ Ready (longer (bench [])) (vs (longer (bench [])) { mask := some 2#3, mod := none } [1#5]) := by decide +kernel
theorem witness_VectorMoveResults : Ready (longer (bench [])) (vs (longer (bench [])) Pre.none [1#5, 2#5]) ∧ Ready (longer (bench [])) (vs (longer (bench [])) Pre.none [3#5]) ∧
    Ready (longer (bench [])) (gs [31#5]) ∧ Ready (longer (bench [])) [(.v, 31)] ∧ Ready (longer (bench [])) [(.w, 15)] := by decide +kernel
theorem witness_VectorMoveResults_masks : Ready (bench [(1, 512#64)]) [(.k, 7), (.k, 0)] ∧ Ready (bench [(1, 512#64)]) (gs [1#5]) := by decide +kernel

/-- All four slots of the first quad are taken. -/
def slotsTaken (s : State) : State := s.modClu 0 fun c => { c with longSlots := [(0, 9), (1, 10), (2, 11), (3, 12)] }
/-- Short mode: nobody waits, slot 3 is the first free one; or none is. Long mode holds a slot. -/
theorem witness_VmodeResults :
    (longer (bench [])).ctx.long = true ∧ (bench []).ctx.long = false ∧
    ((bench []).slotWaiters (quadOf (bench []).site)).any (fun w => State.slotBefore w ((bench []).waitNow.cycle, (bench []).site) && w.2 != (bench []).site) = false ∧
    (let s := (bench []).modClu 0 fun c => { c with longSlots := [(0, 9), (1, 10), (2, 11)] }
     SMap.get 0 (s.cluAt 0).longSlots 3 = 0 ∧ ∀ j < 3, SMap.get 0 (s.cluAt 0).longSlots j ≠ 0) ∧
    (∀ i < 4, SMap.get 0 ((slotsTaken (bench [])).cluAt 0).longSlots i ≠ 0) ∧
    (let s := { (bench []) with cycle := 5, parked := [(1, { Ctx.reset with st := .waiting, wait := some { cycle := 3, tick := 0, stage := State.slotStage } })] }
     (s.slotWaiters 0).any (fun w => State.slotBefore w (s.waitNow.cycle, s.site) && w.2 != s.site) = true ∧ SMap.get 0 (s.cluAt 0).longSlots 0 = 0 ∧
       s.allReady ≤ s.cycle ∧ s.ctx.long = false ∧ (out (.vmodeLong 0#3) s).ctx.long = false ∧ (out (.vmodeLong 0#3) s).ctx.st = .waiting) ∧
    ((bench []).allReady ≤ (bench []).cycle ∧
      (let s := (bench []).setCtx { (bench []).ctx with pend := [{ file := .w, num := 1, old := 0#4096, ready := 3 }] }
       s.cycle < s.allReady)) := by decide +kernel
theorem witness_VectorFrame : vecDest (bench []) (.vaddiAdd Pre.none 0#3 31#5 1#5 2#5 7#3) = some (.v, 31#5) ∧
    runs (.vaddiAdd Pre.none 0#3 31#5 1#5 2#5 7#3) (bench []) = true := by decide +kernel
theorem witness_SystemReads : 31 < 32 ∧ Ready (bench [(1, 3#64)]) (gs [1#5]) := by decide +kernel
/-- The last shelf's mode register: another mode, the same mode, and the reserved code; and a register marked P without privilege. -/
theorem witness_SystemWrites : Ready (bench [(1, 0#64)]) (gs [1#5]) ∧ (bench [(1, 0#64)]).privileged = true ∧ (lowly (bench [])).privileged = false ∧
    ((bench [(1, 0#64)]).shelfAt 31).target = none ∧ ((bench [(1, 0#64)]).g 1#5).toNat % 4 = ShelfMode.num .scratch ∧ ShelfMode.scratch ≠ ((bench []).shelfAt 31).mode ∧
    ((bench [(1, 1#64)]).g 1#5).toNat % 4 = ShelfMode.num .cache ∧ ShelfMode.cache = ((bench []).shelfAt 31).mode ∧ ((bench [(1, 3#64)]).g 1#5).toNat % 4 = 3 := by decide +kernel

/-- A context with a trap handler. -/
def handled (s : State) : State := s.setCtx { s.ctx with trapvec := 0x4000#64 }
theorem witness_TrapEntry : ((handled (bench [])).ctx.trapvec ≠ 0#64 ∧ (handled (bench [])).ctx.inh = false ∧ (0x06#8 : Byte) ≠ 0x13#8 ∧ (0x06#8 : Byte) ≠ 0x0F#8) ∧
    ((bench []).ctx.trapvec = 0#64 ∨ (bench []).ctx.inh = true) ∧ ((bench []).takeTrap 0x06#8 3#64).ctx.st = .dormant := by decide +kernel
/-- A ring with room, and one that is full: LOGLOG 10 and HEAD at 1,024. -/
theorem witness_FaultRecordWritten : 3 < 4 ∧ 2 ^ 48 - 1 < 2 ^ 48 ∧
    (let c := (bench []).reg 3 0x5000
     c.getLsbD 63 = false ∧ ((bench []).reg 3 0x5008).toNat < 2 ^ (max 10 (min 24 (c.toNat % 32))) ∧
       2 ^ (max 10 (min 24 (c.toNat % 32))) ≤ (((bench []).setReg 3 0x5008 1024#64).reg 3 0x5008).toNat) := by decide +kernel

/-- A result that the scoreboard tracks, in g1, still to come. -/
def tracked1 : State := (bench []).setCtx { (bench []).ctx with pend := [{ file := .g, num := 1, old := 0#4096, ready := 3, tracked := true }] }
/-- A result of latency 3 in g1 that is not readable yet, with checking on. -/
def early1 : State := (bench []).setCtx { (bench []).ctx with chksb := true, pend := [{ file := .g, num := 1, old := 0#4096, ready := 3 }] }
theorem witness_SystemUnits : (State.isService (bench []).ctx = true ∨ (bench []).bpTest (bench []).site (bench []).ctx.tag.toNat [(5, 77)] 1 = none) ∧
    early1.ctx.chksb = true ∧ early1.awaited (gs [1#5, 2#5]) = none ∧ early1.tooEarly (gs [1#5, 2#5]) = some (.g, 1) ∧ tracked1.awaited (gs [2#5, 1#5]) = some 3 ∧
    (let s := (bench []).setCtx { (bench []).ctx with chksb := true, pend := [{ file := .v, num := 1, old := 0#4096, ready := 3 }] }
     s.tooEarly (vs s Pre.none [2#5, 1#5]) = some (.v, 1)) ∧
    early1.ctx.pend = [{ file := .g, num := 1, old := 0#4096, ready := 3 }] ∧ early1.cycle < 3 := by decide +kernel

/-! ## Witnesses: frames, the end of an activation, memory -/

/-- Code words at the program counter, which lies in the mapped page for execution. -/
def coded (xs : SMap Word) (ws : List IWord) : State :=
  let s := mapped (bench xs)
  (s.setCtx { s.ctx with pc := 0x40000000#56 }).poke (gloc 0 0x8040000000) (ws.flatMap fun w => natToBytes 4 w.toNat)
/-- A frame of one unit: ADD g3, g1, g2. -/
def oneUnit : Frame := { act := true, wrap := false, sb := 0#4, sa := 1#4, sd := 1#4, len := 0#4, pidx := 0#5, uidx := 0#4, left := 2#32 }
/-- That unit. -/
def unit1 : Instr := .aluAdd Pre.none 0#3 3#5 2#5 2#5
/-- RPT captures the unit after it, for two passes and for none; a jump may not stand in a frame. -/
theorem witness_RepeatFrames :
    Ready (coded [(9, 2#64)] [0x32124221#32, 0x02062100#32]) (gs [9#5]) ∧
    ((match (coded [(9, 2#64)] [0x32120220#32, 0x02062100#32]).captureFrame oneUnit 0x40000004 0 2 with | .units us _ _ => us.length == 1 | _ => false) = true) ∧
    ((match (coded [] [0x32120220#32, 0x02062100#32]).captureFrame { oneUnit with left := 0#32 } 0x40000004 0 0 with | .units us _ _ => us.length == 1 | _ => false) = true) ∧
    ((match (coded [(9, 2#64)] [0x32120220#32, 0x2E3C0040#32]).captureFrame oneUnit 0x40000004 0 2 with | .fault c _ _ => c == 0x05#8 | _ => false) = true) ∧
    (let c : Ctx := { Ctx.reset with frm := { oneUnit with len := 1#4 } }
     c.frm.uidx ≠ c.frm.len ∧ ({ c with frm := oneUnit } : Ctx).frm.uidx = oneUnit.len ∧ oneUnit.left ≠ 1#32 ∧ ({ oneUnit with left := 1#32 } : Frame).left = 1#32) ∧
    (let s := coded [(9, 2#64)] [0x32120220#32, 0x02062100#32]
     match s.capture 0x40000004 0 [] 1 with
     | .units xs _ _ => xs.all (fun x => frameUnit x.2) && decide (xs.filterMap (·.1) = [unit1]) && (List.range 2).all (fun p => (passFault false oneUnit p unit1).isNone)
     | _ => false) = true ∧
    (31 < 32 ∧ 0 < 32) := by decide +kernel
/-- The last pass of a frame of that unit, whose fields have gone round: d from 31 to 0, a from 31 to 1. -/
def third (i : Instr) : State := (bench []).setCtx { (bench []).ctx with frm := { oneUnit with sa := 2#4, pidx := 1#5 }, buf := [i] }
theorem witness_RepeatFrames_pass :
    (let i : Instr := .aluAdd Pre.none 0#3 31#5 31#5 2#5
     let j : Instr := .aluAdd Pre.none 0#3 0#5 1#5 2#5
     let s := third i
     let x := encodeBase i
     let y := encodeBase j
     let p := s.ctx.frm.pidx.toNat
     s.ctx.frm.act = true ∧ s.ctx.susp = false ∧ s.ctx.buf[s.ctx.frm.uidx.toNat]? = some i ∧ (s.ctx.wait.map (·.verdict)).getD 0 = 0 ∧ s.overrun = false ∧
       s.ctx.wait.bind (·.gone) = none ∧ s.addressHit = none ∧ y.toNat / 2 ^ 17 % 32 = (x.toNat / 2 ^ 17 % 32 + p * s.ctx.frm.sd.toNat) % 32 ∧
       y.toNat / 2 ^ 12 % 32 = (x.toNat / 2 ^ 12 % 32 + p * s.ctx.frm.sa.toNat) % 32 ∧ y.toNat / 2 ^ 7 % 32 = (x.toNat / 2 ^ 7 % 32 + p * s.ctx.frm.sb.toNat) % 32 ∧
       y.toNat / 2 ^ 22 = x.toNat / 2 ^ 22 ∧ y.toNat % 2 ^ 7 = x.toNat % 2 ^ 7 ∧ (match decodeShape s.ctx.long i.pre y 0#32 with | .ok (some k) => k == j | _ => false) = true) := by decide +kernel

/-- A reply on its way to the issuing context. -/
def awaiting (s : State) : State := s.modPkg fun p => { p with results := [(s.site, { token := 7, status := 0, value := 0#64 })] }
theorem witness_ActivationEnds :
    ((bench []).resultsOut (bench []).site = false ∧ (bench []).drainsOut = false ∧ (bench []).thetaHeld = false) ∧ (awaiting (bench [])).resultsOut (awaiting (bench [])).site = true ∧
    (draining (bench [])).drainsOut = true ∧
    (let s := bench [(1, pan 0 0)]
     let r := s.reach .write 0 (s.g 1#5) 8 8 [(0, 8)]
     let u := reached r s
     Ready s (gs [1#5]) ∧ goes r = true ∧ runsOf r = [(ploc 0 0 0, 8)] ∧ u.inFifo (ploc 0 0 0) = false ∧ u.speculative = false ∧ u.endHeld = false ∧
       (u.sendDecrement (ploc 0 0 0)).endHeld = false) := by
  decide +kernel

/-- Pantry line 0 of shelf 0 has lost its data. -/
def lost (s : State) : State := s.modPkg fun p => { p with bad := [(lineOf (ploc 0 0 0), true)] }
/-- MISALIGNED; the windows' faults at their edges; faults of a piece: a CACHE shelf, in a vector's second lane; an uncorrectable line, of a load. -/
theorem witness_AccessFaults :
    (let s := bench [(1, pan 0 1), (2, BitVec.ofNat 64 (2 ^ 56)), (3, BitVec.ofNat 64 (0xFE * 2 ^ 48 - 4)), (4, pan 3 0)]
     Ready s (gs [1#5, 2#5]) ∧ (s.g 1#5 + (0#7).signExtend 64 * 8#64).toNat % 8 ≠ 0 ∧ (s.g 1#5).toNat % 4 ≠ 0 ∧
       (s.g 2#5).toNat % 8 = 0 ∧ s.headFault s.me 0 (s.g 2#5) 8 = some 0x08#8 ∧ 2 ^ 56 ≤ (s.g 2#5).toNat ∧
       (s.g 3#5).toNat < 2 ^ 56 ∧ window (s.g 3#5).toNat ≠ window ((s.g 3#5).toNat + 8 - 1) ∧
       (s.g 4#5).toNat % 8 = 0 ∧ s.headFault s.me 0 (s.g 4#5) 8 = none ∧ s.fifoAt 0 (s.g 4#5) 8 8 = none ∧
       s.place s.me .read 0 (s.g 4#5).toNat 0 = .fault 0x09#8 ∧ s.place s.me .write 0 (s.g 4#5).toNat 0 = .fault 0x09#8 ∧
       s.place s.me .both 0 (s.g 4#5).toNat 0 = .fault 0x09#8) ∧
    (let s := mapped (bench [(1, 0x3FFFFFF8#64), (2, 1#64)])
     let ps := activePieces 8 0 (lanesOn s Pre.none 8)
     Ready s ((File.g, 1) :: State.maskSrc Pre.none) ∧ Ready s ([(.g, 1), (s.vf, 3)] ++ State.maskSrc Pre.none) ∧ Ready s [(.g, 1), (s.vf, 3)] ∧ Ready s (gs [1#5, 2#5]) ∧
       Ready s (gs [3#5]) ∧ s.waitNow.stage ≠ State.replyStage ∧ (s.g 1#5).toNat % 8 = 0 ∧ s.headFault s.me 0 (s.g 1#5) s.vbytes = none ∧
       s.fifoAt 0 (s.g 1#5) 8 s.vbytes = none ∧ s.shelfBusy 0 (s.g 1#5) 8 s.vbytes = false ∧ (ps.getD 1 (0, 0)).1 = 8 ∧ 1 < ps.length ∧
       (match s.place s.me .write 0 (s.g 1#5).toNat 0 with | .at .. => true | _ => false) = true ∧
       (match s.place s.me .write 0 ((s.g 1#5).toNat + 8) 1 with | .fault c => c == 0x09#8 | _ => false) = true ∧
       (out (.vst Pre.none 0#3 3#5 1#5 3#3 0#2 0#7) s).ctx.trapval = 0x40000000#64) ∧
    (let s := lost (bench [(1, pan 0 0)])
     (s.g 1#5).toNat % 4 = 0 ∧ s.headFault s.me 0 (s.g 1#5) 4 = none ∧ (match s.place s.me .both 0 (s.g 1#5).toNat 0 with | .at l _ => l == ploc 0 0 0 | _ => false) = true ∧
       s.mediaFault (decide (Need.both ≠ .write)) [(ploc 0 0 0, 4)] = some (0, 0x0F#8) ∧ (out (.amoXor 0#3 3#5 1#5 2#5 0#1) s).ctx.cause = 0x0F#8) ∧
    (let s := mapped (bench [(1, 0x1000#64)])
     goes (s.reach .read 0 (s.g 1#5) 8 8 [(0, 8)]) = true ∧ runsOf (s.reach .read 0 (s.g 1#5) 8 8 [(0, 8)]) = [(gloc 0 0x8000001000, 8)]) := by decide +kernel

/-- Global memory and the pantry, at the last bytes of each: LD and LDT of 8 bytes, VLD in short mode, VLDX of two lanes. -/
def loads : State := (mapped (bench [(1, 0x3FFFFFE0#64), (2, pan 1 0x3FFF8)])).setCtx
  { (mapped (bench [(1, 0x3FFFFFE0#64), (2, pan 1 0x3FFF8)])).ctx with k := [(1, 5#512)], v := [(4, 0x10000000000000008#256)] }
theorem witness_LoadResults :
    (let s := loads
     let r := s.reach .read 0 (mAt s 2#5 0#7 8) 8 8 [(0, 8)]
     Ready s (gs [2#5]) ∧ Ready s (gs [2#5, 3#5]) ∧ s.fifoAt 0 (mAt s 2#5 0#7 8) 8 8 = none ∧ goes r = true ∧ Free (reached r s) (runsOf r) ∧
       (reached r s).inSlots ((runsOf r).getD 0 (0, 0)).1 = false) ∧
    (let s := loads
     let p : Pre := { mask := some 1#3, mod := none }
     let r := s.reach .read 0 (mAt s 1#5 0#7 s.vbytes) 8 s.vbytes (activePieces 8 0 (lanesOn s p 8))
     Ready s ((File.g, 1) :: State.maskSrc p) ∧ s.fifoAt 0 (mAt s 1#5 0#7 s.vbytes) 8 s.vbytes = none ∧
       s.shelfBusy 0 (mAt s 1#5 0#7 s.vbytes) 8 s.vbytes = false ∧ goes r = true ∧ (runsOf r).length = 2 ∧ Free (reached r s) (runsOf r)) ∧
    (let s := loads
     let r := s.reachLanes .read 8 0 (State.laneAddrs (s.g 1#5) (s.vcur 4#5) 8 0 false 0 ((List.range (s.vbytes / 8)).map fun i => (s.k 1).getLsbD i))
     Ready s [(.g, 1), (s.vf, 4), (.k, 1)] ∧ goes r = true ∧ (runsOf r).length = 2 ∧ Free (reached r s) (runsOf r)) := by decide +kernel

/-- A range of one FP32 line and a bound of 1, declared at global address 0x1000. -/
def ranged (s : State) : State :=
  s.setRange 5 (some { base := 0x1000#64, len := 128, fmt := .f32, bound := 0x3F800000#64, key := 0, mkid := 0, lines := [lineOf (gloc 0 0x8000001000)] })
theorem witness_StoreResults :
    (let s := loads
     let r := s.reach .write 0 (mAt s 2#5 0#7 8) 8 8 [(0, 8)]
     Ready s (gs [2#5, 3#5]) ∧ s.fifoAt 0 (mAt s 2#5 0#7 8) 8 8 = none ∧ goes r = true ∧ Free (reached r s) (runsOf r) ∧ (reached r s).speculative = false) ∧
    (let s := loads
     let p : Pre := { mask := some 1#3, mod := none }
     let r := s.reach .write 0 (mAt s 1#5 0#7 s.vbytes) 8 s.vbytes (activePieces 8 0 (lanesOn s p 8))
     Ready s ([(.g, 1), (s.vf, 4)] ++ State.maskSrc p) ∧ goes r = true ∧ (runsOf r).length = 2 ∧ Free (reached r s) (runsOf r)) ∧
    (let s := loads
     let r := s.reachLanes .write 8 0 (State.laneAddrs (s.g 1#5) (s.vcur 4#5) 8 0 false 0 ((List.range (s.vbytes / 8)).map fun i => (s.k 1).getLsbD i))
     Ready s [(.g, 1), (s.vf, 4), (s.vf, 3), (.k, 1)] ∧ goes r = true ∧ Free (reached r s) (runsOf r)) ∧
    (let s := ranged (mapped (bench [(1, 0x1000#64), (3, 0x40000000#64)]))
     let r := s.reach .write 0 (mAt s 1#5 0#7 4) 4 4 [(0, 4)]
     let q := s.reach .write 0 (mAt s 1#5 0#7 s.vbytes) 4 (4 * 8) ((upto 0 8).map fun i => (i * 4, 4))
     (reached r s).rangeAt (lineOf ((runsOf r).getD 0 (0, 0)).1) = (s.range 5).map (5, ·) ∧ (s.range 5).map (·.freeing) = some false ∧ (∀ x ∈ runsOf r, lineOf x.1 ∈ [lineOf (gloc 0 0x8000001000)]) ∧
       2 ^ (2#2 : BitVec 2).toNat = RFmt.width .f32 ∧ (reached r s).anyHeld (runsOf r) = false ∧ Ready s (gs [1#5, 3#5]) ∧ goes r = true ∧
       Ready s [(.g, 1), (s.vf, 3)] ∧ goes q = true ∧ (∀ x ∈ runsOf q, lineOf x.1 ∈ [lineOf (gloc 0 0x8000001000)])) := by decide +kernel

/-- Plain storage: a pantry slot; and bytes for the runs. -/
theorem witness_StoredBytes : (∀ r ∈ [(ploc 0 0 0, 2)], 0 < r.2 ∧ ∀ a ∈ [ploc 0 0 0, ploc 0 0 1], ctlOf a = none ∧ poolOf a = none ∧
      SMap.get [] (bench []).pkg.hist a = [] ∧ SMap.get false (bench []).pkg.bad (lineOf a) = false) ∧
    (([(ploc 0 0 0, 2)] : List (Nat × Nat)).map (·.2)).sum ≤ ([1#8, 2#8] : List Byte).length := by decide +kernel
/-- ST runs, on plain storage and on a FIFO; it waits on a full one. -/
theorem witness_StoreFrame :
    (let s := loads
     let r := s.reach .write 0 (mAt s 2#5 0#7 8) 8 8 [(0, 8)]
     Ready s (gs [2#5, 3#5]) ∧ runs (.st 0#3 3#5 2#5 3#3 0#2 0#7) s = true ∧ goes r = true ∧ s.fifoAt 0 (mAt s 2#5 0#7 8) 8 8 = none) ∧
    (let s := bench [(1, pan 2 128)]
     s.fifoAt 0 (mAt s 1#5 0#7 8) 8 8 = some 2 ∧ runs (.st 0#3 3#5 1#5 3#3 0#2 0#7) s = true ∧ SMap.get false s.pkg.bad 0 = false) := by decide +kernel

/-- The FIFO shelf with n slots in it, and the address of its first slot in g1. -/
def fifo (n : Nat) : State := (bench [(1, pan 2 128)]).pokeNat (ploc 0 2 8) 8 n
/-- A FIFO with four slots, an empty one, a full one and one that has room. -/
theorem witness_FifoResults :
    (fifo 4).fifoAt 0 (mAt (fifo 4) 1#5 0#7 8) 8 8 = some 2 ∧ (fifo 4).fifoAt 0 (mAt (fifo 4) 1#5 0#7 32) 8 32 = some 2 ∧
    Ready (fifo 4) (gs [1#5, 3#5]) ∧ Ready (fifo 4) ([(.g, 1), ((fifo 4).vf, 3)] ++ State.maskSrc Pre.none) ∧
    ((fifo 4).drainsOut = false ∧ (fifo 4).speculative = false ∧ (fifo 4).vbytes / 8 ≤ (fifo 4).fifoCount 2) ∧ ¬ 1 ≤ (fifo 0).fifoCount 2 ∧
    ((fifo 4).popBad 2 0 = false ∧ (fifo 4).popBad 2 1 = false ∧ (fifo 4).popBad 2 4 = false ∧
      (let s := (fifo 4).modPkg fun p => { p with bad := [(lineOf (ploc 0 2 0), true)] }
       s.popBad 2 0 = true ∧ (out (.ld 0#3 3#5 1#5 3#3 0#2 0#7) s).ctx.cause = 0x0F#8) ∧
      (let s := (fifo 4).modPkg fun p => { p with bad := [(lineOf (ploc 0 2 128), true)] }
       s.popBad 2 0 = false ∧ s.popBad 2 1 = true ∧ s.popBad 2 4 = true ∧ s.fifoHead 2 = 0 ∧ s.lineHeld (lineOf (ploc 0 2 128)) = false)) ∧
    (fifo 32748).fifoCount 2 + 4 ≤ State.fifoCap 2 ∧ ¬ (fifo 32752).fifoCount 2 + 1 ≤ State.fifoCap 2 ∧
    (let s := lowly ((bench [(1, pan 3 0x35FF8)]).modClu 0 fun c => { c with shelves := [(3, { mode := .fifo })] })
     s.fifoAt 0 (mAt s 1#5 0#7 32) 8 32 = some 3 ∧ s.fifoPast 3 (mAt s 1#5 0#7 32) (activePieces 8 0 (lanesOn s Pre.none 8)) = some (pan 3 0x36000)) := by decide +kernel

/-! ## Witnesses: atomics, ranges, transfers, pages -/

/-- Eight bytes at a place of the pantry. -/
def holding (s : State) (off n : Nat) : State := s.pokeNat (ploc 0 0 off) 8 n
/-- A context that runs a service activation; one whose AMSG has been answered. -/
def serving (s : State) : State := s.setCtx { s.ctx with act := { s.ctx.act with kind := .amsg } }
def answered (s : State) (st : Nat) : State :=
  s.setCtx { s.ctx with wait := some { cycle := 0, tick := 0, token := 7, stage := 2 }, replies := [{ token := 7, status := st, value := 5#64 }] }
/-- FENCE.DRAIN waits for the lines it has listed. -/
def drainWait (s : State) : State := s.setCtx { s.ctx with wait := some { cycle := 0, tick := 0, stage := 1, data := [] } }

theorem witness_AmoResults :
    (let s := holding (bench [(1, pan 0 0), (2, BitVec.ofNat 64 (2 ^ 63)), (6, 0xFFFFFFFFFFFFFFFF#64)]) 0 (2 ^ 64 - 1)
     let r := s.reach .both 0 (s.g 1#5) 8 8 [(0, 8)]
     let u := reached r s
     Ready s (gs [1#5, 2#5]) ∧ Ready s (gs [6#5]) ∧ goes r = true ∧ runsOf r = [(ploc 0 0 0, 8)] ∧ Free u (runsOf r) ∧ u.speculative = false ∧
       u.inFifo (ploc 0 0 0) = false ∧ (u.serviceFree (u.owner (ploc 0 0 0))).isSome = true) ∧
    (let s := mapped (bench [(1, 0x3FFFFFFC#64)])
     let r := s.reach .both 0 (s.g 1#5) 4 4 [(0, 4)]
     let u := reached r s
     Ready s (gs [1#5, 2#5]) ∧ goes r = true ∧ (runsOf r).length = 1 ∧ Free u (runsOf r) ∧ u.speculative = false ∧
       u.inFifo ((runsOf r).getD 0 (0, 0)).1 = false ∧ (u.serviceFree (u.owner ((runsOf r).getD 0 (0, 0)).1)).isSome = true) ∧
    (let s := answered (bench [(1, pan 0 0)]) 0
     Ready s (gs [1#5, 2#5]) ∧ s.waitNow.stage = 2 ∧ (s.replyOf s.waitNow.token).isSome = true) ∧
    (let s := (bench [(1, pan 0 0)]).modCore 0 fun c => { c with inbox := [(12, [{ dst := 3, src := 0, kind := .amo }])] }
     let r := s.reach .both 0 (s.g 1#5) 8 8 [(0, 8)]
     let u := reached r s
     s.waitNow.stage ≠ 2 ∧ runsOf r = [(ploc 0 0 0, 8)] ∧ Free u (runsOf r) ∧ u.speculative = false ∧ u.inFifo (ploc 0 0 0) = false ∧ State.isService u.ctx = false ∧
       u.serviceFree (u.owner (ploc 0 0 0)) = none) := by decide +kernel

theorem witness_FencesAndHints :
    (let s := answered (bench [(1, pan 0 0)]) 0
     Ready s ([(.g, 3), (.g, 1)] ++ State.runSrcs 8#5 7) ∧ s.ctx.wait = some { cycle := 0, tick := 0, token := 7, stage := 2 } ∧
       s.replyOf 7 = some { token := 7, status := 0, value := 5#64 } ∧ (answered s 0x18).replyOf 7 = some { token := 7, status := 0x18, value := 5#64 }) ∧
    (let s := serving (bench [(1, pan 0 0)])
     s.ctx.wait = none ∧ State.isService s.ctx = true) ∧
    (let s := bench [(1, pan 0 0)]
     let r := s.reach .both 0 (s.g 1#5) 8 8 [(0, 8)]
     s.ctx.wait = none ∧ State.isService s.ctx = false ∧ goes r = true ∧ runsOf r = [(ploc 0 0 0, 8)] ∧ (reached r s).inFifo (ploc 0 0 0) = false ∧
       Quiet (reached r s)) ∧
    ((bench []).drainsOut = false ∧ (draining (bench [])).drainsOut = true ∧ (bench []).myXfers = [] ∧ (bench []).drainSet 2 = [] ∧ (bench []).drainSet 6 = []) ∧
    ((drainWait (bench [])).drainsOut = false ∧ (drainWait (bench [])).ctx.wait = some { cycle := 0, tick := 0, stage := 1, data := [] }) ∧
    (let s := mapped (bench [(1, 0x1000#64), (2, pan 0 0)])
     s.hintLoc (mAt s 1#5 0x7F#7 128) = some (gloc 0 0x8000000F80) ∧ s.hintLoc (mAt s 2#5 0#7 128) = none) := by decide +kernel

/-- A descriptor of one line at 0x1000, FP32, bound 1, at 0x2000; g2 holds a bound and g5 the handle 5. -/
def describing (len : Nat) : State :=
  let s := mapped (bench [(1, 0x2000#64), (2, 0x40000000#64), (5, 5#64)])
  s.poke (gloc 0 0x8000002000) (natToBytes 8 0x1000 ++ natToBytes 8 len ++ natToBytes 8 2 ++ natToBytes 8 0x3F800000)
/-- The state after the descriptor is read, and that after the range's lines are reached. -/
def descRuns (s : State) : State.Go := s.reach .read 0 (s.g 1#5) 32 32 [(0, 8), (8, 8), (16, 8), (24, 8)]
def descOf (s : State) : Option RDesc :=
  let r := descRuns s
  let bs := (atLoad (reached r s) (runsOf r)).rdRuns (runsOf r)
  let wd := fun (i : Nat) => BitVec.ofNat 64 (bytesToNat ((bs.drop (8 * i)).take 8))
  RDesc.ofWords (wd 0) (wd 1) (wd 2) (wd 3)
def lineRuns (s : State) : State.Go :=
  let r := descRuns s
  (afterLoad (reached r s) (runsOf r)).reach .write 0 0x1000#64 1 128 (crateParts 0x1000 0 128 258) 8
/-- All 256 handles are taken, by ranges elsewhere. -/
def rangesFull (s : State) : State := s.modPkg fun p => { p with ranges := (upto 0 256).map fun h =>
  (h, some { base := 0x5000#64, len := 128, fmt := .f32, bound := 0x3F800000#64, key := 0, mkid := 0, lines := [lineOf (gloc 0 0x8000005000) + h] }) }
theorem witness_RangeResults_full :
    (let s := rangesFull (describing 128)
     let v := reached (lineRuns s) s
     goes (descRuns s) = true ∧ Free (reached (descRuns s) s) (runsOf (descRuns s)) ∧ (descOf s).isSome = true ∧ goes (lineRuns s) = true ∧ v.drainsOut = false ∧
       (∀ l ∈ State.wholeLines (runsOf (lineRuns s)), v.lineHeld l = false ∧ v.rangeAt l = none) ∧ (∀ h < 256, (v.range h).isSome = true) ∧
       (out (.rangeDecl 0#3 3#5 1#5) s).g 3#5 = 0x0100000000000000#64) := by decide +kernel
theorem witness_RangeResults :
    (let s := describing 128
     let r := descRuns s
     let q := lineRuns s
     Ready s (gs [1#5, 2#5]) ∧ goes r = true ∧ Free (reached r s) (runsOf r) ∧ descOf (describing 64) = none ∧
       descOf s = some { base := 0x1000#64, len := 128, fmt := .f32, bound := 0x3F800000#64 } ∧ goes q = true ∧ (reached q s).drainsOut = false ∧
       (∀ l ∈ State.wholeLines (runsOf q), (reached q s).lineHeld l = false ∧ (reached q s).rangeAt l = none) ∧ (reached q s).range 0 = none) ∧
    (let s := ranged (describing 128)
     goes (lineRuns s) = true ∧ ∃ l ∈ State.wholeLines (runsOf (lineRuns s)), ((reached (lineRuns s) s).rangeAt l).isSome = true) ∧
    ((describing 128).myRange 5#64 = none ∧ (describing 128).rangeBusy 5 = false ∧ (describing 128).ctx.wait = none ∧
      (ranged (describing 128)).myRange 256#64 = none) ∧
    (let s := ranged (describing 128)
     s.myRange (s.g 5#5) = s.range 5 ∧ (s.range 5).map (·.freeing) = some false ∧ s.rangeBusy 5 = false ∧ RFmt.f32.boundOk (s.g 5#5) = true ∧
       RFmt.f32.boundOk 0xBF800000#64 = false ∧ s.drainsOut = false ∧ (s.rline (lineOf (gloc 0 0x8000001000))).sharers = [] ∧
       lineOf (gloc 0 0x8000001000) ∉ SMap.keys s.pkg.rlines) := by decide +kernel

/-- An FP32 tensor of `rows` rows of 8 elements at 0x4000. -/
def fp32 (rows : Nat) : TensorEntry :=
  [BitVec.ofNat 64 (2 ^ 63 + 0x4000), BitVec.ofNat 64 (8 + rows * 2 ^ 32), BitVec.ofNat 64 (1 + 2 ^ 32), 8#64, 0#64, 0#64, 0#64, 0#64]
/-- The same with 4-byte indices. -/
def u32 (rows : Nat) : TensorEntry := (fp32 rows).set 0 (BitVec.ofNat 64 (2 ^ 63 + 12 * 2 ^ 56 + 0x8000))
/-- XFER's block in g4 to g7: destination 1, source 2, indices 3; n rows. -/
def transfer (n : Nat) : State :=
  ((((mapped (bench [(4, 0x030201#64), (7, BitVec.ofNat 64 n)])).setTensor 1 (fp32 16)).setTensor 2 (fp32 16)).setTensor 3 (u32 16))
/-- The same with `k` transfers of the issuer that are not complete; and with an index 99 among those of SCATTER. -/
def transfers (k : Nat) : State := (transfer 4).modPkg fun p => { p with xfers := (upto 0 k).map fun i =>
  { id := i + 9, op := 0, site := 0, serial := 0, slot := i, ticket := 0x100 + i, key := 0, mkid := 0, priv := true, cls := 0, td := [], ts := [], ti := [],
    tout := [], x := 0, y := 0#64, p := 0#32, n := 0, handler := 0#64, idx := [], lines := [] } }
def farIndex : State := (transfer 4).pokeNat (gloc 0 0x8000008010) 8 99
/-- No line has a reservation. -/
theorem lineIds_of_none (s : State) (h : s.pkg.resv = []) : ∀ l, ∀ x ∈ s.lineIds l, s.isCommand x = true := by
  intro l x hx
  simp [State.lineIds, h] at hx
theorem witness_TransferResults_slots :
    (let s := transfers 16
     Ready s (State.runSrcs 4#5 4 ++ gs [8#5]) ∧ s.speculative = false ∧ s.drainsOut = false ∧ s.xferSlot = none ∧ (transfers 15).xferSlot = some 15 ∧
       State.xferCheck 2 (s.tensor 1) (s.tensor 2) (s.tensor 3) (s.tensor 0) 0 0#64 0#32 4 = none ∧ (out (.xferScatter 0#3 9#5 4#5 8#5) s).ctx.st = .waiting) ∧
    ((transfer 4).pkg.resv = [] ∧ farIndex.pkg.resv = [] ∧ 0 + 0 % 2 ^ 32 < Tensor.rows (fp32 16) ∧ ¬0 + 99 % 2 ^ 32 < Tensor.rows (fp32 16)) ∧
    (match (transfer 4).scatterIdx (u32 16) 0 4 with | .inl xs => xs == [0, 0, 0, 0] | _ => false) = true ∧
    (match farIndex.scatterIdx (u32 16) 0 4 with | .inl xs => xs == [0, 0, 99, 0] | _ => false) = true ∧
    (let r := farIndex.reach .read 0 (indexArea (u32 16) 2).addr 4 8 [(0, 4), (4, 4)] 8
     goes r = true ∧ Free (reached r farIndex) (runsOf r) ∧
       (match (afterLoad (reached r farIndex) (runsOf r)).scatterIdx (u32 16) 3 1 with | .inl xs => xs == [0] | _ => false) = true) ∧
    ((out (.xferScatter 0#3 9#5 4#5 8#5) (transfer 4)).g 9#5 = 16#64 ∧ (out (.xferScatter 0#3 9#5 4#5 8#5) farIndex).ctx.trapval = 0x1100000000000000#64) := by
  decide +kernel
theorem witness_TransferResults :
    (let s := transfer 4
     Ready s (State.runSrcs 4#5 4 ++ gs [8#5]) ∧ Quiet s ∧ s.xferSlot = some 0 ∧ (draining s).drainsOut = true ∧
       ((s.g 4#5).toNat / 2 ^ 32 = 0 ∧ (s.g 5#5).toNat / 2 ^ 48 = 0 ∧ (s.g 6#5).toNat / 2 ^ 48 = 0) ∧
       (∀ op ∈ [0, 1, 3], State.xferCheck op (s.tensor 1) (s.tensor 2) (s.tensor 3) (s.tensor 0) 0 0#64 0#32 4 = none) ∧
       State.xferCheck 5 (s.tensor 1) (s.tensor 2) (s.tensor 3) (s.tensor 0) 0 0#64 0x3F800000#32 4 = none ∧
       State.xferCheck 2 (s.tensor 1) (s.tensor 2) (s.tensor 3) (s.tensor 0) 0 0#64 0#32 4 = none ∧
       State.xferCheck 0 (s.tensor 1) (s.tensor 2) (s.tensor 3) (s.tensor 0) 0 0#64 0#32 17 = some 0x11) ∧
    (let x : XCmd := { id := 9, op := 0, site := 0, serial := 0, slot := 0, ticket := 0x100, key := 0, mkid := 0, priv := true, cls := 0, td := [], ts := [], ti := [],
                       tout := [], x := 0, y := 0#64, p := 0#32, n := 0, handler := 0#64, idx := [], lines := [] }
     let s := (bench [(1, 0x100#64)]).modPkg fun p => { p with xfers := [x] }
     let q := (bench [(1, 0x100#64)]).setCtx { (bench [(1, 0x100#64)]).ctx with xerrs := [{ ticket := 0x100, code := 0x11, addr := 0#64 }] }
     Ready s (gs [1#5]) ∧ s.xferPending (s.g 1#5) = true ∧ q.xferPending (q.g 1#5) = false ∧ q.drainsOut = false ∧
       (bench []).xferPending 0x100#64 = false ∧ (bench []).myXfers = [] ∧ (bench []).ctx.xerrs = []) := by decide +kernel

/-- Two faults to answer at 0x3000, for pages of key 0 and of key 1; a TLB with leaves of both keys; key 5 loaded on die 0. -/
def paged (xs : SMap Word) : State :=
  let s := (mapped (bench xs)).poke (gloc 0 0x8000003000) (natToBytes 8 0x50000 ++ natToBytes 8 0 ++ natToBytes 8 0x60000 ++ natToBytes 8 1)
  let s := s.modPkg fun p => { p with tlb := [{ key := 0, level := 0, page := 1, entry := 0#64 }, { key := 1, level := 0, page := 1, entry := 0#64 }] }
  s.modDie 0 fun x => { x with keys := [(5, .loaded)] }
theorem witness_PageResults :
    ((lowly (paged [])).privileged = false ∧ (paged []).privileged = true) ∧
    (let s := paged [(1, 0x1000#64), (2, 1#64)]
     let r := s.reach .read 0 (s.g 1#5) 1 1 [(0, 1)]
     let loc := ((runsOf r).getD 0 (0, 0)).1
     Ready s (gs [1#5, 2#5]) ∧ s.drainsOut = false ∧ s.ctx.wait = none ∧ goes r = true ∧ runsOf r = [(loc, 1)] ∧ isGlobal loc = true ∧
       (reached r s).drainsOut = false ∧ (SMap.get {} (reached r s).pkg.crates (crateOf loc)).flips = [] ∧ (∀ x ∈ (reached r s).pkg.resv, x.2.ids = []) ∧
       (reached r s).partsOut (fun l => isGlobal (l * 128) && crateOf (l * 128) == crateOf loc) = false) ∧
    ((0x3008#64 : Word).toNat % 16 ≠ 0 ∧ (0x3000#64 : Word).toNat % 16 = 0) ∧
    (let s := paged [(1, 0x3000#64), (2, 2#64)]
     let r := s.reachEntries (s.g 1#5) 2
     2 = min (s.g 2#5).toNat 4096 ∧ goes r = true ∧ Free (reached r s) (runsOf r) ∧ (afterLoad (reached r s) (runsOf r)).drainsOut = false) ∧
    (let s := (paged [(1, pan 0 0x3FFF0), (2, 2#64)]).modClu 0 fun c => { c with shelves := c.shelves ++ [(3, { mode := .scratch })] }
     goes (s.reachEntries (s.g 1#5) 2) = true ∧ runsOf (s.reachEntries (s.g 1#5) 2) = [(ploc 0 0 0x3FFF0, 16), (ploc 0 1 0, 16)]) ∧
    ((paged []).mkidBusy 5 = false ∧ (paged []).partsOut (State.ofMkid 5) = false ∧ SMap.get KeySt.none ((paged []).dieAt 0).keys 5 = .loaded) := by decide +kernel

/-! ## Witnesses: the matrix engine -/

/-- Cluster 0 with some pairs, and a lease held by the context at a site. -/
def arrayed (s : State) (ps : List Pair) (l : Option Nat) : State := s.modClu 0 fun c => { c with pairs := ps, lease := l }
/-- The issuing context alone claims, and holds the lease. -/
def leased (s : State) : State := arrayed s [{ primary := 0 }] (some 0)
/-- The answer of a try at leases. -/
def notTaken (r : Option Nat × State) : Bool := r.1.isSome

theorem witness_LeaseResults :
    (let s := bench [(1, 0x40#64)]
     s.site < 4096 ∧ s.drainsOut = false ∧ s.pairOf s.site = none ∧ ((s.addPair { primary := 0 } [0]).takeLeases 0 [0]).1 = none ∧ (s.takeLeases 0 [0]).1 = none ∧
       (s.cluAt 0).lease = none ∧ (s.claimants 0).filter (fun k => k.2.1 != s.site) = []) ∧
    (let s := arrayed (bench []) [{ primary := 1 }] (some 1)
     s.pairOf s.site = none ∧ s.drainsOut = false ∧ ((s.addPair { primary := 0 } [0]).takeLeases 0 [0]).1 = some 0 ∧ (s.takeLeases 0 [0]).1 = some 0) ∧
    (let s := leased (bench [])
     s.pairOf s.site = some { primary := 0 } ∧ (s.takeLeases 0 (State.membersOf { primary := 0 })).1 = none ∧ s.ctx.merrs = [] ∧ s.drainsOut = false ∧
       s.pairCmds { primary := 0 } = []) ∧
    (let s := arrayed (bench [(1, 1#64)]) [{ primary := 1 }] none
     Ready s (gs [1#5]) ∧ s.pairOf s.site = none ∧ 4 * coreOf s.site + (s.g 1#5).toNat % 4 = 1 ∧ s.pairOf 1 = some { primary := 1 } ∧ (1 ≠ s.site)) ∧
    ((arrayed (bench []) [{ primary := 1, partner := some 2 }] none).pairOf 1 = some { primary := 1, partner := some 2 } ∧
      (arrayed (bench []) [{ primary := 1, partner := some 2 }] none).pairOf 2 = some { primary := 1, partner := some 2 }) ∧
    (let s := bench []
     s.ctx.wait = none ∧ State.gangBaseOk 1 1 = false ∧ State.gangBaseOk 0 1 = true ∧ State.gangBaseOk 10 3 = false ∧ State.gangBaseOk 8 3 = true ∧
       (∀ m ∈ State.gangMembers s.die 0 1, (s.cluEn s.die).testBit (m % 16) = true) ∧ 0 ∈ State.gangMembers s.die 0 1 ∧ 0 ∉ State.gangMembers s.die 2 1 ∧
       ((s.addPair { primary := 0, gang := some (1, [0, 1]) } [0, 1]).takeLeases 0 [0, 1]).1 = none ∧ s.privileged = true ∧ (lowly s).privileged = false) ∧
    (let p : Pair := { primary := 0, gang := some (1, [0, 1]) }
     let s := (bench []).addPair p [0, 1]
     s.pairOf s.site = some p ∧ s.pairCmds p = [] ∧ s.drainsOut = false) := by decide +kernel

/-- An image at 0x2000. -/
def imaged (img : TensorEntry) : State := (mapped (bench [(1, 0x2000#64), (2, 255#64)])).poke (gloc 0 0x8000002000) (img.flatMap fun w => natToBytes 8 w.toNat)
theorem witness_TensorEntries :
    (let s := imaged (fp32 16)
     let ps := (List.range 8).map fun i => (8 * i, 8)
     let r := s.reach .read 0 (s.g 1#5) 64 64 ps
     let q := s.reach .write 0 (s.g 1#5) 64 64 ps
     Ready s (gs [1#5, 2#5]) ∧ Ready s (gs [2#5]) ∧ s.drainsOut = false ∧ goes r = true ∧ Free (reached r s) (runsOf r) ∧
       (let bs := (atLoad (reached r s) (runsOf r)).rdRuns (runsOf r)
        (List.range 8).map (fun i => BitVec.ofNat 64 (bytesToNat ((bs.drop (8 * i)).take 8))) = fp32 16) ∧ Tensor.malformed (fp32 16) = false ∧
       Tensor.malformed (fp32 0) = true ∧ goes q = true ∧ Free (reached q s) (runsOf q) ∧ (reached q s).speculative = false) := by decide +kernel

/-- BF16 and 8-bit quantised tensors of 64 rows of 64 elements. -/
def bf16 : TensorEntry := [BitVec.ofNat 64 (2 ^ 63 + 2 ^ 56 + 0x4000), BitVec.ofNat 64 (64 + 64 * 2 ^ 32), BitVec.ofNat 64 (1 + 2 ^ 32), 64#64, 0#64, 0#64, 0#64, 0#64]
def q8 : TensorEntry := [BitVec.ofNat 64 (2 ^ 63 + 10 * 2 ^ 56 + 0x4000), BitVec.ofNat 64 (64 + 64 * 2 ^ 32), BitVec.ofNat 64 (1 + 2 ^ 32), 64#64, 0#64, 0x6000#64, 0x7000#64, 0#64]
/-- A matrix block in g4 to g6, tensor 1 in both places; its first word is `w0`. -/
def matrix (t : TensorEntry) (w0 w1 w2 : Nat) : State :=
  (leased (bench [(4, BitVec.ofNat 64 w0), (5, BitVec.ofNat 64 w1), (6, BitVec.ofNat 64 w2)])).setTensor 1 t
/-- 16 by 16, K = 32. -/
def shape16 : Nat := 15 * 2 ^ 16 + 15 * 2 ^ 26
def fits (s : State) : Bool :=
  let r := s.takeLeases 0 [0]
  !notTaken r && !r.2.speculative && !r.2.drainsOut && decide ((r.2.cmdsOn 0).length < 8) && decide (s.pairOf s.site = some { primary := 0 }) && decide (Ready s (State.runSrcs 4#5 3) ∧ Ready s (State.runSrcs 4#5 2)) && r.2.pkg.resv.isEmpty
theorem witness_MatrixCommands :
    (4 + 3 ≤ 32 ∧ (bench []).pairOf (bench []).site = none) ∧
    (let s := matrix bf16 (0x0101 + shape16) 0 (32 * 2 ^ 32)
     fits s = true ∧ (s.takeLeases 0 [0]).2.futureTag 0 0 = none ∧ (s.takeLeases 0 [0]).2.futureTag 0 1 = none ∧ (s.g 4#5).toNat / 2 ^ 36 = 0 ∧
       Tensor.valid bf16 = true ∧ 16 ≤ 256 * gangRows 0 ∧ 32 ≠ 0 ∧ 0 + 16 ≤ Tensor.rows bf16 ∧ 0 + 32 ≤ Tensor.d0 bf16 ∧
       State.mmaPair (Tensor.fmt bf16) (Tensor.fmt bf16) = true) ∧
    (let s := matrix q8 (0x0101 + shape16) 0 (32 * 2 ^ 32)
     fits s = true ∧ Tensor.valid q8 = true ∧ Tensor.isQ (Tensor.fmt q8) = true ∧ 0 % Tensor.group q8 = 0 ∧ 32 % Tensor.group q8 = 0 ∧ 16 ≤ Tensor.rows q8) ∧
    (let s := matrix bf16 (0x0001 + shape16) 0 0
     fits s = true ∧ (s.g 4#5).toNat / 256 % 256 = 0 ∧ (Tensor.float (Tensor.fmt bf16)).isSome = true ∧ 0 + 16 ≤ Tensor.d0 bf16 ∧ (s.takeLeases 0 [0]).2.ctx.merrs = []) ∧
    ((matrix bf16 (2 ^ 36) 0 0).g 4#5 = BitVec.ofNat 64 (2 ^ 36) ∧ fits (matrix bf16 (2 ^ 36) 0 0) = true ∧
      ((matrix bf16 1 0 0).setCtx { (matrix bf16 1 0 0).ctx with rowh := some { entry := 0x4000#64, shelf := 0, area := 0 } }).ctx.rowh ≠ none) ∧
    (let s := matrix bf16 0x8000 (0x3F800000 + 15 * 2 ^ 32 + 15 * 2 ^ 42) 0x9000
     fits s = true ∧ (s.g 5#5).toNat / 2 ^ 52 = 0 ∧ (match f32Val 0x3F800000#32 with | .fin false n _ _ => n != 0 | _ => false) = true ∧ (s.g 4#5).toNat % 128 = 0 ∧
       (s.g 6#5).toNat % 4 = 0 ∧ s.xexpArea (s.g 4#5) (State.xexpLen 0 16 16) = none) := by decide +kernel

/-- A claim of the issuing context as one half of a pair; `h` and `r` are the halves that have arrived. -/
def paired (h r : Bool) : State := arrayed (bench []) [{ primary := 0, partner := some 1, arrived0 := h, arrived1 := r }] (some 0)
theorem witness_TensorEntries_status :
    (let s := bench [(1, 0x4000#64), (2, BitVec.ofNat 64 (15 * 2 ^ 14)), (3, BitVec.ofNat 64 (12 * 2 ^ 14 + 1)), (4, 0x4002#64), (5, BitVec.ofNat 64 (2 ^ 56))]
     Ready s (gs [1#5, 2#5]) ∧ Ready s (gs [1#5, 3#5]) ∧ (s.g 1#5).toNat % 4 = 0 ∧ (s.g 1#5).toNat < 2 ^ 56 ∧ (s.g 4#5).toNat % 4 ≠ 0 ∧ 2 ^ 56 ≤ (s.g 5#5).toNat ∧
       s.coreEnabled 0 = true ∧ (s.shelfAt 0).mode = .scratch ∧ (s.shelfAt 1).target.getD (s.shelfAt 1).mode = .scratch) ∧
    ((bench []).ctx.wait = none ∧ (bench []).pairOf (bench []).site = none ∧ (leased (bench [])).pairOf 0 = some { primary := 0 }) ∧
    ((paired true false).pairOf 0 = some { primary := 0, partner := some 1, arrived0 := true, arrived1 := false } ∧
      (paired false true).pairOf 0 = some { primary := 0, partner := some 1, arrived0 := false, arrived1 := true } ∧ (paired false true).drainsOut = false) ∧
    ((bench []).ctx.merrs = [] ∧ (bench []).myCmds = []) := by decide +kernel

/-! ## Witnesses: the context engine -/

/-- Handle 5 of die 0: four layers, blocks of 16 tokens, rows of 4 bytes, key 0; ten tokens in node 1, which has the one block 9. -/
def rec5 : Rec := { bsz := 2, layers := 4, key := 0, root := some 1, leaf := some 1, length := 10, row0 := 4, row1 := 4, thrtab := 0x9000 }
def node1 : Node := { parent := none, child := none, sibling := none, share := 1, start := 0, first := 10, runlen := 10, tokens := 0x8000005000,
                      blocks := [{ bid := 9, rowoff := 2 }], wstamp := 0 }
def contexts (xs : SMap Word) : State :=
  (mapped (bench xs)).modDie 0 fun d => { d with recs := [(5, some rec5)], nodes := [(1, some node1)] }
/-- A descriptor at 0x2000 whose thresholds lie at 0x2200. -/
def descending (w1 : Nat) : State :=
  (contexts [(1, 0x2000#64)]).poke (gloc 0 0x8000002000)
    (natToBytes 8 (2 * 2 ^ 62 + 3 * 2 ^ 52) ++ natToBytes 8 w1 ++ natToBytes 8 0x2200 ++ natToBytes 8 0)
def rows4 : Nat := 4 * 2 ^ 32 + 4 * 2 ^ 48
def descWords (s : State) (r : State.Go) : Option (Rec × Word) :=
  let bs := (atLoad (reached r s) (runsOf r)).rdRuns (runsOf r)
  let w := fun (i : Nat) => BitVec.ofNat 64 (bytesToNat ((bs.drop (8 * i)).take 8))
  ctxDesc (w 0) (w 1) (w 2) (w 3)
/-- Every handle of die 0 is in use; every node is. -/
def full (s : State) : State := s.modDie 0 fun d => { d with recs := (List.range 16384).map fun i => (i, some rec5) }
def noNodes (s : State) : State := s.modDie 0 fun d => { d with nodes := (List.range (2 ^ 32 - 1)).map fun i => (i, some node1) }
theorem full_keys (s : State) : (SMap.keys ((full s).dieAt 0).recs).length = 16384 := by
  simp [full]
theorem full_newHandle (s : State) : (full s).newHandle 0 = none := by
  simp only [State.newHandle]; rw [if_pos (Nat.le_of_eq (full_keys s).symm)]
theorem noNodes_room (s : State) (k : Nat) (h : 0 < k) : (noNodes s).poolRoom 0 k = false := by
  simp only [State.poolRoom, noNodes, State.dieAt_modDie_self, List.length_map, List.length_range, decide_eq_false_iff_not]; omega
theorem witness_ContextHandles :
    (let s := contexts [(1, 6#64), (2, 5#64)]
     Ready s (gs [1#5]) ∧ s.crec 6 = none ∧ s.crec 5 = some rec5 ∧ rec5.key = s.ctx.ask.toNat ∧ Quiet s ∧ s.settledAll 5 rec5 = true ∧ s.poolRoom 0 1 = true) ∧
    (let s := lowly (contexts [])
     s.crec 5 = some rec5 ∧ rec5.key ≠ s.ctx.ask.toNat ∧ s.privileged = false) ∧
    (let s := ((contexts []).setEnt 0 9 1 { st := .dirty, old := 1, new := 1 }).modPkg fun p => { p with waves := [(0, 2)] }
     s.settledAll 5 rec5 = false ∧ Quiet s) ∧
    (let s := descending rows4
     let r := s.reach .read 0 (s.g 1#5) 32 32 [(0, 8), (8, 8), (16, 8), (24, 8)]
     let got := afterLoad (reached r s) (runsOf r)
     let q := got.reach .read 0 0x2200#64 512 512 ((upto 0 64).map fun i => (8 * i, 8)) 16
     goes r = true ∧ Free (reached r s) (runsOf r) ∧ descWords s r = some ({ bsz := 2, layers := 4, key := 0, row0 := 4, row1 := 4 }, 0x2200#64) ∧ Quiet got ∧
       goes q = true ∧ isGlobal ((runsOf q).getD 0 (0, 0)).1 = true ∧ Quiet (reached q s) ∧ (SMap.keys ((reached q s).dieAt 0).recs).length < 16384) ∧
    (let s := descending 0
     descWords s (s.reach .read 0 (s.g 1#5) 32 32 [(0, 8), (8, 8), (16, 8), (24, 8)]) = none) := by decide +kernel
/-- The clauses about a die whose handles are all taken, and one whose nodes are. -/
theorem witness_ContextHandles_full : (∀ s, 16384 ≤ (SMap.keys ((full s).dieAt 0).recs).length ∧ (full s).newHandle 0 = none) ∧
    (∀ s, (noNodes s).poolRoom 0 1 = false) ∧ (∃ k, (contexts []).newHandle 0 = some k) :=
  ⟨fun s => ⟨Nat.le_of_eq (full_keys s).symm, full_newHandle s⟩, fun s => noNodes_room s 1 (by decide), _, rfl⟩

/-- EDIT's block in g4 and g5 for `t` tokens at `p`, the array at 0x5000 in g6; the wave counter at `w`. -/
def editing (p t w : Nat) : State :=
  (contexts [(4, BitVec.ofNat 64 (5 + p * 2 ^ 32)), (5, BitVec.ofNat 64 t), (6, 0x5000#64)]).modPkg fun x => { x with waves := SMap.set 1 [] 0 w }
def tokenRuns (s : State) (t : Nat) : State.Go := s.reach .read 0 (s.g 6#5) 4 (4 * t) [(0, 4), (4 * t - 4, 4)] 16
theorem witness_ContextEdits :
    (4 < 31 ∧ (let s := editing 2 3 1
      let r := tokenRuns s 3
      Ready s [(.g, 4), (.g, 5), (.g, 6)] ∧ s.crec 5 = some rec5 ∧ rec5.key = s.ctx.ask.toNat ∧ s.walkHeld 5 2 rec5 = false ∧ bits (s.g 4#5) 31 27 = 0 ∧ bits (s.g 4#5) 63 56 = 0 ∧ Quiet s ∧
        goes r = true ∧ isGlobal ((runsOf r).getD 0 (0, 0)).1 = true ∧ Quiet (reached r s) ∧ 2 + 3 ≤ rec5.length ∧ rec5.length + 3 ≤ 2 ^ 24 + 3 ∧
        (reached r s).nextWave 0 < 2 ^ 24 ∧ (reached r s).poolRoom 0 ((reached r s).nodesNeeded 5 2 3 3 rec5) = true ∧ rec5.length < 8 + 3)) ∧
    ((editing 2 3 (2 ^ 24)).nextWave 0 = 2 ^ 24 ∧ bits ((editing (2 ^ 24) 3 1).g 4#5) 63 56 ≠ 0 ∧ (editing 0 0 1).g 5#5 = 0#64) ∧
    (let s := (contexts [(4, BitVec.ofNat 64 (5 + 3 * 2 ^ 32)), (6, 0x5000#64)])
     let r := tokenRuns s 3
     (s.g 4#5).toNat / 2 ^ 16 % 2 ^ 16 = 0 ∧ (s.g 4#5).toNat / 2 ^ 48 = 0 ∧ goes r = true ∧ Quiet (reached r s) ∧ rec5.length + 3 ≤ 2 ^ 24 ∧
       (reached r s).poolRoom 0 1 = true ∧ 2 ^ 24 < ({ rec5 with length := 2 ^ 24 } : Rec).length + 3) ∧
    (let s := contexts [(1, 0x10000#64), (2, 2#64), (3, 0x10001#64)]
     let r := s.reach .write 0 (s.g 1#5) 65536 (65536 * 2) (crateParts 0x10000 0 (65536 * 2) 3) 16
     (s.g 3#5).toNat % 65536 ≠ 0 ∧ (s.g 1#5).toNat % 65536 = 0 ∧ goes r = true ∧ (∀ x ∈ runsOf r, isGlobal x.1 = true) ∧ Quiet (reached r s) ∧
       goes (s.reach .write 0 (s.g 1#5) 65536 (max 1 (65536 * 0)) (crateParts 0x10000 0 (65536 * 0) 1) 16) = true) := by decide +kernel
theorem witness_ContextEdits_full : ∀ s k, 0 < k → (noNodes s).poolRoom 0 k = false := noNodes_room

/-! ## Witnesses: validity maps, waves, versions -/

/-- An operand that names handle 5, part 0, a layer and a position. -/
def slotWord (l p : Nat) : Word := BitVec.ofNat 64 (5 + l * 2 ^ 24 + p * 2 ^ 32)
def blk9 : BlockAt := { node := 1, idx := 0, bid := 9, pos := 0, len := 10 }
theorem witness_ContextReads :
    (let s := contexts [(1, slotWord 3 9), (2, slotWord 4 9), (3, slotWord 3 10), (7, slotWord 3 0), (8, 0x3C00#64), (9, 0xBC00#64), (10, 0x7C01#64)]
     let loc := gloc 0 (rec5.thrtab + 6)
     Ready s (gs [1#5, 2#5]) ∧ s.crec 5 = some rec5 ∧ rec5.key = s.ctx.ask.toNat ∧ bits (s.g 1#5) 63 56 = 0 ∧ bits (s.g 1#5) 23 16 = 0 ∧ 9 < rec5.length ∧
       rec5.length ≤ 10 ∧ s.blockAt 5 9 = some blk9 ∧ rec5.layers ≤ 4 ∧ 3 < rec5.layers ∧ bits (s.g 7#5) 55 32 = 0 ∧
       (s.g 8#5).toNat / 2 ^ 15 = 0 ∧ (Fmt.f16.dec (s.g 8#5).toNat).isNan = false ∧ (s.g 9#5).toNat / 2 ^ 15 = 1 ∧ (Fmt.f16.dec (s.g 10#5).toNat).isNan = true ∧
       s.speculative = false ∧ Free s [(loc, 2)] ∧ s.walkHeld 5 9 rec5 = false ∧ s.waitNow.node = none ∧ s.noWalker 0 = false ∧
       (let t := s.placeCrate ((Config.nodeBase 0 + 128) / 65536) .absent 0
        t.walkGap 5 9 rec5 = some (1, (Config.nodeBase 0 + 128) / 65536) ∧ t.crec 5 = some rec5 ∧ t.waitNow.parked = none ∧ t.noWalker 0 = false) ∧
       (let t := s.setCtx { s.ctx with wait := some { cycle := 0, tick := 0, stage := 0, data := [1, 9, 11, 0], node := some 1, walker := some 0 } }
        t.waitNow.node ≠ none ∧ t.waitNow.data = [1, 9, 11, 0] ∧ t.walkHeld 5 9 rec5 = false ∧ t.crec 5 = some rec5 ∧
          (out (.walk 0#3 20#5 1#5) t).g 20#5 = BitVec.ofNat 64 (2 ^ 32 + 9)) ∧
       (let t : State := { s with parked := (upto 1 4).map fun i => (i, { Ctx.reset with wait := some { cycle := 0, tick := 0, parked := some (0, 3), walker := some 0 } }) }
        t.noWalker 0 = true ∧ t.drainsOut = false)) := by decide +kernel

/-- An entry of block 9 waits for its dispatch, in an unbound stream; or the stream is bound. -/
def dirty (xs : SMap Word) : State := (contexts xs).setEnt 0 9 1 { st := .dirty, need0 := true, old := 1, new := 1 }
def bound (xs : SMap Word) : State := (dirty xs).modDie 0 fun d => { d with binds := [(5, some { entry := 0x4000#64, span := 0, site := 0 })] }
theorem witness_ContextReads_waves :
    (let s := dirty [(1, 5#64), (2, 0x4000#64), (3, 0x4002#64), (4, BitVec.ofNat 64 (2 ^ 56)), (6, BitVec.ofNat 64 (4095 + 2 ^ 12))]
     Ready s (gs [6#5, 1#5, 2#5]) ∧ (s.g 3#5).toNat % 4 ≠ 0 ∧ 2 ^ 56 ≤ (s.g 4#5).toNat ∧ entryOk (s.g 2#5) ∧ entryOk 0#64 ∧ bits (s.g 1#5) 15 0 = 5 ∧
       s.crec 5 = some rec5 ∧ rec5.key = s.ctx.ask.toNat ∧ s.spanCores 0 3 ≠ [] ∧ Quiet s ∧ s.bindOf 5 = none ∧ (State.lowest (s.readyOf 5)).isSome = true ∧
       (s.queued (coreOf s.site)).length < 256) ∧
    ((let s := contexts []
      s.bindOf 5 = none ∧ State.lowest (s.readyOf 5) = none) ∧ (bound []).bindOf 5 ≠ none) ∧
    (let s := (contexts []).setReg 0 0x8 0#64
     s.spanCores 0 3 = [] ∧ s.crec 5 = some rec5) := by decide +kernel

/-- The versioned slot of block 9, layer 2, part 0. -/
def slot9 : Slot := { die := 0, bid := 9, layer := 2, part := 0 }
/-- VLDW's block in g4 and g5. -/
def versioned : State := contexts [(4, slotWord 2 1), (5, 0#64)]
/-- A committed version of the slot, of ordinal `o`, stored in a crate of the pool of key 0; the wave counter at 3. -/
def committed9 (o : Nat) : State :=
  let s := (versioned.setDir 0 9 2 0 { store := gloc 0 0x8000020000, vord := o, size := 128 }).poke (gloc 0 0x8000020000) ((List.range 128).map fun i => BitVec.ofNat 8 (i + 1))
  s.modPkg fun p => { p with waves := [(0, 3)] }
/-- The wave task of the slot for wave 1 runs, speculative or not. -/
def ord9 : Nat := waveOrd 1 2 0 0
def task9 (k : Kind) (s : State) (gvt : Nat) : State :=
  let m : Msg := { dst := 0, src := 0, kind := k, ord := ord9, payload := [5#64, BitVec.ofNat 64 (2 ^ 32 + 9), BitVec.ofNat 64 (10 * 2 ^ 32), 1#64] }
  (s.setCtx { s.ctx with ord := BitVec.ofNat 48 ord9, act := { s.ctx.act with kind := k, msg := some m, serial := 77 } }).modPkg fun p => { p with gvt := [(0, gvt)] }
/-- The slot's pending version. -/
def pend9 : Ver := { slot := slot9, ord := ord9, data := List.replicate 128 7#8, writer := 77, domain := 0 }
def pending (s : State) : State := s.modDie 0 fun d => { d with attic := [pend9] }
def named (s : State) : Bool := match s.nameSlot (s.g 4#5) (s.g 5#5) false s.vbytes with | .at r σ off pos => decide (r = rec5 ∧ σ = slot9 ∧ off = 12 ∧ pos = 1) | _ => false
/-- A slot with a version freed; a slot with an entry that waits. -/
def gone9 : State := versioned.setDir 0 9 2 0 { gone := some 0 }
def unsettled : State := (committed9 0).setEnt 0 9 1 { st := .dirty, old := 1, new := 1 }
theorem witness_VersionResults :
    ((let s := versioned
      4 < 31 ∧ Ready s [(.g, 4), (.g, 5)] ∧ s.ctx.wait = none ∧ s.drainsOut = false ∧ named s = true ∧ s.orderedIn 0 = false ∧ (s.committed slot9 fun _ => true) = .absent ∧
        s.settledAt 5 9 2 (s.capWave 0 0) = true ∧ s.settledAt 5 9 2 (s.nextWave 0 - 1) = true) ∧
     (gone9.committed slot9 fun _ => true) = .freed ∧
     (match (committed9 0).committed slot9 fun _ => true with | .version o _ => o == 0 | _ => false) = true) ∧
    (let s := unsettled
     named s = true ∧ s.drainsOut = false ∧ s.settledAt 5 9 2 (s.capWave 0 1) = false) ∧
    (let s := task9 .wavetask (committed9 0) ord9
     named s = true ∧ s.orderedIn 0 = true ∧ s.speculative = false ∧ s.drainsOut = false ∧ s.ownSlot = some slot9 ∧ s.pendingOf slot9 = none ∧
       Ready s [(s.vf, 3)]) ∧
    ((task9 .wavetask (pending (committed9 0)) 1).pendingOf slot9 = some pend9 ∧ (task9 .wavetask (pending (committed9 0)) 1).speculative = true) ∧
    (let s := (task9 .wavetask (committed9 0) 1)
     let t := s.setCtx { s.ctx with act := { s.ctx.act with msg := none } }
     t.ownSlot ≠ some slot9 ∧ t.ctx.act.kind = .wavetask ∧ named t = true) ∧
    ((task9 .task (committed9 0) 1).ctx.act.kind = .task ∧ named (task9 .task (committed9 0) 1) = true) ∧
    (let s := versioned
     s.ctx.act.kind ≠ .task ∧ s.ctx.act.kind ≠ .wavetask ∧ (s.ent 0 9 2).st = .clean ∧ (s.dieAt 0).attic = [] ∧ (s.dirOf 0 9 2 0).store = 0) ∧
    (match versioned.nameSlot (BitVec.ofNat 64 (5 + 2 * 2 ^ 24 + 8 * 2 ^ 32)) 0#64 true 32 with | .deleted => true | _ => false) = true := by decide +kernel
/-- With an empty pool of one crate there is a place for the version, wherever the engine looks first. -/
def pooled : State := versioned.modDie 0 fun d => { d with pools := [(0, [gloc 0 0x8000020000])] }
theorem pooled_fits : ∀ i < 512, (State.firstFit [gloc 0 0x8000020000] [] 128 512 i).isSome = true := by decide +kernel
theorem witness_VersionResults_room : (task9 .wavetask (committed9 0) ord9).atticHas 0 (rec5.verSize 0) = true := by
  unfold State.atticHas; rw [Bool.or_eq_true]; exact .inr (by decide +kernel)
theorem witness_VersionResults_place (bs : List Byte) (h : bs.length = 128) : ∃ t, pooled.install slot9 0 0 0 bs = some t := by
  have p : (pooled.placeFor slot9 0 bs.length).isSome = true := by
    rw [h]; exact pooled_fits _ (Nat.mod_lt _ (by decide))
  unfold State.install
  cases e : pooled.placeFor slot9 0 bs.length with
  | none => rw [e] at p; exact absurd p (by decide)
  | some loc => exact ⟨_, rfl⟩

/-- The task's own message; a block of its context; a δ. -/
theorem witness_VersionResults_settle :
    ((task9 .send versioned 1).ownSlot = none) ∧
    (let s := task9 .wavetask (committed9 0) 1
     s.ownSlot = some slot9 ∧ (s.ctx.act.msg.map (·.wHandle)) = some 5 ∧ s.crec 5 = some rec5 ∧ (s.blocksOf 5).find? (fun b => b.bid == 9) = some blk9 ∧
       s.pendingOf slot9 = none ∧ (task9 .wavetask (pending (committed9 0)) 1).pendingOf slot9 = some pend9 ∧
       (match s.anyVersion slot9 fun o => decide (o < ord9) with | .version _ _ => true | _ => false) = true ∧
       ((task9 .wavetask (pending versioned) 1).anyVersion slot9 fun o => decide (o < ord9)) = .absent) ∧
    (let s := (unsettled.putG 1#5 (BitVec.ofNat 64 (5 + 2 ^ 16 + 1 * 2 ^ 24 + 3 * 2 ^ 32))).putG 2#5 1#64
     Ready s (gs [1#5, 2#5]) ∧ s.crec 5 = some rec5 ∧ bits (s.g 1#5) 63 40 = 0 ∧ bits (s.g 1#5) 23 17 = 0 ∧ bits (s.g 2#5) 63 24 = 0 ∧ (s.g 1#5).getLsbD 16 = true ∧
       bits (s.g 1#5) 39 32 < 4 ∧ bits (s.g 1#5) 31 24 ≤ bits (s.g 1#5) 39 32 ∧ s.ctx.wait = none ∧ s.drainsOut = false ∧ s.settledTo 5 3 1 = false ∧
       s.settledTo 5 0 1 = true ∧ (5#64 : Word).getLsbD 16 = false) := by decide +kernel

/-! ## Witnesses: messages, deques, waits -/

/-- Destination words: class 1, TAG 0x77, site 6 of a package. -/
def destOf (pkg : Nat) : Nat := 6 + pkg * 2 ^ 12 + 2 ^ 22 + 0x77 * 2 ^ 24
def addressed (xs : SMap Word) : State := bench ([(4, BitVec.ofNat 64 (destOf 0)), (5, 0x4000#64), (6, 3#64)] ++ xs)
def msg0 : Msg := { dst := 6, src := 0, cls := 1 }
/-- The inbox of class 1 of site 6 holds n messages; so does that of site 0, class 2. -/
def inboxes (s : State) (n : Nat) : State := s.modCore 1 fun c => { c with inbox := [(9, List.replicate n msg0)] }
/-- The core is disabled; the route to package 3 is not up. -/
def disabled (s : State) : State := s.setReg 0 0x10 0#64
theorem witness_SendResults :
    (let s := addressed [(8, BitVec.ofNat 64 (destOf 3)), (9, BitVec.ofNat 64 (destOf 0 + 2 ^ 40)), (10, 0x4002#64), (11, BitVec.ofNat 64 (2 ^ 56))]
     4 < 31 ∧ 1 + 3 ≤ 32 ∧ Ready s ([(.g, 4), (.g, 5)] ++ State.runSrcs 1#5 3) ∧ s.ctx.pri.toNat ≤ 1 ∧ entryOk (s.g 5#5) ∧ ¬entryOk (s.g 10#5) ∧ ¬entryOk (s.g 11#5) ∧
       (s.g 4#5).toNat / 2 ^ 40 = 0 ∧ (s.g 9#5).toNat / 2 ^ 40 ≠ 0 ∧ s.ctx.wait = none ∧ Quiet s ∧ ¬Quiet (draining s) ∧ ¬Quiet (speculating s) ∧ s.routeOf 0 = .here ∧
       s.routeOf 3 = .down ∧ s.siteEnabled 6 = true ∧ (disabled s).siteEnabled 6 = false ∧ (disabled s).coreEnabled 1 = false ∧ s.coreEnabled 1 = true ∧
       s.inboxRoom 1 9 = true ∧ (inboxes s 63).inboxRoom 1 9 = true ∧ (inboxes s 64).inboxRoom 1 9 = false ∧ s.inboxRoom 1 (4 * 3 + s.ctx.pri.toNat) = true) ∧
    (let s := lowly (addressed [])
     let t := s.setCtx { s.ctx with pri := 2#2 }
     ¬t.ctx.pri.toNat ≤ 1 ∧ t.privileged = false) := by decide +kernel

theorem witness_TaskAndHop :
    (let s := addressed []
     Ready s ([(.g, 4), (.g, 5), (.g, 6)] ++ State.runSrcs 1#5 3) ∧ entryOk (s.g 5#5) ∧ (s.g 6#5).toNat / 2 ^ 48 = 0 ∧ s.siteEnabled (6 / 4 * 4) = true ∧
       (disabled s).siteEnabled (6 / 4 * 4) = false ∧ (s.g 6#5).toNat ≠ 0 ∧ s.gvtOf s.ctx.ask.toNat ≤ 3 ∧ (s.queued 1).length < 256 ∧ s.pkg.senders = [] ∧
       (s.modPkg fun p => { p with gvt := [(0, 4)] }).gvtOf s.ctx.ask.toNat = 4 ∧ (0x1000000000000#64 : Word).toNat / 2 ^ 48 ≠ 0) ∧
    (let s := (speculating (addressed [])).modPkg fun p => { p with gvt := [(0, 9)] }
     s.ctx.act.kind = .task ∧ 3 < s.ctx.ord.toNat ∧ Quiet s) ∧
    (let s := addressed []
     s.ctx.act.kind ≠ .task ∧ s.ctx.act.kind ≠ .wavetask ∧ s.nonPre (coreOf s.site) s.ctx = false ∧ (serving s).nonPre 0 (serving s).ctx = true ∧
       s.resultsOut s.site = false ∧ s.drainsOut = false ∧ s.inboxRoom 1 (4 * 2 + s.ctx.pri.toNat) = true ∧ s.siteEnabled 6 = true ∧
       (disabled s).siteEnabled 6 = false) := by decide +kernel

/-- The deque of the issuing core, or of core 1, holds n entries that core 0 may take. -/
def entry1 : DequeEntry := { msg := msg0, home := 1, dom := 1 }
def dequed (core n : Nat) (s : State) : State := s.modCore core fun c => { c with deque := List.replicate n entry1 }
theorem witness_DequeResults :
    (let s := bench [(4, 0x4000#64), (5, 0x4001#64)]
     1 + 3 ≤ 32 ∧ Ready s ([(.g, 4)] ++ State.runSrcs 1#5 3) ∧ entryOk (s.g 4#5) ∧ ¬entryOk (s.g 5#5) ∧ Quiet s ∧ s.core.deque.length < 64 ∧
       64 ≤ (dequed 0 64 s).core.deque.length ∧ (dequed 0 63 s).core.deque.length < 64) ∧
    (let s := dequed 1 2 (bench [(1, 4#64)])
     Ready s (gs [1#5]) ∧ 0 = s.pkg.num ∧ 1 ≠ coreOf s.site ∧ s.coreEnabled 1 = true ∧ (disabled s).coreEnabled 1 = false ∧
       (s.coreAt 1).deque.reverse.find? (fun y => State.DequeEntry.open y 0) = some entry1 ∧ (∀ y ∈ ((bench []).coreAt 1).deque, State.DequeEntry.open y 0 = false) ∧
       State.DequeEntry.open { entry1 with dom := 0 } 0 = false ∧ 64 ≤ (dequed 0 64 s).core.deque.length) ∧
    (let s := bench [(1, 2#64)]
     (lowly s).privileged = false ∧ s.privileged = true ∧ s.core.server = none ∧ s.core.service = true ∧ (s.modCore 0 fun c => { c with service := false }).core.service = false ∧
       (s.modCore 0 fun c => { c with server := some { site := 3, treep := 0#64, fmt := 0, n := 2 } }).core.server = some { site := 3, treep := 0#64, fmt := 0, n := 2 } ∧
       (s.modCore 0 fun c => { c with server := some { site := 3, treep := 0#64, fmt := 0, n := 2, got := 1 } }).core.server ≠ none ∧
       (∃ i < 16, ∃ m ∈ (s.modCore 0 fun c => { c with inbox := [(12, [{ dst := 3, src := 0, kind := .reduce }])] }).inbox 0 i, m.kind = .reduce) ∧
       s.ctx.pri.toNat ≤ (s.g 1#5).toNat % 4 ∧ 0 < ((lowly s).setCtx { (lowly s).ctx with pri := 3#2 }).ctx.pri.toNat) := by decide +kernel

/-- A wait of the issuing context that a re-check has ended. -/
def rechecked (s : State) (x : Nat) : State := s.setCtx { s.ctx with wait := some { cycle := 0, tick := 0, stage := State.monDone, data := [x] } }
/-- The issuing context has been stalled since tick 0, and it is tick 2 now; its core's monitor table is full. -/
def late (s : State) : State := { s with cycle := 90, ctx := { s.ctx with wait := some { cycle := 0, tick := 0, short := true } } }
def crowded (s : State) : State := { s with parked := [(1, { Ctx.reset with mons := List.replicate 16 7 })] }
/-- WAIT for both of two conditions: the doubleword at pantry byte 0 is `v`, and transfer 0x100 is complete. -/
def asking (v : Nat) : State :=
  holding (bench [(1, BitVec.ofNat 64 (5 + 2 ^ 32)), (2, pan 0 0), (3, BitVec.ofNat 64 v), (4, BitVec.ofNat 64 (3 * 2 ^ 60)), (5, 0x100#64)]) 0 5
def askedPairs (s : State) : List (Word × Word) :=
  (List.range ((s.g 1#5).toNat % 4 + 1)).map fun i => (s.g (1#5 + BitVec.ofNat 5 (1 + 2 * i)), s.g (1#5 + BitVec.ofNat 5 (2 + 2 * i)))
def askedConds (v : Nat) : List State.Cond := [{ kind := 0, a := ploc 0 0 0, b := 0, c := v }, { kind := 3, a := 0x100 }]
def askedReach (s : State) : State.Go := s.reach .read 0 (pan 0 0) 8 8 [(0, 8)] 0
theorem go_eq (r : State.Go) (s : State) (rs : List (Nat × Nat)) (h : goes r = true) (e : runsOf r = rs) : r = .go (reached r s) rs := by
  cases r with
  | go => exact congrArg _ e
  | stop => cases h
theorem witness_MonitorWaits_asks (v : Nat) (h : v < 2 ^ 64) (s : State)
    (e : askedPairs s = [(pan 0 0, BitVec.ofNat 64 v), (BitVec.ofNat 64 (3 * 2 ^ 60), 0x100#64)]) (g : goes (askedReach s) = true) (l : runsOf (askedReach s) = [(ploc 0 0 0, 8)]) :
    askAll s 0 (askedPairs s) (reached (askedReach s) s) (askedConds v) := by
  rw [e]
  have p : bits (pan 0 0) 63 60 = 0 ∧ bits (pan 0 0) 59 57 = 0 ∧ bits (pan 0 0) 56 56 = 0 ∧ pan 0 0 &&& 0xFFFFFFFFFFFFFF#64 = pan 0 0 := by decide
  refine ⟨_, _, _, .inl ⟨p.1, Nat.lt_of_le_of_lt (Nat.le_of_eq p.2.1) (by decide), p.2.2.1, ?_, ?_⟩,
    ⟨_, _, _, .inr (.inr (.inr (.inl ⟨by decide, by decide, rfl, rfl⟩))), ⟨rfl, rfl⟩, rfl⟩, rfl⟩
  · simp only [p.2.1]; rw [BitVec.toNat_ofNat, Nat.mod_eq_of_lt h]
  · show s.reach .read 0 (pan 0 0 &&& 0xFFFFFFFFFFFFFF#64) 8 8 [(0, 8)] 0 = _
    rw [p.2.2.2]; exact go_eq _ s _ g l
theorem witness_MonitorWaits_several :
    (∀ v ∈ [5, 6], ∀ s ∈ [asking v, crowded (asking v), late (asking v)],
      askedPairs s = [(pan 0 0, BitVec.ofNat 64 v), (BitVec.ofNat 64 (3 * 2 ^ 60), 0x100#64)] ∧ goes (askedReach s) = true ∧ runsOf (askedReach s) = [(ploc 0 0 0, 8)] ∧
        Ready s ((.g, 1) :: State.runSrcs 2#5 (min 30 (2 * ((s.g 1#5).toNat % 4 + 1)))) ∧ 1 + 2 * ((s.g 1#5).toNat % 4 + 1) < 32 ∧ (s.g 1#5).toNat / 8 % 2 ^ 29 = 0 ∧
        s.waitNow.stage = 0 ∧ s.waitNow.deadline = none ∧
        (let u := reached (askedReach s) s
         u.drainsOut = false ∧ (∀ l ∈ State.condLines (askedConds v), u.lineHeld l = false ∧ u.rangeAt l = none) ∧ (askedConds v).all u.condNow = decide (v = 5)) ∧
        ((s.g 1#5).getLsbD 2 = true)) ∧
    (let m := fun (s : State) => ((out (.wait 0#3 20#5 1#5) s).g 20#5).toNat
     m (asking 5) = 3 ∧ m (crowded (asking 5)) = 35 ∧ m (late (asking 6)) = 18 ∧ (out (.wait 0#3 20#5 1#5) (asking 6)).ctx.st = .waiting ∧
       (crowded (asking 5)).monFree = 0 ∧ (late (asking 6)).tickOver ((late (asking 6)).waitNow.tick + 1) = true ∧
       (out (.wait 0#3 20#5 1#5) (asking 6)).ctx.mons = [lineOf (ploc 0 0 0)]) := by decide +kernel
theorem witness_MonitorWaits_join :
    (let s := holding (bench [(1, pan 0 0), (2, 1#64)]) 0 5
     let r := s.reach .read 0 (s.g 1#5) 8 8 [(0, 8)]
     let u := reached r s
     goes r = true ∧ runsOf r = [(ploc 0 0 0, 8)] ∧ Free u [(ploc 0 0 0, 8)] ∧ u.pkg.hist = [] ∧ u.pkg.bad = [] ∧ u.condWord (ploc 0 0 0) = 5#64 ∧
       s.waitNow.stage = 0 ∧ s.waitNow.deadline = none ∧ u.inFifo (ploc 0 0 0) = false ∧ (5#64 : Word).toInt > 0 ∧ (0#64 : Word).toInt ≤ 0 ∧
       s.tickOver (s.waitNow.tick + 1) = false ∧ u.monFree = 16 ∧ (late s).tickOver ((late s).waitNow.tick + 1) = true ∧
       (late s).waitNow.stage = 0 ∧ (late s).waitNow.deadline = none ∧ (out (.join 0#3 3#5 1#5 2#5) (late s)).g 3#5 = 1#64 ∧
       (out (.join 0#3 3#5 1#5 2#5) s).ctx.st = .waiting ∧ (out (.join 0#3 3#5 1#5 2#5) s).ctx.wait.bind (·.deadline) = some 1) ∧
    (let s := late (crowded (holding (bench [(1, pan 0 0), (2, 1#64)]) 0 5))
     s.monFree = 0 ∧ (out (.join 0#3 3#5 1#5 2#5) s).g 3#5 = 3#64) := by decide +kernel
theorem witness_MonitorWaits :
    (let s := rechecked (bench [(1, pan 0 0)]) 16
     Ready s (gs [1#5, 2#5]) ∧ s.ctx.wait = some { cycle := 0, tick := 0, stage := State.monDone, data := [16] } ∧
       Ready s ((.g, 1) :: State.runSrcs 2#5 (min 30 (2 * ((s.g 1#5).toNat % 4 + 1))))) ∧
    ((5 + 65536 - 5) % 65536 < 32768 ∧ 32768 ≤ (5 + 65536 - 6) % 65536 ∧ (5 + 65536 - 4) % 65536 < 32768) ∧
    (let s := holding (bench [(1, pan 0 0), (2, 2#64)]) 0 (2 ^ 32 + 2 * 2 ^ 16 + 7)
     let r := s.reach .both 0 (s.g 1#5) 8 8 [(0, 8)]
     let u := reached r s
     goes r = true ∧ runsOf r = [(ploc 0 0 0, 8)] ∧ Free u (runsOf r) ∧ u.speculative = false ∧ u.inFifo (ploc 0 0 0) = false ∧ (u.serviceFree (u.owner (ploc 0 0 0))).isSome = true) ∧
    (let s := bench [(1, BitVec.ofNat 64 (2 ^ 32)), (2, BitVec.ofNat 64 (2 ^ 60 + 1)), (4, 0#64), (5, BitVec.ofNat 64 (4 * 2 ^ 60)), (6, 1#64)]
     Ready s ((.g, 1) :: State.runSrcs 2#5 (min 30 (2 * ((s.g 1#5).toNat % 4 + 1)))) ∧ Ready s ((.g, 4) :: State.runSrcs 5#5 (min 27 (2 * ((s.g 4#5).toNat % 4 + 1)))) ∧
       (s.g 1#5).toNat % 4 = 0 ∧ (s.g 1#5).toNat / 8 % 2 ^ 29 = 0 ∧ s.drainsOut = false ∧ s.waitNow.stage = 0 ∧ s.waitNow.deadline = none ∧ (s.g 1#5).toNat / 2 ^ 32 = 1 ∧ (s.g 4#5).toNat / 2 ^ 32 = 0 ∧
       (late s).tickOver ((late s).waitNow.tick + 1) = true ∧ s.tickOver (s.waitNow.tick + 1) = false ∧
       bits (s.g 2#5) 63 60 = 1 ∧ bits (s.g 2#5) 59 2 = 0 ∧ s.g 3#5 = 0#64 ∧ s.inbox 0 1 = [] ∧ ((s.modCore 0 fun c => { c with inbox := [(1, [msg0])] }).inbox 0 1) ≠ [] ∧
       bits (s.g 5#5) 63 60 = 4 ∧ bits (s.g 5#5) 59 0 = 0 ∧ bits (s.g 6#5) 63 48 = 0 ∧ (s.g 6#5).toNat ≤ s.gvtOf s.ctx.ask.toNat) := by decide +kernel

/-- LAUNCH's block in g4 to g7, one member: TAG 0x55, site `m`, listed at pantry byte 0; the tick in g7. -/
def launching (m t : Nat) : State :=
  (bench [(4, pan 0 0), (5, 0x4000#64), (6, BitVec.ofNat 64 (2 ^ 22)), (7, BitVec.ofNat 64 t)]).pokeNat (ploc 0 0 0) 8 (0x55 * 2 ^ 48 + m)
def members (s : State) : List Nat :=
  let r := s.reach .read 0 (s.g 4#5) 8 8 [(0, 8)]
  let bs := (atLoad (reached r s) (runsOf r)).rdRuns (runsOf r)
  ((List.range 1).map fun i => State.memberOf (BitVec.ofNat 64 (bytesToNat ((bs.drop (8 * i)).take 8)))).mergeSort fun x y => decide (x % 2 ^ 22 ≤ y % 2 ^ 22)
theorem witness_LaunchResults :
    (let s := launching 6 5
     let r := s.reach .read 0 (s.g 4#5) 8 8 [(0, 8)]
     let v := afterLoad (reached r s) (runsOf r)
     let w := v.modPkg fun p => { p with nextId := p.nextId + 1 }
     let z := w.reserveAll v.pkg.nextId 1 0x4000#64 (payNow s 1#5 3) (members s)
     4 < 29 ∧ 1 + 3 ≤ 32 ∧ Ready s ([(.g, 4), (.g, 5), (.g, 6), (.g, 7)] ++ State.runSrcs 1#5 3) ∧ s.ctx.pri.toNat ≤ 1 ∧ s.ctx.wait = none ∧ goes r = true ∧
       entryOk (s.g 5#5) ∧ Free (reached r s) (runsOf r) ∧ Quiet v ∧ bits (s.g 6#5) 63 42 = 0 ∧ bits (s.g 6#5) 31 24 = 0 ∧ bits (s.g 6#5) 21 0 = 0 ∧
       members s = [0x55 * 2 ^ 22 + 6] ∧ v.routeOf 0 = .here ∧ v.siteEnabled 6 = true ∧ v.memberAbsent (0x55 * 2 ^ 22 + 6) = false ∧ z.1.isNone = true ∧
       z.2.drainsOut = false ∧ s.tick s.die < 5 ∧ ¬5 ≤ s.tick s.die ∧
       ((z.2.modPkg fun p => { p with nextId := p.nextId + 1 }).launchAll v.pkg.nextId z.2.pkg.nextId 1 0x4000#64 (payNow s 1#5 3) none (members s)).1 = 1) ∧
    ((disabled (launching 6 0)).siteEnabled 6 = false ∧ (launching 6 0).tick 0 = 0 ∧ (launching (6 + 3 * 2 ^ 12) 0).routeOf 3 = .down ∧
      (disabled (launching 6 0)).memberAbsent (0x55 * 2 ^ 22 + 6) = true ∧ (launching (6 + 3 * 2 ^ 12) 0).memberAbsent (6 + 3 * 2 ^ 12) = false ∧
      (let s := (launching (6 + 3 * 2 ^ 12) 0).setReg 0 (State.routeReg 3) (BitVec.ofNat 64 (2 ^ 63 + 2 * 2 ^ 48))
       s.portEnabled 2 = true ∧ s.routeOf 3 = .port 2)) := by decide +kernel

/-! ## Witnesses: the dispatch engine, waits, halts -/

/-- Inbox 0 of die 0 is enabled for class 2 and any core of the package's first, with HEAD 0; its slot 0 holds a command with these words. -/
def commanded (bad : Bool) (s : State) : State :=
  let s := s.setReg 0 0xA8 (BitVec.ofNat 64 (2 ^ 63))
  let s := s.setReg 0 0x20000 (BitVec.ofNat 64 (2 ^ 63 + 2 * 2 ^ 61))
  let s := s.setReg 0 0x20008 0xFFFFFFFF#64
  (s.pokeNat (2 ^ 63) 8 (0x77 + 2 ^ 28 + 2 * 2 ^ 29)).pokeNat (2 ^ 63 + 8) 8 (if bad then 0x4002 else 0x4000)
def hostCase (s : State) : Bool := match s.scanNext 0 with | some (c, i, n) => decide (c = 2 ∧ i = 0 ∧ n = 0) | none => false
/-- Core 0 with one candidate, all contexts free. -/
def idle : State := { (bench []) with ctx := {} }
def mailed : State := idle.modCore 0 fun c => { c with inbox := [(2, [{ msg0 with dst := 0, cls := 2 }])] }
def forked : State := idle.modCore 0 fun c => { c with deque := [{ entry1 with home := 0 }] }
def tasked : State := idle.modCore 0 fun c => { c with ordq := [{ msg := { msg0 with kind := .task, ord := 3 } }] }
def picked (s : State) (n : Nat) : Bool :=
  match s.winner 0 with
  | some p => (match p.cand with | .mail _ m => n == 0 && (s.startHit p.site m).isNone | .deque e => n == 1 && (s.startHit p.site e.msg).isNone
                                 | .task t => n == 2 && (s.startHit p.site t.msg).isNone | .image _ => n == 3 && (s.restoreAt p.site).isSome)
  | none => false
/-- An AMSG request waits at core 0's service context. -/
def called : State := idle.modCore 0 fun c => { c with inbox := [(12, [{ msg0 with dst := 3, cls := 0, kind := .amsg, req := some { asker := 5, token := 9, key := ploc 0 0 0, op := 0 } }])] }
/-- Messages over a link: a SEND to site 6. -/
def linkWords : List Word := [BitVec.ofNat 64 (6 * 2 ^ 52 + 2 ^ 38 + 2 ^ 34), 0x4000#64, 0#64, 0#64, 0#64]
def taskWords : List Word := [BitVec.ofNat 64 (6 * 2 ^ 52 + 2 ^ 38 + 4 * 2 ^ 34), 0x4000#64, 0#64, 0#64, 0#64]
/-- The issuing context waits, for a reply, for a slot, for a condition. -/
def waitingFor (s : State) (w : Wait) : State := s.setCtx { s.ctx with st := .waiting, wait := some w }
theorem witness_DispatchSteps :
    (let s := (bench []).modPkg fun p => { p with stops := [{ die := 0, dom := 5, site := 0, tick := 0, reason := 1, landed := true }] }
     s.allStopped = true ∧ s.pkg.replay.armed = false ∧ (bench []).allStopped = false ∧ (bench []).logHeld = false ∧
       (out (.hostInboxWrite 0 64 [1#8, 2#8, 3#8, 4#8]) s).pkg.heldWrites = [(0, 64, [1#8, 2#8, 3#8, 4#8])]) ∧
    ((4 ≤ [1#8, 2#8, 3#8, 4#8].length ∧ 128 ≤ 128 ∧ 2 ^ 27 - 4 < 2 ^ 27 ∧ (2 ^ 27 - 4) % 128 + 4 ≤ 128) ∧ ¬(126 % 4 = 0)) ∧
    (let s := commanded false (bench [])
     let t := commanded true (bench [])
     (s.dieAt 0).scanAt ≤ s.cycle ∧ s.booted = true ∧ s.pkg.replay.armed = false ∧ s.pkg.replay.replaying = false ∧ hostCase s = true ∧ hostCase t = true ∧ s.slotBad 0 0 = false ∧ t.slotBad 0 0 = true ∧
       (s.inboxCore 0 0).isSome = true ∧ s.pkg.replay.recording = false) ∧
    ((called.takeService 0 .amsg).isSome = true ∧ (mailed.takeService 0 .amsg).isNone = true ∧ picked mailed 0 = true ∧ picked forked 1 = true ∧ picked tasked 2 = true) ∧
    (let w : Wait := { cycle := 0, tick := 0, token := 7, stage := 2 }
     let s := awaiting (waitingFor (bench []) w)
     s.pkg.results.find? (fun r => r.1 == 0) = some (0, { token := 7, status := 0, value := 0#64 }) ∧ (s.ctxAt 0).img = none ∧ (s.ctxAt 0).wait = some w ∧
       (s.ctxAt 0).st = .waiting) ∧
    (let s := waitingFor (bench []) { cycle := 4, tick := 0, stage := State.slotStage }
     firstBy State.slotBefore (s.slotWaiters 0) = some (4, 0) ∧ s.freeSlotOf 0 = some 0) ∧
    (let s := (bench []).modClu 0 fun c => { c with token := false, tokenDue := 0 }
     (s.cluAt 0).token = false ∧ (s.cluAt 0).tokenDue ≤ s.tick 0 ∧ s.coreEn 0 ≠ 0) ∧
    ((bench []).modDie 0 fun d => { d with timed := [(0, msg0)] }).timedDue = [(0, msg0)] ∧
    (let s := bound []
     ∃ e : State.Ready, State.lowest (((s.handles 0).filter fun h => (s.bindOf h).isSome).flatMap s.readyOf) = some e ∧ (s.bindOf e.handle).isSome = true ∧
       s.waveCore { entry := 0x4000#64, span := 0, site := 0 } e.blk.bid = some 0 ∧ (s.queued 0).length < 256) ∧
    (∃ m : Msg, State.linkMsg linkWords = some m ∧ m.dst = 6 ∧ m.kind ≠ .task ∧ m.kind ≠ .reduce ∧ (bench []).routeOf m.dstPkg = .here ∧ (bench []).siteEnabled m.dst = true ∧
       (bench []).inboxRoom (coreOf m.dst) (State.inboxOf m) = true ∧ m.at' = none) ∧
    (∃ m : Msg, State.linkMsg taskWords = some m ∧ m.kind = .task ∧ m.ord = 0 ∧ (bench []).siteEnabled (m.dst / 4 * 4) = true) :=
  ⟨by decide +kernel, by decide +kernel, by decide +kernel, by decide +kernel, by decide +kernel, by decide +kernel, by decide +kernel, by decide +kernel,
    ⟨_, rfl, by decide +kernel⟩, ⟨_, rfl, by decide +kernel⟩, ⟨_, rfl, by decide +kernel⟩⟩

/-- Conditions on the inbox and on the lower bound, one on memory that holds, a barrier whose phase has gone on, and a counter. -/
def cond1 : State.Cond := { kind := 1, a := 1 }
def cond4 : State.Cond := { kind := 4, a := 1 }
def cond0 : State.Cond := { kind := 0, a := ploc 0 0 0, b := 0, c := 5 }
def condBar (k : Nat) : State.Cond := { kind := 2, a := ploc 0 0 0, b := k }
def condJoin (off : Nat) : State.Cond := { kind := 0, a := ploc 0 0 off, b := 8 }
def watching (f : State.Form) (xs : List State.Cond) (coarse : Bool) (dl : Option Nat) : State :=
  { waitingFor (holding (bench []) 0 5) { cycle := 0, tick := 0, stage := State.monStage, data := State.packConds f coarse xs, deadline := dl } with cycle := 5760 }
/-- The wait of the issuing context may be re-checked: what holds of its conditions, and whether the fine ones have changed or a hit is noted. -/
def mayCheck (f : State.Form) (xs : List State.Cond) (coarse : Bool) (dl : Option Nat) (hit met : Bool) : Bool :=
  let s := watching f xs coarse dl
  let s := if hit then s.modPkg fun p => { p with hits := [0] } else s
  let z := s.focus 0
  decide ((s.ctxAt 0).wait = some { cycle := 0, tick := 0, stage := State.monStage, data := State.packConds f coarse xs, deadline := dl } ∧ (s.ctxAt 0).st = .waiting ∧
    z.drainsOut = false ∧ xs.length ≤ 4 ∧ (∀ l ∈ State.condLines xs, z.lineHeld l = false ∧ z.rangeAt l = none) ∧
    (s.pkg.hits.contains 0 = true ∨ State.condMask (z.fineNow (s.ctxAt 0).mons.length xs) ≠ 0 ∨ coarse = true ∨ dl.isSome = true) ∧ 0 ≤ s.tick 0 ∧ 7 < s.tick 0) &&
    (match f with | .any => xs.any z.condNow | _ => xs.all z.condNow) == met
noncomputable def result (f : State.Form) (xs : List State.Cond) (coarse : Bool) (dl : Option Nat) (hit : Bool) (i : Instr) : Option (List Nat) :=
  let s := watching f xs coarse dl
  let s := if hit then s.modPkg fun p => { p with hits := [0] } else s
  match (out i s).ctx.wait with | some w => if w.stage = State.monDone then some w.data else none | none => none
theorem witness_WaitSteps :
    (mayCheck .any [cond4, cond1] false none false true = true ∧ result .any [cond4, cond1] false none false (.monitorRecheck 0) = some [1]) ∧
    (mayCheck .any [cond1] false none true false = true ∧ result .any [cond1] false none true (.monitorRecheck 0) = none) ∧
    (mayCheck .all [cond0, cond4] false none true true = true ∧ result .all [cond0, cond4] false none true (.monitorRecheck 0) = some [3]) ∧
    (mayCheck .all [cond0, cond4, cond1] true none false false = true ∧ mayCheck .all [cond0, cond4] true none false true = true ∧
      result .all [cond0, cond4] true none false (.coarseRecheck 0) = some [35]) ∧
    (mayCheck .all [cond0, cond1] false (some 7) false false = true ∧ result .all [cond0, cond1] false (some 7) false (.waitTimeout 0) = some [17] ∧
      mayCheck .any [cond0] true (some 7) false true = true ∧ result .any [cond0] true (some 7) false (.waitTimeout 0) = some [33]) ∧
    (mayCheck .join [condJoin 0] true (some 7) false false = true ∧ result .join [condJoin 0] true (some 7) false (.waitTimeout 0) = some [3] ∧
      mayCheck .join [condJoin 8] false none true true = true ∧ result .join [condJoin 8] false none true (.monitorRecheck 0) = some [0]) ∧
    (mayCheck .bar [condBar 3] false none true true = true ∧ result .bar [condBar 3] false none true (.monitorRecheck 0) = some [2]) ∧
    ((watching .any [cond1] false none).pkg.gvtAt / 16 < (watching .any [cond1] false none).tick 0 / 16) ∧
    (let s := { (pending (contexts [])).modPkg fun p => { p with gvt := [(0, ord9 + 1)] } with plan := {} }
     (s.dieAt 0).attic.filter (fun z => z.slot == slot9 && z.by'.isNone) = [pend9] ∧ pend9.ord < s.gvtOf pend9.domain) ∧
    (let s := (task9 .wavetask (committed9 0) 1)
     let t := s.setCtx { s.ctx with aborting := true }
     (t.ctxAt 0).aborting = true ∧ (t.ctxAt 0).st = .ready ∧ State.ranging (t.ctxAt 0).wait = false) ∧
    (let s := (bench []).setCtx { (bench []).ctx with st := .stalled, readyAt := 0 }
     (s.ctxAt 0).st = .stalled ∧ (s.ctxAt 0).readyAt ≤ s.cycle) := by decide +kernel

/-- A class-0 message waits while every context of core 0 is taken by class-2 activations; the issuing one is the victim. -/
def busyCore : State :=
  let c : Ctx := { Ctx.reset with st := .ready, pri := 2#2 }
  let s := (bench []).modCore 0 fun k => { k with inbox := [(0, [{ msg0 with dst := 0, cls := 0 }])] }
  { s with ctx := { s.ctx with pri := 2#2, act := { s.ctx.act with start := 9 } }, parked := [(1, c), (2, c)] }
/-- The issuing context is the victim; saving; its image is complete; and nothing else waits. -/
def victim : State := (bench [(1, 5#64), (31, 6#64)]).setCtx { (bench [(1, 5#64), (31, 6#64)]).ctx with victim := true, pri := 1#2 }
def saved : State := victim.haltAt 0
def restorable : State := idle.setCtxAt 0 { Ctx.reset with st := .dormant, img := some { act := {}, ord := 0, pri := 0, complete := true } }
/-- A stop of the die, asked for; with nothing that issues; and with the issuing context still at work. -/
def stop0 : Stop := { die := 0, dom := 4, site := 0, tick := 0, reason := 1 }
def stopping (s : State) : State := s.modPkg fun p => { p with stops := [stop0] }
theorem witness_HaltSteps :
    (let s := busyCore
     s.wantsVictim 0 = true ∧ s.victimOf 0 = some 0) ∧
    ((victim.ctxAt 0).victim = true ∧ (victim.ctxAt 0).st = .ready ∧ (victim.ctxAt 0).wait.any (fun w => !w.short) = false ∧ (victim.ctxAt 0).frm.act = false ∧ (victim.ctxAt 0).wait.any (·.ending) = false) ∧
    ((saved.ctxAt 0).st = .saving ∧ saved.imageWaits 0 = false) ∧ picked restorable 3 = true ∧
    (bits (BitVec.ofNat 64 (5 * 2 ^ 59) : Word) 61 59 ≠ 7 ∧ bits (BitVec.ofNat 64 (7 * 2 ^ 59) : Word) 61 59 = 7) ∧
    (let s := (bench []).modPkg fun p => { p with heldWrites := [(1, 64, [1#8, 2#8, 3#8, 4#8])], stops := [{ stop0 with dom := 5, landed := true }] }
     s.allStopped = true ∧ (out (.stopResume 0) s).allStopped = false ∧ (out (.stopResume 0) s).byte (2 ^ 63 + 1 % 4 * 2 ^ 27 + 64 + 3) = 4#8) ∧
    ((stopping idle).stillIssue stop0 = [] ∧ stop0.landed = false ∧ stop0.resuming = false ∧
      (let s := { stopping (bench []) with cycle := 45 * 2000 }
       stop0.tick + max 1 (bits (s.reg 0 0x400000) 31 16) ≤ s.tick 0 ∧ ∃ y ∈ s.stillIssue stop0, State.atBoundary (s.ctxAt y) = true)) := by decide +kernel

/-! ## Witnesses: lines, memory, the matrix engine, debug, system -/

/-- The line of the range of `ranged`, and the range itself. -/
def line1 : Nat := lineOf (gloc 0 0x8000001000)
def range1 : Range := { base := 0x1000#64, len := 128, fmt := .f32, bound := 0x3F800000#64, key := 0, mkid := 0, lines := [line1] }
/-- The home of the line with these messages and sharers; core 0 holds a partial line of it, or none. -/
def homed (up : List UpMsg) (down : List DownMsg) (sh : List Sharer) (p : Option Partial) : State :=
  let s := (ranged (mapped (bench []))).modPkg fun k => { k with rlines := [(line1, { sharers := sh, up := up, down := down })] }
  s.modCore 0 fun c => { c with parts := [(line1, p)], unacked := 2 }
def part1 : Partial := { elems := List.replicate 32 0x3F000000#64, track := 0x3F000000#64, budget := 0x3F800000#64 }
def sharer0 : Sharer := { core := 0, budget := 0x3F800000#64, counted := 0x3F800000#64, seq := 1 }
def drain0 (e : Bool) : Drain := { core := 0, elems := part1.elems, track := part1.track, forced := false, empty := e }
/-- The coherence outline of line 5 and reservations of it. -/
def heldBy (h : Option Nat) : State := (bench []).modPkg fun p => { p with coh := [(5, { holder := h, wts := 3, rts := 4 })] }
def xfer9 : XCmd := { id := 9, op := 0, site := 0, serial := 0, slot := 0, ticket := 0x100, key := 0, mkid := 0, priv := true, cls := 0, td := [], ts := [], ti := [], tout := [], x := 0, y := 0#64, p := 0#32, n := 0, handler := 0#64, idx := [], lines := [] }
def reserved5 : State := (bench []).modPkg fun p => { p with resv := [(5, { ids := [9], granted := false })], xfers := [xfer9] }
/-- The forcing sequence of the line waits for core 0's answer to request 3, then for core 1's; an empty answer to request `q` has come. -/
def forcing (q : Nat) : State :=
  let s := homed [.drain { drain0 true with forced := true, ask := q }] [] [sharer0, { sharer0 with core := 1 }] none
  s.setRline line1 { s.rline line1 with asks := 3, forcing := some { owner := 9, since := 4, todo := [0, 1], eps := none, ask := 3 } }
theorem witness_LineSteps_forced :
    (∀ q ∈ [2, 3], State.takeUp 0 ((forcing q).rline line1).up = some (.drain { drain0 true with forced := true, ask := q }, []) ∧
      ((forcing q).rline line1).forcing = some { owner := 9, since := 4, todo := 0 :: [1], eps := none, ask := 3 } ∧ (forcing q).rangeAt line1 = some (5, range1)) ∧
    (let t := out (.drainArrival line1 0) (forcing 2)
     (t.rline line1).sharers.map (·.core) = [0, 1] ∧ (t.rline line1).up = []) ∧
    (let t := out (.drainArrival line1 0) (forcing 3)
     (t.rline line1).sharers.map (·.core) = [1] ∧ (t.rline line1).down = [.force 1 4]) ∧
    (let g : Sharer := { sharer0 with sent := [(1, 0x3F000000#64), (2, 0x3E800000#64)], budget := 0x3E800000#64 }
     g.sent.find? (fun z => z.1 == 1) = some (1, 0x3F000000#64) ∧ (g.acked .f32 1).counted = 0x3F000000#64 ∧ (g.acked .f32 2).counted = 0x3E800000#64) ∧
    (SMap.get false (homed [] [] [] none).pkg.bad line1 = false) := by decide +kernel
theorem witness_LineSteps :
    ((SMap.get {} (heldBy (some 7)).pkg.coh 5).holder = some 7 ∧ (7 ≠ 0) ∧ (SMap.get {} (heldBy none).pkg.coh 5).holder = none) ∧
    ((SMap.get {} reserved5.pkg.resv 5).ids = [9] ∧ (SMap.get {} reserved5.pkg.resv 5).granted = false ∧ reserved5.isCommand 9 = true ∧ reserved5.rangeAt 5 = none) ∧
    (let s := homed [.join 0, .ack 3 1] [] [] none
     (s.rline line1).forcing = none ∧ State.takeUp 0 (s.rline line1).up = some (.join 0, [.ack 3 1]) ∧ s.rangeAt line1 = some (5, range1) ∧ (s.rline line1).sharers = []) ∧
    (let s := homed [.join 0] [] [sharer0] none
     (s.rline line1).forcing.all (fun z => !z.todo.isEmpty) = true ∧ (s.rline line1).sharers.find? (fun z => z.core == 0) = some sharer0) ∧
    (let s := homed [.drain (drain0 false)] [] [sharer0] none
     State.takeUp 0 (s.rline line1).up = some (.drain (drain0 false), []) ∧ State.takeUp 0 ((homed [.drain (drain0 true)] [] [] none).rline line1).up = some (.drain (drain0 true), [])) ∧
    (let s := homed [] [.budget 0 2 0x3F400000#64] [sharer0] (some part1)
     State.takeDown 0 (s.rline line1).down = some (.budget 0 2 0x3F400000#64, []) ∧ s.part 0 line1 = some part1 ∧ part1.bseq < 2 ∧
       RFmt.f32.over part1.track 0x3F400000#64 = false ∧ (homed [] [.budget 0 2 0#64] [] none).part 0 line1 = none) ∧
    (State.takeUp 0 ((homed [.ack 0 1] [] [sharer0] none).rline line1).up = some (.ack 0 1, [])) ∧
    (State.takeDown 0 ((homed [] [.force 0 3, .drainAck 3] [sharer0] (some part1)).rline line1).down = some (.force 0 3, [.drainAck 3]) ∧
      (homed [] [.force 0 3, .drainAck 3] [sharer0] (some part1)).drainPending 0 line1 = false ∧ part1.track ≠ 0#64 ∧
      (homed [.drain (drain0 false)] [.force 0 3] [sharer0] (some part1)).drainPending 0 line1 = true) ∧
    (State.takeDown 0 ((homed [] [.drainAck 0] [] none).rline line1).down = some (.drainAck 0, []) ∧ ((homed [] [.drainAck 0] [] none).coreAt 0).unacked = 2) := by decide +kernel

/-- Shelf 1 of cluster 0 on its way to CACHE. -/
def switching : State := (bench []).modClu 0 fun c => { c with shelves := [(1, { mode := .scratch, target := some .cache })] }
/-- Tracking is on at die 0 with tick 2000; crate 8 moves to HBM. -/
def tracked : State := { (bench []).setReg 0 0x2000 (BitVec.ofNat 64 (1 + 1000 * 2 ^ 12)) with cycle := 90000 }
def moving8 : State := (bench []).modPkg fun p => { p with crates := [(8, { medium := .cellar, moving := some .hbm })] }
/-- A transfer that has been issued, and that has been granted its lines. -/
noncomputable def issued : State :=
  (out (.xferGather 0#3 9#5 4#5 0#5) (transfer 4)).modPkg fun p => { p with resv := p.resv.map fun e => (e.1, { e.2 with granted := true }) }
noncomputable def issued1 : Option XCmd := issued.pkg.xfers.head?
/-- Die 0 with a fault window that opened at tick 5 and one park in it, `n` lists' worth of entries that wait, at tick 2000. -/
def park1 : Park := { key := 3, page := 0x55, access := 1, agent := 0, site := 2, tick := 6 }
def gathering (formed : List Park) : State := { (bench []).modDie 0 fun d => { d with winStart := some 5, parks := [park1], formed := formed } with cycle := 90000 }
/-- Crates 4 and 5 in the cellar; a core holds a line of crate 4. -/
def cellared (held : Bool) : State :=
  (bench []).modPkg fun p => { p with crates := [(4, { medium := .cellar }), (5, { medium := .cellar })], coh := if held then [(2048, { holder := some 3 })] else [] }
/-- Messages for the service context of core 0. -/
def serviced (k : Kind) : State := idle.modCore 0 fun c => { c with
  inbox := [(12, [{ msg0 with dst := 3, cls := 0, kind := k, payload := [7#64, 9#64], req := some { asker := 5, token := 9, key := ploc 0 0 0, op := 0 } }])],
  server := some { site := 3, treep := 0#64, fmt := 1, n := 3, sum := [1#64] } }
/-- Every line and row of the transfer is there for its completion; the AMO request is there to serve. -/
noncomputable def xferCase : Bool := match issued1 with
  | some c => decide (c.parked = none ∧ c.verdict = 0 ∧ (∀ l ∈ c.lines, issued.granted c.id l = true) ∧ issued.pkg.xfers.find? (fun z => z.id == c.id) = some c) &&
      (match issued.rowsData c 0 c.n with | (rows, .ok () _) => decide (∀ l ∈ State.linesOf ((rows.flatten.map fun (w : Area × List (Nat × Nat) × Nat) => w.2.1).flatten), l ∈ c.lines) | _ => false)
  | none => false
def amoCase (s : State) : Bool := match s.takeService 0 .amo with
  | some (_, m, _) => (match m.req with | some r => decide (r.token ≠ 0 ∧ s.lineBusy 0 (lineOf r.key) = false ∧ s.rangeAt (lineOf r.key) = none) | none => false)
  | none => false
theorem witness_MemorySteps :
    ((SMap.get {} (switching.cluAt 0).shelves 1).target = some .cache ∧ switching.pkg.resv = []) ∧
    ((tracked.reg 0 0x2000).getLsbD 0 = true ∧ (tracked.dieAt 0).evalAt / tracked.period 0 < tracked.tick 0 / tracked.period 0 ∧ SMap.wf {} tracked.pkg.crates = true) ∧
    ((SMap.get {} moving8.pkg.crates 8).moving = some .hbm) ∧
    xferCase = true ∧
    (((gathering []).dieAt 0).winStart = some 5 ∧ 5 + (gathering []).faultWin 0 ≤ (gathering []).tick 0 ∧ ((gathering []).reg 0 0x1000).getLsbD 62 = false ∧
      ((gathering []).dieAt 0).formed = [] ∧ ((gathering []).dieAt 0).parks = [park1] ∧ park1.tick < 5 + (gathering []).faultWin 0 ∧ (gathering []).pkg.bad = [] ∧
      (gathering []).listHeld 0 1 = false) ∧
    ((∀ k ∈ [4, 5], (cellared true).medium k = .cellar ∧ (cellared false).medium k = .cellar) ∧ (cellared true).extentHeld 4 2 = true ∧ (cellared false).extentHeld 4 2 = false ∧
      (4, 2) ∈ ((cellared true).modPkg fun p => { p with releasing := [(4, 2)] }).pkg.releasing ∧
      ((cellared false).modCore 0 fun c => { c with parts := [(2048, some part1)] }).extentHeld 4 2 = true ∧
      (out (.extentRelease 4 2) (cellared true)).pkg.releasing = [(4, 2)] ∧ (SMap.get {} (out (.extentRelease 4 2) (cellared false)).pkg.crates 5).released = true) ∧
    (let s := (bench []).setReg 0 0xA8 (BitVec.ofNat 64 (2 ^ 63))
     s.booted = true ∧ s.medium (crateOf (gloc 0 (2 ^ 46))) = .absent ∧ s.medium (crateOf (gloc 0 0x1000)) ≠ .absent ∧ s.lineBusy 0 (lineOf (gloc 0 0x1000)) = false ∧
       s.rangeAt (lineOf (gloc 0 0x1000)) = none ∧ (bench []).pkg.hist = [] ∧ (bench []).pkg.bad = []) ∧
    (amoCase (serviced .amo) = true ∧
     ((serviced .reduce).takeService 0 .reduce).isSome = true ∧ ((serviced .reduce).coreAt 0).server = some { site := 3, treep := 0#64, fmt := 1, n := 3, sum := [1#64] }) := by decide +kernel

/-- An MMA of one row and one column with K = 32, accepted and running on cluster 0. -/
noncomputable def accepted : State :=
  let s := (leased (mapped (bench [(4, 0x0101#64), (5, 0#64), (6, BitVec.ofNat 64 (32 * 2 ^ 32))]))).setTensor 1 bf16
  out (.mmaNew 0#3 4#5 0#1) s
def dest1 : Nat := lineOf (gloc 0 0x8000004000)
noncomputable def cmd1 (f : MCmd → MCmd) : State :=
  (accepted.modClu 0 fun c => { c with cmds := c.cmds.map f }).modPkg fun p => { p with tlb := [], resv := [(dest1, { ids := (accepted.cluAt 0).cmds.map (·.id), granted := true })] }
noncomputable def cmd1Of (f : MCmd → MCmd) : MCmd := ((cmd1 f).cluAt 0).cmds.headD { id := 0, op := .macc false false, plane := 0, site := 0, serial := 0, key := 0, mkid := 0, priv := false, cls := 0, primary := 0, members := [], tens := [], args := [] }
/-- It is running; its groups are done; it is a drain, plain or staged, with one row of one element. -/
def run0 (m : MCmd) : MCmd := { m with started := true, kept := (List.range 128).map fun i => (dest1 * 128 + i, 0#8) }
def run1 (m : MCmd) : MCmd := { m with started := true, prog := 1 }
def drain1 (m : MCmd) : MCmd := { m with op := .macc false false, lines := [dest1], tens := [fp32 16], args := [1, 1, 0, 0] }
def staged1 (xs : List RowSlot) (m : MCmd) : MCmd := { m with lines := [dest1], op := .macc false true, tens := [fp32 16], args := [1, 1, 0, 0], rowh := some { entry := 0x4000#64, shelf := 0, area := 0 }, slots := xs, staged := xs.length }
noncomputable def alone (f : MCmd → MCmd) : Bool :=
  let m := cmd1Of f
  decide (((cmd1 f).cluAt 0).cmds = [m] ∧ clusterOf m.site = 0 ∧ (cmd1 f).dieCmds 0 = [m] ∧ m.failed = false ∧ m.parked = [] ∧ m.verdict = 0)
theorem witness_MatrixSteps :
    (alone run0 = true ∧ (cmd1Of run0).op.isMma = true ∧ (cmd1Of run0).prog < (cmd1Of run0).groupsK ∧
      (match (cmd1 run0).membersGo (cmd1Of run0) (cmd1Of run0).members with
       | (none, q, u) => decide (q ≠ cmd1Of run0) && (cmd1Of run0).members.all q.ahead.contains && !(u.reg 0 0x3008).getLsbD 63 | _ => false) = true ∧
      (cmd1Of run0).ahead = [] ∧ (cmd1Of run0).members = [0] ∧ (match (cmd1 run0).memberGroup (cmd1Of run0) 0 with | .ok _ _ => true | _ => false) = true) ∧
    (match (cmd1 run0).memberGroup { cmd1Of run0 with tens := [fp32 0, bf16], args := [1, 1, 0, 0, 2 ^ 40, 32] } 0 with | .err .. => true | _ => false) = true ∧
    (match (cmd1 run0).membersGo { cmd1Of run0 with members := [0, 1], parked := [{ member := 0, key := 0, page := 0, val := 0#64 }] } [0, 1] with
      | (none, q, _) => q.ahead == [1] | _ => false) = true ∧
    (alone run1 = true ∧ (cmd1Of run1).groupsK ≤ (cmd1Of run1).prog) ∧
    (alone drain1 = true ∧ (cmd1Of drain1).lines = [dest1] ∧ (cmd1 drain1).granted (cmd1Of drain1).id dest1 = true ∧
      (match (cmd1 drain1).cmdRows (cmd1Of drain1) 0 1 with
       | (rows, .ok ..) => decide (State.linesOf ((rows.flatten.map fun (w : Area × List (Nat × Nat) × Nat) => w.2.1).flatten) = [dest1]) | _ => false) = true) ∧
    (alone (staged1 []) = true ∧ (cmd1Of (staged1 [])).staged < (cmd1Of (staged1 [])).segs ∧
      ∀ k ∈ List.range 16, (match (cmd1 (staged1 [])).engRuns (cmd1Of (staged1 [])).who .write (State.slotAddr (cmd1Of (staged1 [])) k) 4 with | .ok r w => !(State.linesOf r).any (w.lineBusy (cmd1Of (staged1 [])).id) | _ => false) = true) ∧
    (alone (staged1 [{ slot := 3, seg := 0, st := 2 }]) = true ∧ (cmd1Of (staged1 [{ slot := 3, seg := 0, st := 1 }])).slots = [{ slot := 3, seg := 0, st := 1 }]) ∧
    (let s := arrayed (waitingFor (bench []) { cycle := 0, tick := 0, stage := State.acqStage, data := [0] }) [{ primary := 0 }] none
     (s.cluAt 0).lease = none ∧ s.claimants 0 = [(0, 0, 0)]) ∧
    ((accepted.askStarts 0).startsOf 0).length = 1 ∧ (accepted.dieAt 0).lastGrant = none := by decide +kernel

/-- The kernel instance 0, of kernel-table entry 2, has been recorded and has ended; recording is on; one crate is listed for capture. -/
def recording : State :=
  let s := (bench []).modPkg fun p => { p with replay := { p.replay with log := [{ msg := { msg0 with entry := 0x4000#64 }, tick := 1 }], insts := [0], kernels := [(0, 2)], recording := true } }
  s.setReg 0 0x401080 (BitVec.ofNat 64 (2 ^ 63 + 0x4000))
/-- A replay with one command left. -/
def replaying : State := ((bench []).modPkg fun p => { p with replay := { p.replay with log := [{ msg := msg0, tick := 1 }], replaying := true } }).setReg 0 0xA8
  (BitVec.ofNat 64 (2 ^ 63))
/-- A stop of the package has landed. -/
def landed5 : State := (bench []).modPkg fun p => { p with stops := [{ stop0 with dom := 5, landed := true }] }
def crcCase (s : State) : Bool := match s.crcAll 2 0#64 0 3 with | .inl _ => true | _ => false
theorem witness_DebugSteps :
    (landed5.pkg.stops.any (fun t => t.landed && t.dom == 5) = true ∧ (bench []).pkg.stops = []) ∧
    ((bench []).replayOk = false ∧ idle.replayOk = true) ∧
    (let s := { replaying with cycle := 100 }
     s.pkg.replay.armed = false ∧ s.pkg.replay.recording = false ∧ s.booted = true ∧ (s.dieAt 0).scanAt ≤ s.cycle ∧ (s.pkg.replay.log[s.pkg.replay.next]?).isSome = true ∧ dieOf msg0.dst = 0 ∧
       s.inboxRoom (coreOf msg0.dst) (State.inboxOf msg0) = true ∧ msg0.cls ≠ 0) ∧
    (0 ∈ recording.pkg.replay.insts ∧ recording.instLives 0 = false ∧ recording.kernelOf 0x4000#64 = some 2 ∧ SMap.get 0 recording.pkg.replay.kernels 0 = 2 ∧
      crcCase recording = true ∧ recording.pkg.replay.replaying = false) ∧
    (let s := landed5.modPkg fun p => { p with heldWrites := [(1, 64, [1#8, 2#8])] }
     s.pkg.heldWrites = [(1, 64, [1#8, 2#8])] ∧ 64 % 2 ^ 27 + 2 ≤ 2 ^ 27 ∧ s.pkg.bad = []) := by decide +kernel

/-- Address 0x40000040 is mapped for execution. -/
def publishing : State := mapped (bench [(1, 0x40000040#64), (2, 200#64), (3, 0#64)])
theorem witness_SystemSteps :
    (let s := publishing
     let r := s.reach .code 0 (s.g 1#5) 1 200 (crateParts (s.g 1#5).toNat 0 200 2)
     Ready s (gs [1#5, 2#5]) ∧ s.drainsOut = false ∧ (s.g 2#5).toNat % 2 ^ 32 ≠ 0 ∧ (s.g 3#5).toNat % 2 ^ 32 = 0 ∧ (s.g 1#5).toNat + 200 ≤ 0xFE * 2 ^ 48 ∧ goes r = true ∧
       (reached r s).drainsOut = false) ∧
    (((bench []).dieAt 0).publishing = none ∧ (((bench []).modDie 0 fun d => { d with publishing := some (1, 2, 0) }).dieAt 0).publishing ≠ none) ∧
    (((bench []).modDie 0 fun d => { d with publishing := some (1, 2, 0) }).pkg.hostReqs = []) ∧
    (let s := { bench [] with cycle := 45 * 200 }
     let hot := s.measure 0 (16 * 9999)
     let cool := { (s.measure 0 0) with cycle := 45 * 400 }
     s.alarm 0 = false ∧ ({ hot with cycle := 45 * 400 } : State).powerHigh 0 = true ∧
       (cool.setReg 0 0x3008 (BitVec.ofNat 64 (2 ^ 63 + 700 * 2 ^ 32))).alarm 0 = true ∧ (cool.setReg 0 0x3008 (BitVec.ofNat 64 (2 ^ 63 + 700 * 2 ^ 32))).powerLow 0 = true) ∧
    (((bench []).dieAt 0).attesting = none ∧ (∀ l ∈ State.linesOf [(gloc 0 0, 256)], (bench []).rangeAt l = none ∧ (bench []).lineBusy 0 l = false) ∧
      (let s := (bench []).modPkg fun p => { p with resv := [(0, { ids := [9], granted := true })] }
       s.lineBusy 0 0 = true ∧ 0 ∈ State.linesOf [(gloc 0 0, 256)] ∧ SMap.get false s.pkg.bad 0 = false ∧
         ((out (.attestation 0) s).dieAt 0).attesting = some (gloc 0 0, List.replicate 32 0#8)) ∧
      (let s := (bench []).modDie 0 fun d => { d with attesting := some (gloc 0 0x100, List.replicate 32 7#8) }
       (s.dieAt 0).attesting = some (gloc 0 0x100, List.replicate 32 7#8) ∧ (List.replicate 32 7#8).length = 32)) ∧
    (let s := ((bench []).setReg 0 0x8000 0x1122#64).setReg 0 0x8008 0x3344#64
     SMap.get KeySt.none ((bench []).dieAt 0).keys 5 ≠ .loaded ∧ (bench []).pkg.bad = [] ∧ (s.dieAt 0).loading = none) ∧
    (let s := { bench [] with cycle := 45 * 200000 }
     (s.reg 0 0x4000).getLsbD 63 = true ∧ ((s.dieAt 0).lastTel / 100000 + 1) * 100000 ≤ s.tick 0 ∧ s.lineBusy 0 (lineOf (gloc 0 0)) = false ∧ (s.dieAt 0).telOwed = [] ∧
       ((s.modDie 0 fun d => { d with telOwed := [100000, 200000] }).dieAt 0).telOwed = 100000 :: [200000]) ∧
    ((bench []).pkg.xfers = [] ∧ ∀ x ∈ SMap.vals (bench []).clus, x.cmds = []) := by decide +kernel

/-- A value tested for being a number. -/
def isNumber : Ex → Bool
  | .fin _ _ d _ => decide (0 < d)
  | _ => false
theorem number {x : Ex} (h : isNumber x = true) : IsNumber x := by
  cases x with
  | fin => simpa [isNumber, IsNumber] using h
  | _ => cases h
/-- Finite results that do not and that do overflow, in two modes; the largest sum that rounds down to the largest value. -/
theorem witness_RoundingLaws :
    (0 < 3 ∧ ¬overflows .f16 .rne true (exVal (.fin false 1 3 0)) ∧ overflows .f16 .rne false (exVal (.fin false 65520 1 0)) ∧
      ¬overflows .f16 .rne false (exVal (.fin false 65519 1 0)) ∧ overflows .e4m3 .ru false (exVal (.fin false 449 1 0)) ∧ ¬overflows .e4m3 .rz false (exVal (.fin false 449 1 0)) ∧
      overflows .e2m1 .rne true (exVal (.fin false 7 1 0))) ∧
    (IsNumber (.fin true 7 2 0) ∧ RoundsInt .rne (exVal (.fin true 7 2 0)) (-4) ∧ RoundsInt .rz (exVal (.fin true 7 2 0)) (-3) ∧ RoundsInt .ru (exVal (.fin false 511 2 0)) 256) := by
  refine ⟨?_, number (by decide), ?_⟩
  · unfold overflows takesUpper; decide +kernel
  · unfold RoundsInt; decide +kernel
/-- Numbers as operands; the four clamps; a power of two that bounds a value, and one below the least normal. -/
theorem witness_LaneLaws :
    (IsNumber (.fin true 3 1 (-1)) ∧ IsNumber (Fmt.f16.dec 0x3C00) ∧ (∀ c : BitVec 2, ({ someMod with clamp := c } : Mod).clamp = c) ∧ (0x3C00 < 2 ^ Fmt.f16.width) ∧
      (Fmt.f16.dec 0x7E00).isNan = true ∧ IsNumber (Fmt.f16.dec ((someMod.lit).toNat % 65536)) ∧ IsNumber (Fmt.f16.dec ((someMod.lit).toNat / 65536))) ∧
    ((2 : Rat) ^ (0 : Int) ≤ exVal (.fin false 3 2 0) ∧ exVal (.fin false 3 2 0) < (2 : Rat) ^ ((0 : Int) + 1) ∧
      (2 : Rat) ^ (-20 : Int) ≤ exVal (.fin false 1 1 (-20)) ∧ exVal (.fin false 1 1 (-20)) < (2 : Rat) ^ ((-20 : Int) + 1)) := by
  refine ⟨⟨number (by decide), number (by decide +kernel), fun _ => rfl, by decide, by decide +kernel, number (by decide +kernel), number (by decide +kernel)⟩, ?_⟩
  decide +kernel

theorem witness_RoundTrip :
    (Instr.ld 1#3 4#5 2#5 3#3 1#2 127#7).wf = true ∧ (Instr.ld 1#3 4#5 2#5 3#3 1#2 127#7).longOnly = false ∧ (Instr.ld 1#3 4#5 2#5 3#3 1#2 127#7).modeFault false = false ∧
    (let i := Instr.vcvt { mask := some 7#3, mod := none } 0#3 1#5 3#5 0#1 1#1 3#3 0#3 0#1 1#2
     i.wf = true ∧ i.longOnly = false ∧ i.modeFault true = false) := by decide +kernel

/-- The dies have booted; an instruction stands at the program counter, in a page mapped for execution; engines are quiet for a step. -/
def placed (w : Nat) : State :=
  let s := mapped (bench [(2, 9#64)])
  let s := { s with ctx := { s.ctx with pc := 0x40000000#56 }, plan := { s.plan with quiet := 1 } }
  (s.setReg 0 0xA8 (BitVec.ofNat 64 (2 ^ 63))).pokeNat (gloc 0 0x8040000000) 4 w
def issuing (w : Nat) : State := (({ placed w with plan := { (placed w).plan with quiet := (placed w).plan.quiet - 1 } }).focus 0).noteTurn
def fetched (w : Nat) (k : Nat) : Bool := match (issuing w).fetchWord (0x40000000 + 4 * k) k with | .word x _ => x == BitVec.ofNat 32 w | _ => false
theorem fetches_one (w : Nat) (h : fetched w 0 = true) : ∃ u, Fetches 0x40000000 u 0 [BitVec.ofNat 32 w] (issuing w) := by
  unfold fetched at h
  split at h
  · rename_i x u e; exact ⟨u, u, by rw [e, eq_of_beq h], rfl⟩
  · cases h
theorem witness_StepRunsDecoded :
    (Issues (placed 0x0C462FFB) (issuing 0x0C462FFB) 0 ∧ (issuing 0x0C462FFB).ctx.pc = 0x40000000#56) ∧
    ((match (issuing 0x0C462FFB).fetchUnit 0x40000000 with | .unit (some i) _ _ => i == .addi 1#3 3#5 2#5 0xFFB#12 | _ => false) = true ∧
      (match (issuing 0x90000000).fetchUnit 0x40000000 with | .unit none _ _ => true | _ => false) = true) ∧
    (∃ u, Fetches 0x40000000 u 0 [0x0C462FFB#32] (issuing 0x0C462FFB)) ∧ decodeUnit false [0x0C462FFB#32] = .ok (.addi 1#3 3#5 2#5 0xFFB#12) ∧
    (∃ u, Fetches 0x40000000 u 0 [0x3E000000#32] (issuing 0x3E000000)) ∧ shapeUnit false [0x3E000000#32] = .bad .illegalOpcode 0 0x3E000000#32 ∧
    shapeUnit false [] = .more ∧
    (let t := issuing 0x0C462FFB
     t.drainsOut = false ∧ t.lineHeld (lineOf (gloc 0 0x8040000000)) = false ∧ t.openFor (lineOf (gloc 0 0x8040000000)) t.site = false ∧
       t.mediaFault true [(gloc 0 0x8040000000, 4)] = none ∧ t.headFault t.me 0 0x40000000#64 1 = none ∧ (match t.place t.me .fetch 0 0x40000000 64 with | .at _ _ => true | _ => false) = true) := by
  refine ⟨by unfold Issues; decide +kernel, by decide +kernel, fetches_one _ (by decide +kernel), by rfl, fetches_one _ (by decide +kernel), by decide +kernel, by decide +kernel, by decide +kernel⟩

theorem witness_MemoryCanonical :
    Memory.wf (placed 0x0C462FFB).mem = true ∧ (match step (placed 0x0C462FFB) with | .next t => Memory.wf t.mem && t.g 3#5 == 4#64 | _ => false) = true := by decide +kernel

/-! ## Decoding: a word of every encoded row, put together from the row's fixed bits and fields in spec/opcode_table.json; the prefixes, the literals
and the refusals of 02_encoding -/

/-- Each list of words decodes to the instruction beside it, and that instruction encodes as the list. -/
noncomputable def decodes (long : Bool) (ws : List (List IWord × Instr)) : Bool := ws.all fun e => match decodeUnit long e.1 with | .ok i => i == e.2 && encode i == e.1 | _ => false
theorem test_words_0 : decodes false [
    ([0x03464300#32], .aluAdd Pre.none 5#3 3#5 4#5 6#5),
    ([0x03464301#32], .aluSub Pre.none 5#3 3#5 4#5 6#5),
    ([0x03464302#32], .aluAnd 5#3 3#5 4#5 6#5),
    ([0x03464303#32], .aluOr 5#3 3#5 4#5 6#5),
    ([0x03464304#32], .aluXor 5#3 3#5 4#5 6#5),
    ([0x03464305#32], .aluAndn 5#3 3#5 4#5 6#5),
    ([0x03464306#32], .aluOrn 5#3 3#5 4#5 6#5),
    ([0x03464307#32], .aluXnor 5#3 3#5 4#5 6#5),
    ([0x03464308#32], .aluShl 5#3 3#5 4#5 6#5),
    ([0x03464309#32], .aluShr 5#3 3#5 4#5 6#5),
    ([0x0346430A#32], .aluSar 5#3 3#5 4#5 6#5),
    ([0x0346430B#32], .aluRol 5#3 3#5 4#5 6#5),
    ([0x0346430C#32], .aluRor 5#3 3#5 4#5 6#5),
    ([0x0346430D#32], .aluSlt 5#3 3#5 4#5 6#5),
    ([0x0346430E#32], .aluSltn 5#3 3#5 4#5 6#5),
    ([0x0346430F#32], .aluMin 5#3 3#5 4#5 6#5),
    ([0x03464310#32], .aluMax 5#3 3#5 4#5 6#5),
    ([0x03464311#32], .aluMinn 5#3 3#5 4#5 6#5),
    ([0x03464312#32], .aluMaxn 5#3 3#5 4#5 6#5),
    ([0x03464313#32], .aluAbsd Pre.none 5#3 3#5 4#5 6#5),
    ([0x05464300#32], .aluwAdd Pre.none 5#3 3#5 4#5 6#5),
    ([0x05464301#32], .aluwSub Pre.none 5#3 3#5 4#5 6#5),
    ([0x05464302#32], .aluwAnd 5#3 3#5 4#5 6#5),
    ([0x05464303#32], .aluwOr 5#3 3#5 4#5 6#5)] = true := by decide +kernel
theorem test_words_1 : decodes false [
    ([0x05464304#32], .aluwXor 5#3 3#5 4#5 6#5),
    ([0x05464305#32], .aluwAndn 5#3 3#5 4#5 6#5),
    ([0x05464306#32], .aluwOrn 5#3 3#5 4#5 6#5),
    ([0x05464307#32], .aluwXnor 5#3 3#5 4#5 6#5),
    ([0x05464308#32], .aluwShl 5#3 3#5 4#5 6#5),
    ([0x05464309#32], .aluwShr 5#3 3#5 4#5 6#5),
    ([0x0546430A#32], .aluwSar 5#3 3#5 4#5 6#5),
    ([0x0546430B#32], .aluwRol 5#3 3#5 4#5 6#5),
    ([0x0546430C#32], .aluwRor 5#3 3#5 4#5 6#5),
    ([0x0546430D#32], .aluwSlt 5#3 3#5 4#5 6#5),
    ([0x0546430E#32], .aluwSltn 5#3 3#5 4#5 6#5),
    ([0x0546430F#32], .aluwMin 5#3 3#5 4#5 6#5),
    ([0x05464310#32], .aluwMax 5#3 3#5 4#5 6#5),
    ([0x05464311#32], .aluwMinn 5#3 3#5 4#5 6#5),
    ([0x05464312#32], .aluwMaxn 5#3 3#5 4#5 6#5),
    ([0x05464313#32], .aluwAbsd Pre.none 5#3 3#5 4#5 6#5),
    ([0x07464300#32], .mulLo Pre.none 5#3 3#5 4#5 6#5),
    ([0x07464301#32], .mulHi 5#3 3#5 4#5 6#5),
    ([0x07464302#32], .mulHin 5#3 3#5 4#5 6#5),
    ([0x07464303#32], .mulHisn 5#3 3#5 4#5 6#5),
    ([0x07464304#32], .mulW Pre.none 5#3 3#5 4#5 6#5),
    ([0x07464305#32], .mulWn 5#3 3#5 4#5 6#5),
    ([0x09464300#32], .divQ 5#3 3#5 4#5 6#5),
    ([0x09464301#32], .divQn 5#3 3#5 4#5 6#5)] = true := by decide +kernel
theorem test_words_2 : decodes false [
    ([0x09464302#32], .divRem 5#3 3#5 4#5 6#5),
    ([0x09464303#32], .divRemn 5#3 3#5 4#5 6#5),
    ([0x09464304#32], .divQw 5#3 3#5 4#5 6#5),
    ([0x09464305#32], .divQnw 5#3 3#5 4#5 6#5),
    ([0x09464306#32], .divRemw 5#3 3#5 4#5 6#5),
    ([0x09464307#32], .divRemnw 5#3 3#5 4#5 6#5),
    ([0x0B464000#32], .bitClz 5#3 3#5 4#5),
    ([0x0B464001#32], .bitCtz 5#3 3#5 4#5),
    ([0x0B464002#32], .bitPopc 5#3 3#5 4#5),
    ([0x0B464003#32], .bitBrev 5#3 3#5 4#5),
    ([0x0B464004#32], .bitBswap 5#3 3#5 4#5),
    ([0x0B464005#32], .bitSext8 5#3 3#5 4#5),
    ([0x0B464006#32], .bitSext16 5#3 3#5 4#5),
    ([0x0B464007#32], .bitSext32 5#3 3#5 4#5),
    ([0x0B464008#32], .bitZext8 5#3 3#5 4#5),
    ([0x0B464009#32], .bitZext16 5#3 3#5 4#5),
    ([0x0B46400A#32], .bitZext32 5#3 3#5 4#5),
    ([0x0B46430B#32], .bitExtr 5#3 3#5 4#5 6#5),
    ([0x0B46430C#32], .bitExtrn 5#3 3#5 4#5 6#5),
    ([0x0B46430D#32], .bitDep 5#3 3#5 4#5 6#5),
    ([0x1D464300#32], .cmovNz Pre.none 5#3 3#5 4#5 6#5),
    ([0x1D464301#32], .cmovZ Pre.none 5#3 3#5 4#5 6#5),
    ([0x1D464302#32], .cmovLt Pre.none 5#3 3#5 4#5 6#5),
    ([0x1D464303#32], .cmovGe Pre.none 5#3 3#5 4#5 6#5)] = true := by decide +kernel
theorem test_words_3 : decodes false [
    ([0x0D464905#32], .addi 5#3 3#5 4#5 0x905#12),
    ([0x0F464905#32], .andi 5#3 3#5 4#5 0x905#12),
    ([0x11464905#32], .ori 5#3 3#5 4#5 0x905#12),
    ([0x13464905#32], .xori 5#3 3#5 4#5 0x905#12),
    ([0x17464905#32], .slti 5#3 3#5 4#5 0x905#12),
    ([0x19464905#32], .sltin 5#3 3#5 4#5 0x905#12),
    ([0x15464215#32], .shiShl 5#3 3#5 4#5 1#1 21#6),
    ([0x15464615#32], .shiShr 5#3 3#5 4#5 1#1 21#6),
    ([0x15464A15#32], .shiSar 5#3 3#5 4#5 1#1 21#6),
    ([0x15464E15#32], .shiRor 5#3 3#5 4#5 1#1 21#6),
    ([0x1B470045#32], .adpc 5#3 3#5 0x10045#17),
    ([0x23486845#32], .beq 5#3 4#5 6#5 0x845#12),
    ([0x25486845#32], .bne 5#3 4#5 6#5 0x845#12),
    ([0x27486845#32], .blt 5#3 4#5 6#5 0x845#12),
    ([0x29486845#32], .bge 5#3 4#5 6#5 0x845#12),
    ([0x2B486845#32], .bltn 5#3 4#5 6#5 0x845#12),
    ([0x2D486845#32], .bgen 5#3 4#5 6#5 0x845#12),
    ([0x39486845#32], .loop 5#3 4#5 6#5 0x845#12),
    ([0x2F470045#32], .jal 5#3 3#5 0x10045#17),
    ([0x31464905#32], .jalr 5#3 3#5 4#5 0x905#12),
    ([0x3348662D#32], .rpt 5#3 4#5 3#4 3#4 1#4 6#4 1#1),
    ([0x35400000#32], .nop 5#3),
    ([0x35460881#32], .srd 5#3 3#5 0x11#10),
    ([0x35460882#32], .swr 5#3 3#5 0x11#10)] = true := by decide +kernel
theorem test_words_4 : decodes false [
    ([0x35400103#32], .trap 5#3 0x2#10),
    ([0x35400104#32], .brk 5#3 0x2#10),
    ([0x35400005#32], .eret 5#3),
    ([0x35400006#32], .yield 5#3),
    ([0x35460107#32], .getid 5#3 3#5 2#5),
    ([0x37404302#32], .pubf 5#3 4#5 6#5 2#3),
    ([0x3B400000#32], .done 5#3),
    ([0x3B404001#32], .doneDec 5#3 4#5),
    ([0x3D460000#32], .actqEntry 5#3 3#5),
    ([0x3D460001#32], .actqKind 5#3 3#5),
    ([0x3D460002#32], .actqSendt 5#3 3#5),
    ([0x3D460003#32], .actqArrt 5#3 3#5),
    ([0x3D460004#32], .actqStartt 5#3 3#5),
    ([0x3D464005#32], .actqPend 5#3 3#5 4#5),
    ([0x3D460006#32], .actqDeq 5#3 3#5),
    ([0x614E4345#32], .ld 5#3 7#5 4#5 1#3 2#2 69#7),
    ([0x634E4345#32], .st 5#3 7#5 4#5 1#3 2#2 69#7),
    ([0x41464310#32], .vaddiAdd Pre.none 5#3 3#5 4#5 6#5 1#3),
    ([0x41464311#32], .vaddiSub Pre.none 5#3 3#5 4#5 6#5 1#3),
    ([0x41464312#32], .vaddiMin Pre.none 5#3 3#5 4#5 6#5 1#3),
    ([0x41464313#32], .vaddiMax Pre.none 5#3 3#5 4#5 6#5 1#3),
    ([0x41464314#32], .vaddiAbsd Pre.none 5#3 3#5 4#5 6#5 1#3),
    ([0x41464315#32], .vaddiAvg Pre.none 5#3 3#5 4#5 6#5 1#3),
    ([0x41464016#32], .vaddiNeg Pre.none 5#3 3#5 4#5 1#3)] = true := by decide +kernel
theorem test_words_5 : decodes false [
    ([0x41464017#32], .vaddiAbs Pre.none 5#3 3#5 4#5 1#3),
    ([0x43464310#32], .vlogiAnd Pre.none 5#3 3#5 4#5 6#5 1#3),
    ([0x43464311#32], .vlogiOr Pre.none 5#3 3#5 4#5 6#5 1#3),
    ([0x43464312#32], .vlogiXor Pre.none 5#3 3#5 4#5 6#5 1#3),
    ([0x43464313#32], .vlogiAndn Pre.none 5#3 3#5 4#5 6#5 1#3),
    ([0x43464314#32], .vlogiShl Pre.none 5#3 3#5 4#5 6#5 1#3),
    ([0x43464315#32], .vlogiShr Pre.none 5#3 3#5 4#5 6#5 1#3),
    ([0x43464316#32], .vlogiSar Pre.none 5#3 3#5 4#5 6#5 1#3),
    ([0x43464317#32], .vlogiRol Pre.none 5#3 3#5 4#5 6#5 1#3),
    ([0x43464318#32], .vlogiRor Pre.none 5#3 3#5 4#5 6#5 1#3),
    ([0x43464019#32], .vlogiNot Pre.none 5#3 3#5 4#5 1#3),
    ([0x4346401A#32], .vlogiPopc Pre.none 5#3 3#5 4#5 1#3),
    ([0x4346401B#32], .vlogiClz Pre.none 5#3 3#5 4#5 1#3),
    ([0x45464310#32], .vmuliLo Pre.none 5#3 3#5 4#5 6#5 1#3),
    ([0x45464311#32], .vmuliHi Pre.none 5#3 3#5 4#5 6#5 1#3),
    ([0x45464312#32], .vmuliMac Pre.none 5#3 3#5 4#5 6#5 1#3),
    ([0x45464313#32], .vmuliMsb Pre.none 5#3 3#5 4#5 6#5 1#3),
    ([0x47464310#32], .vcmpiEq Pre.none 5#3 3#5 4#5 6#5 1#3),
    ([0x47464311#32], .vcmpiNe Pre.none 5#3 3#5 4#5 6#5 1#3),
    ([0x47464312#32], .vcmpiLt Pre.none 5#3 3#5 4#5 6#5 1#3),
    ([0x47464313#32], .vcmpiLe Pre.none 5#3 3#5 4#5 6#5 1#3),
    ([0x47464314#32], .vcmpiGt Pre.none 5#3 3#5 4#5 6#5 1#3),
    ([0x47464315#32], .vcmpiGe Pre.none 5#3 3#5 4#5 6#5 1#3),
    ([0x49464310#32], .vaddfAdd Pre.none 5#3 3#5 4#5 6#5 1#3)] = true := by decide +kernel
theorem test_words_6 : decodes false [
    ([0x49464311#32], .vaddfSub Pre.none 5#3 3#5 4#5 6#5 1#3),
    ([0x49464312#32], .vaddfMin Pre.none 5#3 3#5 4#5 6#5 1#3),
    ([0x49464313#32], .vaddfMax Pre.none 5#3 3#5 4#5 6#5 1#3),
    ([0x4B464310#32], .vmulfMul Pre.none 5#3 3#5 4#5 6#5 1#3),
    ([0x4B464311#32], .vmulfFma Pre.none 5#3 3#5 4#5 6#5 1#3),
    ([0x4B464312#32], .vmulfFms Pre.none 5#3 3#5 4#5 6#5 1#3),
    ([0x4D464310#32], .vcmpfEq Pre.none 5#3 3#5 4#5 6#5 1#3),
    ([0x4D464311#32], .vcmpfNe Pre.none 5#3 3#5 4#5 6#5 1#3),
    ([0x4D464312#32], .vcmpfLt Pre.none 5#3 3#5 4#5 6#5 1#3),
    ([0x4D464313#32], .vcmpfLe Pre.none 5#3 3#5 4#5 6#5 1#3),
    ([0x4D464314#32], .vcmpfGt Pre.none 5#3 3#5 4#5 6#5 1#3),
    ([0x4D464315#32], .vcmpfGe Pre.none 5#3 3#5 4#5 6#5 1#3),
    ([0x4D464316#32], .vcmpfUn Pre.none 5#3 3#5 4#5 6#5 1#3),
    ([0x4F464310#32], .vdot Pre.none 5#3 3#5 4#5 6#5 1#3),
    ([0x4F464311#32], .vdotAcc Pre.none 5#3 3#5 4#5 6#5 1#3),
    ([0x4F464302#32], .vdotI8 Pre.none 5#3 3#5 4#5 6#5),
    ([0x4F464303#32], .vdotAccI8 Pre.none 5#3 3#5 4#5 6#5),
    ([0x4F464304#32], .vdotI4 Pre.none 5#3 3#5 4#5 6#5),
    ([0x4F464305#32], .vdotAccI4 Pre.none 5#3 3#5 4#5 6#5),
    ([0x51464AA2#32], .vcvt Pre.none 5#3 3#5 4#5 1#1 0#1 5#3 2#3 0#1 2#2),
    ([0x53464020#32], .vsfuRcp Pre.none 5#3 3#5 4#5 2#3),
    ([0x53464021#32], .vsfuRsqrt Pre.none 5#3 3#5 4#5 2#3),
    ([0x53464022#32], .vsfuSqrt Pre.none 5#3 3#5 4#5 2#3),
    ([0x53464023#32], .vsfuExp2 Pre.none 5#3 3#5 4#5 2#3)] = true := by decide +kernel
theorem test_words_7 : decodes false [
    ([0x53464024#32], .vsfuLog2 Pre.none 5#3 3#5 4#5 2#3),
    ([0x53464025#32], .vsfuExp Pre.none 5#3 3#5 4#5 2#3),
    ([0x53464026#32], .vsfuLn Pre.none 5#3 3#5 4#5 2#3),
    ([0x53464027#32], .vsfuSinpi Pre.none 5#3 3#5 4#5 2#3),
    ([0x53464028#32], .vsfuCospi Pre.none 5#3 3#5 4#5 2#3),
    ([0x53464029#32], .vsfuTanh Pre.none 5#3 3#5 4#5 2#3),
    ([0x5346402A#32], .vsfuSigm Pre.none 5#3 3#5 4#5 2#3),
    ([0x5346402B#32], .vsfuSilu Pre.none 5#3 3#5 4#5 2#3),
    ([0x55464010#32], .vredSum Pre.none 5#3 3#5 4#5 1#3),
    ([0x55464011#32], .vredMax Pre.none 5#3 3#5 4#5 1#3),
    ([0x55464012#32], .vredMin Pre.none 5#3 3#5 4#5 1#3),
    ([0x55464383#32], .vredSumi Pre.none 5#3 3#5 4#5 7#3),
    ([0x55464384#32], .vredMaxi Pre.none 5#3 3#5 4#5 7#3),
    ([0x55464385#32], .vredMini Pre.none 5#3 3#5 4#5 7#3),
    ([0x55464386#32], .vredAndi Pre.none 5#3 3#5 4#5 7#3),
    ([0x55464387#32], .vredOri Pre.none 5#3 3#5 4#5 7#3),
    ([0x55464388#32], .vredXori Pre.none 5#3 3#5 4#5 7#3),
    ([0x57464310#32], .vpermTbl Pre.none 5#3 3#5 4#5 6#5 1#3),
    ([0x57464311#32], .vpermTbl2 Pre.none 5#3 3#5 4#5 6#5 1#3),
    ([0x57464112#32], .vpermBcast Pre.none 5#3 3#5 4#5 2#5 1#3),
    ([0x57464113#32], .vpermSlup Pre.none 5#3 3#5 4#5 2#5 1#3),
    ([0x57464114#32], .vpermSldn Pre.none 5#3 3#5 4#5 2#5 1#3),
    ([0x57464315#32], .vpermZiplo Pre.none 5#3 3#5 4#5 6#5 1#3),
    ([0x57464316#32], .vpermZiphi Pre.none 5#3 3#5 4#5 6#5 1#3)] = true := by decide +kernel
theorem test_words_8 : decodes false [
    ([0x57464317#32], .vpermUnze Pre.none 5#3 3#5 4#5 6#5 1#3),
    ([0x57464318#32], .vpermUnzo Pre.none 5#3 3#5 4#5 6#5 1#3),
    ([0x57464019#32], .vpermRev Pre.none 5#3 3#5 4#5 1#3),
    ([0x5746401A#32], .vpermCmpr Pre.none 5#3 3#5 4#5 1#3),
    ([0x59464010#32], .vmov Pre.none 5#3 3#5 4#5 1#3),
    ([0x59464011#32], .vmovBcg Pre.none 5#3 3#5 4#5 1#3),
    ([0x59464112#32], .vmovInsg Pre.none 5#3 3#5 4#5 2#5 1#3),
    ([0x59464113#32], .vmovExtg Pre.none 5#3 3#5 4#5 2#5 1#3),
    ([0x5B464300#32], .kmaskAnd 5#3 3#5 4#5 6#5),
    ([0x5B464301#32], .kmaskOr 5#3 3#5 4#5 6#5),
    ([0x5B464302#32], .kmaskXor 5#3 3#5 4#5 6#5),
    ([0x5B464303#32], .kmaskAndn 5#3 3#5 4#5 6#5),
    ([0x5B464004#32], .kmaskNot 5#3 3#5 4#5),
    ([0x5B464085#32], .kmaskFromg 5#3 3#5 4#5 1#3),
    ([0x5B464086#32], .kmaskTog 5#3 3#5 4#5 1#3),
    ([0x5B464017#32], .kmaskPopc 5#3 3#5 4#5 1#3),
    ([0x5B464018#32], .kmaskFirst 5#3 3#5 4#5 1#3),
    ([0x5B464019#32], .kmaskFill 5#3 3#5 4#5 1#3),
    ([0x5B46400A#32], .kmaskMov 5#3 3#5 4#5),
    ([0x5D400000#32], .vmodeShort 5#3),
    ([0x5D400001#32], .vmodeLong 5#3),
    ([0x654E4345#32], .vld Pre.none 5#3 7#5 4#5 1#3 2#2 69#7),
    ([0x674E4345#32], .vst Pre.none 5#3 7#5 4#5 1#3 2#2 69#7),
    ([0x6946435B#32], .vldx 5#3 3#5 4#5 6#5 5#3 2#2 1#1 1#1)] = true := by decide +kernel
theorem test_words_9 : decodes false [
    ([0x6B46435B#32], .vstx 5#3 3#5 4#5 6#5 5#3 2#2 1#1 1#1),
    ([0x6D4E4245#32], .ldt 5#3 7#5 4#5 1#3 69#7),
    ([0x6F4E4445#32], .acc 5#3 7#5 4#5 2#2 69#7),
    ([0x6F4E4C45#32], .accVec 5#3 7#5 4#5 2#2 69#7),
    ([0x71464310#32], .amoAdd 5#3 3#5 4#5 6#5 1#1),
    ([0x71464311#32], .amoMin 5#3 3#5 4#5 6#5 1#1),
    ([0x71464312#32], .amoMax 5#3 3#5 4#5 6#5 1#1),
    ([0x71464313#32], .amoMinn 5#3 3#5 4#5 6#5 1#1),
    ([0x71464314#32], .amoMaxn 5#3 3#5 4#5 6#5 1#1),
    ([0x71464315#32], .amoAnd 5#3 3#5 4#5 6#5 1#1),
    ([0x71464316#32], .amoOr 5#3 3#5 4#5 6#5 1#1),
    ([0x71464317#32], .amoXor 5#3 3#5 4#5 6#5 1#1),
    ([0x71464318#32], .amoSwap 5#3 3#5 4#5 6#5 1#1),
    ([0x71464319#32], .amoCas 5#3 3#5 4#5 6#5 1#1),
    ([0x7146430A#32], .amoFadd 5#3 3#5 4#5 6#5),
    ([0x7146430B#32], .amoFmin 5#3 3#5 4#5 6#5),
    ([0x73464302#32], .amsg 5#3 3#5 4#5 6#5 2#3),
    ([0x75400000#32], .fence 5#3),
    ([0x7540000A#32], .fenceDrain 5#3 2#3),
    ([0x75400010#32], .fenceEng 5#3),
    ([0x77404045#32], .hintL1 5#3 4#5 69#7),
    ([0x77404245#32], .hintClu 5#3 4#5 69#7),
    ([0x77404445#32], .hintMsc 5#3 4#5 69#7),
    ([0x77404645#32], .hintCrate 5#3 4#5 69#7)] = true := by decide +kernel
theorem test_words_10 : decodes false [
    ([0x77404845#32], .hintLast 5#3 4#5 69#7),
    ([0x774E0A00#32], .hintCnt 5#3 7#5),
    ([0x79464000#32], .rangeDecl 5#3 3#5 4#5),
    ([0x79404301#32], .rangeBound 5#3 4#5 6#5),
    ([0x79404002#32], .rangeDrain 5#3 4#5),
    ([0x79404003#32], .rangeFree 5#3 4#5),
    ([0x7B464300#32], .xferCopy 5#3 3#5 4#5 6#5),
    ([0x7B464301#32], .xferGather 5#3 3#5 4#5 6#5),
    ([0x7B464302#32], .xferScatter 5#3 3#5 4#5 6#5),
    ([0x7B464303#32], .xferFill 5#3 3#5 4#5 6#5),
    ([0x7B464304#32], .xferQcopy 5#3 3#5 4#5 6#5),
    ([0x7B464305#32], .xferRgather 5#3 3#5 4#5 6#5),
    ([0x7D404300#32], .xwaitOne 5#3 4#5 6#5),
    ([0x7D400301#32], .xwaitAll 5#3 6#5),
    ([0x7D464302#32], .xwaitTest 5#3 3#5 4#5 6#5),
    ([0x7F464300#32], .pageInvp 5#3 3#5 4#5 6#5),
    ([0x7F460301#32], .pageInvk 5#3 3#5 6#5),
    ([0x7F460002#32], .pageInva 5#3 3#5),
    ([0x7F464303#32], .pageBias 5#3 3#5 4#5 6#5),
    ([0x7F464304#32], .pageResume 5#3 3#5 4#5 6#5),
    ([0x7F460305#32], .pageKret 5#3 3#5 6#5),
    ([0x81400000#32], .mlseAcq 5#3),
    ([0x81460001#32], .mlseTry 5#3 3#5),
    ([0x81400002#32], .mlseRel 5#3)] = true := by decide +kernel
theorem test_words_11 : decodes false [
    ([0x81464003#32], .mlseJoin 5#3 3#5 4#5),
    ([0x83464300#32], .tdefSet 5#3 3#5 4#5 6#5),
    ([0x83404301#32], .tdefGet 5#3 4#5 6#5),
    ([0x83400302#32], .tdefClr 5#3 6#5),
    ([0x85404001#32], .mmaNew 5#3 4#5 1#1),
    ([0x85404003#32], .mmaAcc 5#3 4#5 1#1),
    ([0x87404001#32], .mmaqNew 5#3 4#5 1#1),
    ([0x87404003#32], .mmaqAcc 5#3 4#5 1#1),
    ([0x89404001#32], .maccSt 5#3 4#5 0#1 1#1),
    ([0x89404003#32], .maccDrain 5#3 4#5 0#1 1#1),
    ([0x8B464000#32], .mgangForm 5#3 3#5 4#5),
    ([0x8B460001#32], .mgangDiss 5#3 3#5),
    ([0x8D460000#32], .mstat 5#3 3#5),
    ([0x8D460001#32], .mstatWait 5#3 3#5),
    ([0x8F40400B#32], .xexp 5#3 4#5 1#1 1#2 1#1),
    ([0x91400000#32], .mbar 5#3),
    ([0x93404300#32], .mhndSet 5#3 4#5 6#5),
    ([0x93400001#32], .mhndClr 5#3),
    ([0x95460000#32], .mcfgGet 5#3 3#5),
    ([0x95464001#32], .mcfgRun 5#3 3#5 4#5),
    ([0xA1464000#32], .ctxNew 5#3 3#5 4#5),
    ([0xA1464001#32], .ctxFork 5#3 3#5 4#5),
    ([0xA1404002#32], .ctxFree 5#3 4#5),
    ([0xA1464003#32], .ctxInfo 5#3 3#5 4#5)] = true := by decide +kernel
theorem test_words_12 : decodes false [
    ([0xA3464300#32], .editIns 5#3 3#5 4#5 6#5),
    ([0xA3464001#32], .editDel 5#3 3#5 4#5),
    ([0xA3464302#32], .editRep 5#3 3#5 4#5 6#5),
    ([0xA5464000#32], .walk 5#3 3#5 4#5),
    ([0xA7464000#32], .dmapGet 5#3 3#5 4#5),
    ([0xA7404301#32], .dmapThr 5#3 4#5 6#5),
    ([0xA7464002#32], .dmapCnt 5#3 3#5 4#5),
    ([0xA9404300#32], .settle 5#3 4#5 6#5),
    ([0xA9464301#32], .settleTry 5#3 3#5 4#5 6#5),
    ([0xAB464304#32], .vldwSnap 5#3 3#5 4#5 6#5 1#1),
    ([0xAB464305#32], .vldwCur 5#3 3#5 4#5 6#5 1#1),
    ([0xAB464306#32], .vldwSettled 5#3 3#5 4#5 6#5 1#1),
    ([0xAD464004#32], .vstw 5#3 3#5 4#5 1#1),
    ([0xAF464300#32], .waveBind 5#3 3#5 4#5 6#5),
    ([0xAF464301#32], .waveNext 5#3 3#5 4#5 6#5),
    ([0xB1460000#32], .delta 5#3 3#5),
    ([0xB3464300#32], .kvapPool 5#3 3#5 4#5 6#5),
    ([0xB3464301#32], .kvapApp 5#3 3#5 4#5 6#5),
    ([0xC1464303#32], .send 5#3 3#5 4#5 6#5 3#4),
    ([0xC1464313#32], .sendB 5#3 3#5 4#5 6#5 3#4),
    ([0xC3404300#32], .hop 5#3 4#5 6#5),
    ([0xC5464323#32], .fork 5#3 3#5 4#5 6#5 2#3 3#4),
    ([0xC7464300#32], .join 5#3 3#5 4#5 6#5),
    ([0xC9464303#32], .task 5#3 3#5 4#5 6#5 3#4)] = true := by decide +kernel
theorem test_words_13 : decodes false [
    ([0xCB464000#32], .wait 5#3 3#5 4#5),
    ([0xCD464300#32], .barInit 5#3 3#5 4#5 6#5),
    ([0xCD464001#32], .barArr 5#3 3#5 4#5),
    ([0xCD464302#32], .barWait 5#3 3#5 4#5 6#5),
    ([0xCD464003#32], .barSync 5#3 3#5 4#5),
    ([0xCF464303#32], .launch 5#3 3#5 4#5 6#5 3#4),
    ([0xCF464313#32], .launchAt 5#3 3#5 4#5 6#5 3#4),
    ([0xD1464000#32], .steal 5#3 3#5 4#5),
    ([0xD3464000#32], .rsrvPin 5#3 3#5 4#5 0#5),
    ([0xD3464010#32], .rsrvUnpin 5#3 3#5 4#5 0#5),
    ([0xD3464323#32], .rsrvPut 5#3 3#5 4#5 6#5 3#4),
    ([0xD5460000#32], .ordqVt 5#3 3#5),
    ([0xD5460001#32], .ordqLen 5#3 3#5),
    ([0xD5460002#32], .ordqHead 5#3 3#5),
    ([0xD5460003#32], .ordqSpec 5#3 3#5),
    ([0xD5460004#32], .ordqRset 5#3 3#5),
    ([0xD7464000#32], .pri 5#3 3#5 4#5)] = true := by decide +kernel
theorem test_words_long : decodes true [
    ([0x59464014#32], .vmovGetv Pre.none 5#3 3#5 4#5 1#3),
    ([0x59464015#32], .vmovSetv Pre.none 5#3 3#5 4#5 1#3),
    ([0x5F464061#32], .vqnt Pre.none 5#3 3#5 4#5 6#3 1#2)] = true := by decide +kernel
theorem test_words_literals : decodes false [
    ([0x1E0E0000#32, 0x3F800000#32], .lil 0#3 7#5 0x3F800000#32),
    ([0x20080000#32, 0x80000000#32], .lih 0#3 4#5 0x80000000#32)] = true := by decide +kernel
/-- R36, R38 and R132: a MASK and a MOD before a vector word, a MOD's clamp literal, and a MOD before a scalar word. -/
theorem test_words_prefixes : decodes false [
    ([0x5A00100F#32, 0x48822180#32], .vaddfAdd { mask := some 1#3, mod := none } 2#3 1#5 2#5 3#5 0#3),
    ([0xFD0E8000#32, 0x4A485310#32], .vmulfMul { mask := none, mod := some { sat := true, neg := false, abs := false, clamp := 0#2, scale := 0x1D#5, nega := false, negb := false, absa := false, absb := false, lit := 0#32 } } 1#3 4#5 5#5 6#5 1#3),
    ([0xFC300000#32, 0x481084A0#32, 0x4000C000#32], .vaddfAdd { mask := none, mod := some { sat := false, neg := false, abs := false, clamp := 3#2, scale := 0#5, nega := false, negb := false, absa := false, absb := false, lit := 0x4000C000#32 } } 0#3 8#5 8#5 9#5 2#3)] = true := by decide +kernel
/-- R43, R44, R93 and R149: an opcode of no row, a function of no entry with the prefix before it counted, reserved fields, VQNT in short mode, and MODE. -/
noncomputable def refusesAs (long : Bool) (ws : List IWord) (b : Bad) (pos : Nat) (w : IWord) : Bool :=
  match decodeUnit long ws with | .bad c q x => c == b && q == pos && x == w | _ => false
theorem test_refusals :
    refusesAs false [0x3E000000#32] .illegalOpcode 0 0x3E000000#32 = true ∧
    refusesAs false [0xFD0E8000#32, 0x24060FFD#32] .illegalFunction 1 0x24060FFD#32 = true ∧ decodeVal 1 0x24060FFD#32 = 0x0000000124060FFD#64 ∧
    refusesAs false [0x60082584#32] .reservedField 0 0x60082584#32 = true ∧ refusesAs false [0x5A00900F#32, 0x48822180#32] .reservedField 0 0x5A00900F#32 = true ∧
    refusesAs false [0x5E082060#32] .illegalFunction 0 0x5E082060#32 = true ∧ refusesAs true [0x48822980#32] .mode 0 0x48822980#32 = true ∧ decodes true [([0x48822180#32], .vaddfAdd Pre.none 2#3 1#5 2#5 3#5 0#3)] = true := by decide +kernel

/-! ## The checks of WellFormed -/

def modSat : Mod := { sat := true, neg := false, abs := false, clamp := 0#2, scale := 0#5, nega := false, negb := false, absa := false, absb := false, lit := 0#32 }
def maskPre : Pre := { mask := some 1#3, mod := none }
def modPre : Pre := { mask := none, mod := some modSat }
/-- Each of these is refused: a prefix that the entry does not permit, a MOD field that it does not honour, a clamp literal without CLAMP 3, an element type,
a size, a count, an operand block past g31, a system register of no row, a register over w15, a scope, an addressing mode, a shift amount. -/
theorem test_ill_formed : ([
    .aluAdd maskPre 0#3 1#5 2#5 3#5, .vlogiAnd modPre 0#3 1#5 2#5 3#5 0#3, .vsfuRcp Pre.none 0#3 1#5 2#5 3#3, .vredSum { mask := none, mod := some { modSat with sat := false, nega := true } } 0#3 1#5 2#5 0#3,
    .cmovNz { mask := none, mod := some { modSat with absb := true } } 0#3 1#5 2#5 3#5, .vcvt { mask := none, mod := some modSat } 0#3 1#5 2#5 0#1 0#1 0#3 0#3 0#1 0#2,
    .aluAdd { mask := none, mod := some { modSat with lit := 1#32 } } 0#3 1#5 2#5 3#5, .vaddfAdd Pre.none 0#3 1#5 2#5 3#5 3#3, .vcmpfEq Pre.none 0#3 1#5 2#5 3#5 6#3,
    .vdot Pre.none 0#3 1#5 2#5 3#5 0#3, .vqnt Pre.none 0#3 1#5 2#5 6#3 3#2, .vmovBcg Pre.none 0#3 1#5 2#5 6#3, .srd 0#3 1#5 0x7#10, .swr 0#3 1#5 0x80#10, .getid 0#3 1#5 10#5,
    .ld 0#3 1#5 2#5 7#3 0#2 0#7, .st 0#3 1#5 2#5 4#3 0#2 0#7, .ld 0#3 1#5 2#5 3#3 3#2 0#7, .vld Pre.none 0#3 1#5 2#5 4#3 0#2 0#7, .vst modPre 0#3 1#5 2#5 0#3 0#2 0#7, .ldt 0#3 1#5 2#5 0#3 0#7,
    .acc 0#3 1#5 2#5 0#2 0#7, .amsg 0#3 1#5 2#5 30#5 3#3, .amsg 0#3 1#5 2#5 1#5 0#3, .xferCopy 0#3 1#5 29#5 2#5, .mmaNew 0#3 30#5 0#1, .maccSt 0#3 31#5 0#1 0#1, .xexp 0#3 4#5 0#1 3#2 0#1,
    .editIns 0#3 1#5 31#5 2#5, .walk 0#3 30#5 2#5, .vstw 0#3 1#5 31#5 0#1, .waveNext 0#3 1#5 2#5 0#5, .send 0#3 1#5 31#5 1#5 1#4, .send 0#3 1#5 2#5 30#5 8#4, .send 0#3 1#5 2#5 1#5 9#4,
    .send 0#3 1#5 2#5 1#5 0#4, .fork 0#3 1#5 2#5 1#5 5#3 1#4, .task 0#3 1#5 30#5 1#5 1#4, .launch 0#3 1#5 29#5 1#5 1#4, .rsrvPut 0#3 1#5 2#5 1#5 0#4, .rsrvPin 0#3 1#5 2#5 1#5,
    .pubf 0#3 1#5 2#5 7#3, .fenceDrain 0#3 7#3, .shiShl 0#3 1#5 2#5 1#1 32#6, .vcvt Pre.none 0#3 1#5 2#5 0#1 1#1 0#3 0#3 1#1 1#2,
    .activationStart 0] : List Instr).all (fun i => !i.wf) = true := by decide +kernel
/-- R93: a vector register above w15 in long mode is MODE; in short mode it is not. -/
theorem test_mode : (Instr.vaddiAdd Pre.none 0#3 1#5 2#5 16#5 0#3).modeFault true = true ∧ (Instr.vaddiAdd Pre.none 0#3 1#5 2#5 16#5 0#3).modeFault false = false ∧
    (Instr.vaddiAdd Pre.none 0#3 1#5 2#5 15#5 0#3).modeFault true = false ∧ (Instr.vqnt Pre.none 0#3 1#5 2#5 6#3 1#2).longOnly = true := by decide +kernel

/-! ## Effects: the spec's worked cases, one step each -/

/-- A byte of a wide register. -/
def byteOf (s : State) (r : BitVec 5) (i : Nat) : Nat := ((s.w r) >>> (8 * i)).toNat % 256
/-- 03_numbers, two-step narrowing: 1 + 2^−4 + 2^−12 is E4M3 0x39 at once, and 0x38 by way of FP16 0x3C40. -/
theorem test_narrowing : (roundEx .e4m3 .rne false (f32Val 0x3F880800#32)).1 = 0x39 ∧ (roundEx .f16 .rne false (f32Val 0x3F880800#32)).1 = 0x3C40 ∧
    (roundEx .e4m3 .rne false (Fmt.f16.dec 0x3C40)).1 = 0x38 := by decide +kernel
/-- 03_numbers, one rounding per group: 32 products of 2^−24 and 1.0. -/
theorem test_group_rounds_once : roundNE32 (Ex.add (f32Val 0x3F800000#32) (Ex.sum (List.replicate 32 (f32Val 0x33800000#32)))) = 0x3F800010#32 := by decide +kernel
/-- 03_numbers, the tree: eight lanes 2^24, 1, 1, 1, 0, 0, 0, 0 sum to 16,777,218. -/
theorem test_vred_tree :
    (let s := (bench []).setCtx { (bench []).ctx with v := [(2, 0x3F8000003F8000003F8000004B800000#256)] }
     (out (.vredSum Pre.none 0#3 1#5 2#5 0#3) s).g 1#5) = 0x4B800001#64 := by decide +kernel
/-- 06_core_scalar, ABSD of 0 and −2^63, without and with +sat. -/
theorem test_absd :
    (let s := bench [(2, 0#64), (3, 0x8000000000000000#64)]
     (out (.aluAbsd Pre.none 0#3 1#5 2#5 3#5) s).g 1#5 = 0x8000000000000000#64 ∧ (out (.aluAbsd modPre 0#3 1#5 2#5 3#5) s).g 1#5 = 0x7FFFFFFFFFFFFFFF#64) := by decide +kernel
/-- 07_core_vector, one q8 group: −1.0, 2.75, 0.5 and zeros. -/
theorem test_vqnt :
    (let s := (longer (bench [])).setCtx { (longer (bench [])).ctx with w := [(2, 0x3F00000040300000BF800000#4096)] }
     let t := out (.vqnt Pre.none 0#3 4#5 2#5 6#3 0#2) s
     (upto 0 4).map (byteOf t 4#5) = [0x00, 0xFF, 0x66, 0x44] ∧ [31, 32, 256, 257, 258, 264, 265].map (byteOf t 4#5) = [0x44, 0, 0x88, 0x23, 0, 0x44, 0] ∧
       t.ctx.fpflags.getLsbD 4 = true) := by decide +kernel
/-- 10_memory_hierarchy, one address three ways, for core 5 of cluster 2 of die 1. -/
theorem test_pantry_addresses :
    (let s := { bench [(2, 0x40010#64), (3, 0x00FF0000092C0010#64), (6, 0x1238#64)] with site := 1 * 1024 + 2 * 64 + 5 * 4 }
     let s := s.modClu 18 fun c => { c with shelves := [(11, { mode := .scratch }), (14, { mode := .scratch }), (28, { mode := .scratch })] }
     runsOf (s.reach .read 1 (s.g 2#5) 8 8 [(0, 8)]) = [(ploc 18 11 0x10, 8)] ∧ runsOf (s.reach .read 0 (s.g 3#5) 8 8 [(0, 8)]) = [(ploc 18 11 0x10, 8)] ∧
       runsOf (s.reach .write 2 (s.g 6#5) 8 8 [(0, 8)]) = [(ploc 18 14 0x120, 8)] ∧
       runsOf ((s.setReg 1 0x20 0xEFFF#64).reach .write 2 (s.g 6#5) 8 8 [(0, 8)]) = [(ploc 18 28 0x130, 8)]) := by decide +kernel
/-- 20_dispatch_engine: ISTEP 640 and DIDT_LIMIT 2,000 give SPACING 45. -/
theorem test_spacing : ((bench []).setReg 0 0x3000 (BitVec.ofNat 64 (2000 * 2 ^ 16))).spacing 0 = 45 := by decide +kernel
/-- R384: the CRC's check value. -/
theorem test_crc : [0x31#8, 0x32#8, 0x33#8, 0x34#8, 0x35#8, 0x36#8, 0x37#8, 0x38#8, 0x39#8].foldl State.crcByte 0#64 = 0x6C40DF5F0B497347#64 := by decide +kernel
/-- R376: sent at 5,000 from site 0x09D, arrived at 5,003, started at 5,010, ended at 5,042. -/
theorem test_profile :
    (let s := { (bench []).modCore 0 fun c => { c with tracectl := BitVec.ofNat 64 (2 ^ 29) } with cycle := 113445 }
     let t := s.profileRec 0 .send 0x9D 0 5000 5003 5010
     s.tick 0 = 5042 ∧ (upto 0 4).map (fun i => (t.reg 0 (0x500000 + 32 * 0x27 + 8 * i)).toNat) = [1, 3, 7, 32]) := by decide +kernel
/-- R95 and R122: TRAP 5 with a handler at 0x8000, and the ERET there. -/
theorem test_trap_and_eret :
    (let s := (bench []).setCtx { (bench []).ctx with trapvec := 0x8000#64 }
     let t := out (.trap 0#3 5#10) s
     let u := out (.eret 0#3) t
     t.ctx.pc = 0x8000#56 ∧ t.ctx.trappc = 0x1000#64 ∧ t.ctx.trapval = 5#64 ∧ t.ctx.inh = true ∧ u.ctx.pc = 0x1000#56 ∧ u.ctx.inh = false) := by decide +kernel
/-- R126 and R43: a load of signed bytes at the last byte of a line; a store beside it leaves the neighbours. -/
theorem test_ld_st :
    (let s := (mapped (bench [(1, 0x107F#64), (2, 0x5A#64)])).pokeNat (gloc 0 0x800000107F) 1 0x80
     (out (.ld 0#3 3#5 1#5 4#3 0#2 0#7) s).g 3#5 = 0xFFFFFFFFFFFFFF80#64 ∧
       (let t := out (.st 0#3 2#5 1#5 0#3 0#2 0#7) s
        t.byte (gloc 0 0x800000107F) = 0x5A#8 ∧ t.byte (gloc 0 0x800000107E) = 0#8 ∧ t.byte (gloc 0 0x8000001080) = 0#8)) := by decide +kernel
/-- R114 and R116: BNE goes back 12 bytes, JAL forward 0x100 and links. -/
theorem test_branches :
    (let s := bench [(3, 1#64)]
     (out (.bne 0#3 3#5 0#5 0xFFD#12) s).ctx.pc = 0xFF4#56 ∧ (out (.bne 0#3 0#5 0#5 0xFFD#12) s).ctx.pc = 0x1004#56 ∧
       (out (.jal 0#3 30#5 0x40#17) s).ctx.pc = 0x1100#56 ∧ (out (.jal 0#3 30#5 0x40#17) s).g 30#5 = 0x1004#64) := by decide +kernel
/-- R398: a write of GO starts the load, and BUSY reads 1. -/
theorem test_key_load_busy : (let t := out (.registerWrite 0 0x8040 (BitVec.ofNat 64 (2 ^ 63 + 5))) (bench [])
     (t.dieAt 0).loading.isSome = true ∧ (t.ctlRead 0 0x8040).getLsbD 62 = true) := by decide +kernel
/-- R97: a core whose contexts are all DORMANT sleeps, and a step that makes one READY takes 400 cycles more from depth 3, and none where the core was awake. -/
theorem test_wake :
    (let s := ((bench []).setCtx { (bench []).ctx with st := .dormant }).modCore 0 fun c => { c with depth := 3#2 }
     let t := s.setCtx { s.ctx with st := .ready }
     s.asleep 0 = true ∧ t.asleep 0 = false ∧ (match s.wakes (.next t) with | .next u => u.cycle == t.cycle + 400 | _ => false) = true ∧
       (match t.wakes (.next t) with | .next u => u.cycle == t.cycle | _ => false) = true) := by decide +kernel
/-- The first unit after a load of the program (log entry 11): g5 ← 1, from reset. -/
theorem test_first_unit : (match step (State.reset.withFetchWord 32 0x0C0A0001) with | .next t => t.g 5#5 == 1#64 | _ => false) = true := by decide +kernel
end Sys2Proof.Tests
end

/-! SUPPORT. The one rounding of 03_numbers (R51 to R60). `takesUpper` says which of two neighbours a mode takes. One fact carries the proof: a rounded
result lies above `c` exactly when the mode takes the upper one of `c` and `c + 1`. It is shown for the model's quotients (`lt_roundDiv_iff`), for
significands in any unit (`lt_significandAt_iff`) and for a format's patterns (`lt_roundedPat_iff`); the neighbour, overflow, NX, UF and the conversion
to an integer are read off it. It uses core Lean only. -/
namespace Sys2Proof.Rounding
open Sys2Proof Sys2Proof.Claims

/-! ## Powers of two as rational numbers -/

section Powers

theorem two_zpow_pos (q : Int) : 0 < (2 : Rat) ^ q := Rat.zpow_pos (by decide)

theorem two_zpow_add (p q : Int) : (2 : Rat) ^ (p + q) = 2 ^ p * 2 ^ q := Rat.zpow_add (by decide) p q

theorem two_zpow_zero : (2 : Rat) ^ (0 : Int) = 1 := Rat.zpow_zero 2

theorem two_zpow_natCast (n : Nat) : (2 : Rat) ^ (n : Int) = ((2 ^ n : Nat) : Rat) :=
  (Rat.zpow_natCast 2 n).trans (Rat.natCast_pow 2 n).symm

theorem cast_two_pow_toNat {t : Int} (ht : 0 ≤ t) : ((2 ^ t.toNat : Nat) : Rat) = (2 : Rat) ^ t := by
  rw [← two_zpow_natCast, Int.toNat_of_nonneg ht]

theorem two_pow_mul_zpow (k : Nat) (q : Int) : ((2 ^ k : Nat) : Rat) * 2 ^ q = 2 ^ (k + q) := by
  rw [two_zpow_add, two_zpow_natCast]

theorem two_zpow_mono {p q : Int} (h : p ≤ q) : (2 : Rat) ^ p ≤ 2 ^ q := by
  obtain ⟨k, rfl⟩ := Int.le.dest h
  have hk : (1 : Rat) ≤ ((2 ^ k : Nat) : Rat) := by exact_mod_cast Nat.one_le_two_pow
  have hmul := Rat.mul_le_mul_of_nonneg_right hk (Rat.le_of_lt (two_zpow_pos p))
  rw [two_pow_mul_zpow, Rat.one_mul, Int.add_comm] at hmul
  exact hmul

theorem mul_le_mul_iff_of_pos {a b c : Rat} (hc : 0 < c) : a * c ≤ b * c ↔ a ≤ b :=
  ⟨fun h => Rat.le_of_mul_le_mul_right h hc, fun h => Rat.mul_le_mul_of_nonneg_right h (Rat.le_of_lt hc)⟩

theorem mul_eq_mul_iff_of_pos {a b c : Rat} (hc : 0 < c) : a * c = b * c ↔ a = b := by
  constructor
  · intro h
    exact Rat.le_antisymm ((mul_le_mul_iff_of_pos hc).1 (h ▸ Rat.le_refl)) ((mul_le_mul_iff_of_pos hc).1 (h ▸ Rat.le_refl))
  · rintro rfl
    rfl

theorem mul_lt_succ_mul (c : Rat) {u : Rat} (hu : 0 < u) : c * u < (c + 1) * u :=
  (Rat.mul_lt_mul_right hu).2 (by grind)

end Powers

/-! ## Neighbours -/

section Between
variable {r : Rm} {neg ev : Bool} {lo hi x : Rat}

theorem takesUpper_of_hi_le (h : hi ≤ x) : takesUpper r neg ev lo hi x := .inl h

theorem not_takesUpper_of_le_lo (hlo : x ≤ lo) (hlt : lo < hi) : ¬takesUpper r neg ev lo hi x := by
  rintro (h | ⟨h, -⟩)
  · grind
  · grind

/-- The nearest mode below the upper neighbour. -/
theorem takesUpper_rne_iff (hx : x < hi) :
    takesUpper .rne neg ev lo hi x ↔ lo < x ∧ ((lo + hi) / 2 < x ∨ (lo + hi) / 2 = x ∧ ev = true) := by
  have hhi : ¬hi ≤ x := Rat.not_le.2 hx
  have haway : ¬awayFrom .rne neg = true := by cases neg <;> decide
  unfold takesUpper
  rw [or_iff_right hhi, or_iff_right haway, and_iff_right rfl]

/-- The choice does not depend on the unit. -/
theorem takesUpper_mul {u : Rat} (hu : 0 < u) :
    takesUpper r neg ev (lo * u) (hi * u) (x * u) ↔ takesUpper r neg ev lo hi x := by
  have hmid : (lo * u + hi * u) / 2 = (lo + hi) / 2 * u := by grind
  have hle : hi * u ≤ x * u ↔ hi ≤ x := mul_le_mul_iff_of_pos hu
  have hlt (a : Rat) : a * u < x * u ↔ a < x := Rat.mul_lt_mul_right hu
  have heq : (lo + hi) / 2 * u = x * u ↔ (lo + hi) / 2 = x := mul_eq_mul_iff_of_pos hu
  unfold takesUpper
  rw [hmid, hle, hlt, hlt, heq]

end Between

/-! ## Quotients rounded to an integer -/

section Quotient
variable {r : Rm} {neg : Bool} {n d : Nat}

/-- The model's test for going up from the floor of `n`/`d`. -/
def goesUp (r : Rm) (neg : Bool) (n d : Nat) : Bool :=
  if r = .rne then decide (d < 2 * (n % d)) || (2 * (n % d) == d && n / d % 2 == 1) else awayFrom r neg && n % d != 0

theorem roundDiv_eq (r : Rm) (neg : Bool) (n d : Nat) :
    roundDiv r neg n d = (if goesUp r neg n d = true then n / d + 1 else n / d, n % d == 0) := by
  cases r <;> cases neg <;> rfl

theorem roundDiv_of_goesUp (h : goesUp r neg n d = true) : (roundDiv r neg n d).1 = n / d + 1 := by
  rw [roundDiv_eq, if_pos h]

theorem roundDiv_of_not_goesUp (h : ¬goesUp r neg n d = true) : (roundDiv r neg n d).1 = n / d := by
  rw [roundDiv_eq, if_neg h]

/-- The remainder's share of the divisor: what the quotient has above its floor. -/
theorem exists_fraction (hd : 0 < d) : ∃ t : Rat, (n : Rat) / d = (n / d : Nat) + t ∧ t * d = (n % d : Nat) ∧ 0 ≤ t ∧ t < 1 := by
  have hd' : (0 : Rat) < d := Rat.natCast_pos.2 hd
  have hmod : ((n % d : Nat) : Rat) < d := Rat.natCast_lt_natCast.2 (Nat.mod_lt n hd)
  have hmod' : (0 : Rat) ≤ ((n % d : Nat) : Rat) := Rat.natCast_nonneg
  have hdm : (d : Rat) * (n / d : Nat) + (n % d : Nat) = n := by exact_mod_cast Nat.div_add_mod n d
  have ht : ((n % d : Nat) : Rat) / d * d = (n % d : Nat) := Rat.div_mul_cancel (by grind)
  refine ⟨((n % d : Nat) : Rat) / d, by grind, ht, ?_, ?_⟩
  · rw [← mul_le_mul_iff_of_pos hd', ht, Rat.zero_mul]
    exact hmod'
  · rw [Rat.div_lt_iff hd', Rat.one_mul]
    exact hmod

theorem floor_le (hd : 0 < d) : ((n / d : Nat) : Rat) ≤ n / d := by
  obtain ⟨t, heq, -, h0, -⟩ := exists_fraction (n := n) hd
  grind

theorem lt_floor_succ (hd : 0 < d) : (n : Rat) / d < (n / d : Nat) + 1 := by
  obtain ⟨t, heq, -, -, h1⟩ := exists_fraction (n := n) hd
  grind

theorem rem_eq_zero_iff (hd : 0 < d) : n % d = 0 ↔ ((n / d : Nat) : Rat) = n / d := by
  have hd' : (0 : Rat) < d := Rat.natCast_pos.2 hd
  obtain ⟨t, heq, hrem, -, -⟩ := exists_fraction (n := n) hd
  rw [← Rat.natCast_eq_zero_iff, ← hrem]
  grind

theorem midpoint_lt_iff (hd : 0 < d) :
    (((n / d : Nat) : Rat) + ((n / d : Nat) + 1)) / 2 < n / d ↔ d < 2 * (n % d) := by
  have hd' : (0 : Rat) < d := Rat.natCast_pos.2 hd
  obtain ⟨t, heq, hrem, -, -⟩ := exists_fraction (n := n) hd
  have hhalf : (1 : Rat) * d < (2 * t) * d ↔ 1 < 2 * t := Rat.mul_lt_mul_right hd'
  rw [← Rat.natCast_lt_natCast, Rat.natCast_mul, ← hrem, heq]
  grind

theorem midpoint_eq_iff (hd : 0 < d) :
    (((n / d : Nat) : Rat) + ((n / d : Nat) + 1)) / 2 = n / d ↔ 2 * (n % d) = d := by
  have hd' : (0 : Rat) < d := Rat.natCast_pos.2 hd
  obtain ⟨t, heq, hrem, -, -⟩ := exists_fraction (n := n) hd
  rw [← Rat.natCast_inj, Rat.natCast_mul, ← hrem, heq]
  grind

/-- R57 at the quotient's own floor: the model goes up exactly when the mode does. -/
theorem goesUp_iff (hd : 0 < d) :
    goesUp r neg n d = true ↔ takesUpper r neg (n / d % 2 == 1) (n / d : Nat) ((n / d : Nat) + 1) (n / d) := by
  have hhi : ¬((n / d : Nat) : Rat) + 1 ≤ n / d := Rat.not_le.2 (lt_floor_succ hd)
  have hinexact : ((n / d : Nat) : Rat) < n / d ↔ n % d ≠ 0 := by
    have hle := floor_le (n := n) hd
    have hrem := rem_eq_zero_iff (n := n) hd
    grind
  unfold takesUpper goesUp
  rw [midpoint_lt_iff hd, midpoint_eq_iff hd, hinexact, or_iff_right hhi]
  by_cases hr : r = .rne
  · subst hr
    have haway : ¬awayFrom .rne neg = true := by cases neg <;> decide
    have hrem : d < 2 * (n % d) ∨ 2 * (n % d) = d ∧ n / d % 2 = 1 → n % d ≠ 0 := by omega
    rw [if_pos rfl, or_iff_right haway, and_iff_right rfl, Bool.or_eq_true, Bool.and_eq_true, decide_eq_true_iff, beq_iff_eq, beq_iff_eq]
    exact ⟨fun h => ⟨hrem h, h⟩, fun h => h.2⟩
  · rw [if_neg hr, or_iff_left (fun h => hr h.1), Bool.and_eq_true, bne_iff_ne, and_comm]

/-- The quotient or the next integer, as the mode chooses. -/
theorem roundDiv_floor_or_succ (hd : 0 < d) :
    ((roundDiv r neg n d).1 = n / d ∧ ¬takesUpper r neg (n / d % 2 == 1) (n / d : Nat) ((n / d : Nat) + 1) (n / d)) ∨
      ((roundDiv r neg n d).1 = n / d + 1 ∧ takesUpper r neg (n / d % 2 == 1) (n / d : Nat) ((n / d : Nat) + 1) (n / d)) := by
  rw [← goesUp_iff hd]
  by_cases h : goesUp r neg n d = true
  · exact .inr ⟨roundDiv_of_goesUp h, h⟩
  · exact .inl ⟨roundDiv_of_not_goesUp h, h⟩

/-- R57 among the integers, as one cut: the rounded quotient lies above `c` exactly when the mode takes the upper one of `c` and `c + 1`. -/
theorem lt_roundDiv_iff (hd : 0 < d) (c : Nat) :
    c < (roundDiv r neg n d).1 ↔ takesUpper r neg (c % 2 == 1) c (c + 1) (n / d) := by
  have hfloor := floor_le (n := n) hd
  have hsucc := lt_floor_succ (n := n) hd
  rcases Nat.lt_trichotomy c (n / d) with hc | rfl | hc
  · have hc' : (c : Rat) + 1 ≤ (n / d : Nat) := by exact_mod_cast hc
    have hq : n / d ≤ (roundDiv r neg n d).1 := by
      rcases roundDiv_floor_or_succ (r := r) (neg := neg) (n := n) hd with ⟨hq, -⟩ | ⟨hq, -⟩ <;> omega
    exact iff_of_true (by omega) (takesUpper_of_hi_le (Rat.le_trans hc' hfloor))
  · rcases roundDiv_floor_or_succ (r := r) (neg := neg) (n := n) hd with ⟨hq, hup⟩ | ⟨hq, hup⟩
    · exact iff_of_false (by omega) hup
    · exact iff_of_true (by omega) hup
  · have hc' : ((n / d : Nat) : Rat) + 1 ≤ c := by exact_mod_cast hc
    have hq : (roundDiv r neg n d).1 ≤ n / d + 1 := by
      rcases roundDiv_floor_or_succ (r := r) (neg := neg) (n := n) hd with ⟨hq, -⟩ | ⟨hq, -⟩ <;> omega
    exact iff_of_false (by omega) (not_takesUpper_of_le_lo (by grind) (by grind))

theorem roundDiv_snd_iff (hd : 0 < d) : (roundDiv r neg n d).2 = true ↔ ((roundDiv r neg n d).1 : Rat) = n / d := by
  have hsucc := lt_floor_succ (n := n) hd
  have hsnd : (roundDiv r neg n d).2 = true ↔ n % d = 0 := by rw [roundDiv_eq, beq_iff_eq]
  rw [hsnd, rem_eq_zero_iff hd]
  rcases roundDiv_floor_or_succ (r := r) (neg := neg) (n := n) hd with ⟨hq, -⟩ | ⟨hq, hup⟩
  · rw [hq]
  · have hne : ((n / d : Nat) : Rat) ≠ n / d := fun he => not_takesUpper_of_le_lo (by grind) (by grind) hup
    rw [hq, Rat.natCast_add]
    exact iff_of_false hne (by grind)

end Quotient
/-! ## Units of a power of two -/

section Scale
variable {num den : Nat} {e : Int}

/-- The value of ±`num`/`den` × 2^`e` without its sign. -/
def mag (num den : Nat) (e : Int) : Rat := num / den * (2 : Rat) ^ e

theorem exVal_fin (n : Bool) : exVal (.fin n num den e) = (if n then -1 else 1) * mag num den e := rfl

theorem inUnits_den_pos (hd : 0 < den) (q : Int) : 0 < (inUnits num den e q).2 := by
  unfold inUnits
  split
  · exact hd
  · exact Nat.mul_pos hd (Nat.two_pow_pos _)

/-- A fraction in units of 2^q is the magnitude divided by the unit. -/
theorem inUnits_mul (hd : 0 < den) (q : Int) :
    ((inUnits num den e q).1 : Rat) / (inUnits num den e q).2 * (2 : Rat) ^ q = mag num den e := by
  have hd' : (0 : Rat) < den := Rat.natCast_pos.2 hd
  have hq := two_zpow_pos q
  unfold inUnits mag
  split
  · have hpow := two_zpow_add (e - q) q
    rw [Int.sub_add_cancel] at hpow
    rw [Rat.natCast_mul, cast_two_pow_toNat (by omega), hpow]
    grind
  · have hpow := two_zpow_add (q - e) e
    have he := two_zpow_pos (q - e)
    rw [Int.sub_add_cancel] at hpow
    rw [Rat.natCast_mul, cast_two_pow_toNat (by omega), hpow]
    grind

/-- The magnitude in units of 2^`q`, rounded to a whole number, and whether that was exact. -/
def significandAt (r : Rm) (neg : Bool) (num den : Nat) (e q : Int) : Nat × Bool :=
  roundDiv r neg (inUnits num den e q).1 (inUnits num den e q).2

theorem lt_significandAt_iff {r : Rm} {neg : Bool} (hd : 0 < den) (q : Int) (c : Nat) :
    c < (significandAt r neg num den e q).1 ↔ takesUpper r neg (c % 2 == 1) (c * 2 ^ q) ((c + 1) * 2 ^ q) (mag num den e) := by
  rw [← inUnits_mul hd q, takesUpper_mul (two_zpow_pos q)]
  exact lt_roundDiv_iff (inUnits_den_pos hd q) c

theorem le_significandAt {r : Rm} {neg : Bool} (hd : 0 < den) {q : Int} {c : Nat} (h : (c : Rat) * 2 ^ q ≤ mag num den e) :
    c ≤ (significandAt r neg num den e q).1 := by
  cases c with
  | zero => exact Nat.zero_le _
  | succ c => exact (lt_significandAt_iff hd q c).2 (takesUpper_of_hi_le (by rwa [Rat.natCast_add] at h))

theorem significandAt_le {r : Rm} {neg : Bool} (hd : 0 < den) {q : Int} {c : Nat} (h : mag num den e ≤ (c : Rat) * 2 ^ q) :
    (significandAt r neg num den e q).1 ≤ c :=
  Nat.not_lt.1 (mt (lt_significandAt_iff hd q c).1 (not_takesUpper_of_le_lo h (mul_lt_succ_mul c (two_zpow_pos q))))

theorem significandAt_snd_iff {r : Rm} {neg : Bool} (hd : 0 < den) (q : Int) :
    (significandAt r neg num den e q).2 = true ↔ ((significandAt r neg num den e q).1 : Rat) * 2 ^ q = mag num den e := by
  rw [← inUnits_mul hd q, mul_eq_mul_iff_of_pos (two_zpow_pos q)]
  exact roundDiv_snd_iff (inUnits_den_pos hd q)

/-- The model's comparison of `num`/`den` with 2^t. -/
theorem below_iff (hd : 0 < den) (t : Int) :
    (if 0 ≤ t then decide (num < den * 2 ^ t.toNat) else decide (num * 2 ^ (-t).toNat < den)) = true ↔ (num : Rat) / den < 2 ^ t := by
  rw [Rat.div_lt_iff (Rat.natCast_pos.2 hd)]
  split
  next ht =>
    rw [decide_eq_true_iff, Nat.mul_comm, ← Rat.natCast_lt_natCast, Rat.natCast_mul, cast_two_pow_toNat ht]
  next ht =>
    have hone : (2 : Rat) ^ t * 2 ^ (-t) = 1 := by rw [← two_zpow_add, Int.add_right_neg, two_zpow_zero]
    have hden : (2 : Rat) ^ t * den * 2 ^ (-t) = den := by grind
    rw [decide_eq_true_iff, ← Rat.natCast_lt_natCast, Rat.natCast_mul, cast_two_pow_toNat (by omega),
      ← Rat.mul_lt_mul_right (a := num) (b := 2 ^ t * den) (two_zpow_pos (-t)), hden]

theorem cast_log2_bounds {n : Nat} (hn : 0 < n) : (2 : Rat) ^ (n.log2 : Int) ≤ n ∧ (n : Rat) < 2 ^ ((n.log2 : Int) + 1) := by
  have hsucc : (2 : Rat) ^ ((n.log2 : Int) + 1) = ((2 ^ (n.log2 + 1) : Nat) : Rat) := two_zpow_natCast _
  rw [two_zpow_natCast, hsucc]
  exact ⟨Rat.natCast_le_natCast.2 (Nat.log2_self_le (by omega)), Rat.natCast_lt_natCast.2 Nat.lt_log2_self⟩

/-- The quotient of two numbers between powers of two lies between powers of two. -/
theorem div_log2_bounds (hn : 0 < num) (hd : 0 < den) :
    (2 : Rat) ^ ((num.log2 : Int) - den.log2 - 1) ≤ num / den ∧ (num : Rat) / den < 2 ^ ((num.log2 : Int) - den.log2 + 1) := by
  obtain ⟨hn1, hn2⟩ := cast_log2_bounds hn
  obtain ⟨hd1, hd2⟩ := cast_log2_bounds hd
  have hd' : (0 : Rat) < den := Rat.natCast_pos.2 hd
  constructor
  · have hpow : (2 : Rat) ^ ((num.log2 : Int) - den.log2 - 1) * 2 ^ ((den.log2 : Int) + 1) = 2 ^ (num.log2 : Int) := by
      rw [← two_zpow_add]
      congr 1
      omega
    have hmul := Rat.mul_le_mul_of_nonneg_left (Rat.le_of_lt hd2) (Rat.le_of_lt (two_zpow_pos ((num.log2 : Int) - den.log2 - 1)))
    rw [← Rat.not_lt, Rat.div_lt_iff hd', Rat.not_lt]
    grind
  · have hpow : (2 : Rat) ^ ((num.log2 : Int) - den.log2 + 1) * 2 ^ (den.log2 : Int) = 2 ^ ((num.log2 : Int) + 1) := by
      rw [← two_zpow_add]
      congr 1
      omega
    have hmul := Rat.mul_le_mul_of_nonneg_left hd1 (Rat.le_of_lt (two_zpow_pos ((num.log2 : Int) - den.log2 + 1)))
    rw [Rat.div_lt_iff hd']
    grind

theorem ilog2_eq (hd : 0 < den) : ilog2 num den e = (if (num : Rat) / den < 2 ^ ((num.log2 : Int) - den.log2) then (num.log2 : Int) - den.log2 - 1
    else (num.log2 : Int) - den.log2) + e := by
  unfold ilog2
  simp only [below_iff hd]

/-- `ilog2` is the exponent of the leading bit. -/
theorem ilog2_spec (hn : 0 < num) (hd : 0 < den) :
    (2 : Rat) ^ ilog2 num den e ≤ mag num den e ∧ mag num den e < 2 ^ (ilog2 num den e + 1) := by
  obtain ⟨hlow, hhigh⟩ := div_log2_bounds hn hd
  rw [ilog2_eq hd, mag, Int.add_right_comm, two_zpow_add, two_zpow_add, mul_le_mul_iff_of_pos (two_zpow_pos e), Rat.mul_lt_mul_right (two_zpow_pos e)]
  split
  next hlt =>
    rw [Int.sub_add_cancel]
    exact ⟨hlow, hlt⟩
  next hge => exact ⟨Rat.not_lt.1 hge, hhigh⟩

end Scale

/-! ## Values of magnitude patterns -/

section Format
variable {f : Fmt}

theorem two_pow_frac_pos (f : Fmt) : 0 < 2 ^ f.frac := Nat.two_pow_pos _

theorem magVal_subnormal {z : Nat} (hz : z < 2 ^ f.frac) : magVal f z = z * (2 : Rat) ^ (f.emin - f.frac) := by
  unfold magVal
  rw [Nat.mod_eq_of_lt hz]
  exact if_pos (Nat.div_eq_of_lt hz)

theorem magVal_normal {j z : Nat} (hz : z < 2 ^ f.frac) :
    magVal f ((j + 1) * 2 ^ f.frac + z) = ((2 ^ f.frac + z : Nat) : Rat) * (2 : Rat) ^ (f.emin - f.frac + j) := by
  obtain ⟨hdiv, hmod⟩ := (Nat.div_mod_unique (a := (j + 1) * 2 ^ f.frac + z) (c := z) (d := j + 1) (two_pow_frac_pos f)).2
    ⟨by rw [Nat.add_comm, Nat.mul_comm], hz⟩
  have hexp : f.emin - f.frac + j = ((j + 1 : Nat) : Int) - f.bias - f.frac := by unfold Fmt.emin; omega
  rw [hexp]
  unfold magVal
  rw [hdiv, hmod]
  exact if_neg (Nat.succ_ne_zero j)

/-- The magnitude patterns go on from binade to binade: `j` binades up, a significand `y` counts units of 2^(emin − m + j), the carry into
the next binade included. -/
theorem magVal_binade {j y : Nat} (hlow : j = 0 ∨ 2 ^ f.frac ≤ y) (hy : y ≤ 2 ^ (f.frac + 1)) :
    magVal f (j * 2 ^ f.frac + y) = y * (2 : Rat) ^ (f.emin - f.frac + j) := by
  have hpos := two_pow_frac_pos f
  rcases Nat.lt_or_ge y (2 ^ f.frac) with hsub | hnorm
  · obtain rfl : j = 0 := by omega
    rw [Nat.zero_mul, Nat.zero_add, magVal_subnormal hsub, Int.natCast_zero, Int.add_zero]
  obtain ⟨z, rfl⟩ := Nat.exists_eq_add_of_le hnorm
  rw [← Nat.add_assoc, ← Nat.succ_mul]
  rcases Nat.lt_or_ge z (2 ^ f.frac) with hz | hz
  · exact magVal_normal hz
  · obtain rfl : z = 2 ^ f.frac := by rw [Nat.pow_succ] at hy; omega
    have hcarry := magVal_normal (f := f) (j := j + 1) (z := 0) hpos
    have hunit := two_zpow_add (f.emin - f.frac + j) 1
    have htwo : (2 : Rat) ^ (1 : Int) = 2 := Rat.zpow_one 2
    rw [Nat.add_zero, Nat.succ_mul] at hcarry
    rw [hcarry, Int.natCast_add, ← Int.add_assoc, Int.natCast_one, hunit, htwo, Nat.add_zero, Rat.natCast_add]
    grind

/-- Every pattern has a binade and a significand there. -/
theorem exists_binade (f : Fmt) (b : Nat) :
    ∃ j y, b = j * 2 ^ f.frac + y ∧ (j = 0 ∨ 2 ^ f.frac ≤ y) ∧ y < 2 ^ (f.frac + 1) := by
  have hdm := Nat.div_add_mod' b (2 ^ f.frac)
  have hz := Nat.mod_lt b (two_pow_frac_pos f)
  rw [Nat.pow_succ]
  rcases h : b / 2 ^ f.frac with _ | j
  · rw [h, Nat.zero_mul] at hdm
    exact ⟨0, b % 2 ^ f.frac, by omega, .inl rfl, by omega⟩
  · rw [h, Nat.succ_mul] at hdm
    exact ⟨j, 2 ^ f.frac + b % 2 ^ f.frac, by omega, .inr (by omega), by omega⟩

theorem magVal_lt_succ (f : Fmt) (b : Nat) : magVal f b < magVal f (b + 1) := by
  obtain ⟨j, y, rfl, hlow, hy⟩ := exists_binade f b
  rw [Nat.add_assoc, magVal_binade hlow (Nat.le_of_lt hy), magVal_binade (y := y + 1) (hlow.imp_right Nat.le_succ_of_le) hy, Rat.natCast_add]
  exact mul_lt_succ_mul _ (two_zpow_pos _)

/-- The patterns are in the order of their values. -/
theorem magVal_mono (f : Fmt) {b c : Nat} (h : b ≤ c) : magVal f b ≤ magVal f c := by
  induction h with
  | refl => exact Rat.le_refl
  | step _ ih => exact Rat.le_trans ih (Rat.le_of_lt (magVal_lt_succ f _))

theorem frac_pos (f : Fmt) : 0 < f.frac := by cases f <;> decide

/-- The least bit of a pattern is that of its significand. -/
theorem binade_parity (f : Fmt) (j y : Nat) : (j * 2 ^ f.frac + y) % 2 = y % 2 := by
  obtain ⟨m, hm⟩ := Nat.exists_eq_add_of_lt (frac_pos f)
  rw [hm, Nat.pow_succ, ← Nat.mul_assoc]
  omega

end Format

/-! ## The one rounding -/

section RoundMag
variable {f : Fmt} {r : Rm} {neg sat : Bool} {num den : Nat} {e : Int}

/-- The exponent of the unit in which the model rounds: the last place of the value's binade, or of the subnormals. -/
def unitExp (f : Fmt) (num den : Nat) (e : Int) : Int := max (ilog2 num den e - f.frac) (f.emin - f.frac)

/-- How many binades above the subnormals' unit that is. -/
def binade (f : Fmt) (num den : Nat) (e : Int) : Nat := (unitExp f num den e - (f.emin - f.frac)).toNat

/-- The rounded significand in that unit, and whether it is exact. -/
def significand (f : Fmt) (r : Rm) (neg : Bool) (num den : Nat) (e : Int) : Nat × Bool :=
  significandAt r neg num den e (unitExp f num den e)

/-- The rounded magnitude's pattern, with the exponent unbounded above. -/
def roundedPat (f : Fmt) (r : Rm) (neg : Bool) (num den : Nat) (e : Int) : Nat :=
  binade f num den e * 2 ^ f.frac + (significand f r neg num den e).1

/-- The model's test for a tiny result. -/
def isTiny (f : Fmt) (r : Rm) (neg : Bool) (num den : Nat) (e : Int) : Bool :=
  decide (ilog2 num den e < f.emin) &&
    !(decide (ilog2 num den e + 1 = f.emin) && (significandAt r neg num den e (ilog2 num den e - f.frac)).1 == 2 ^ (f.frac + 1))

theorem isTiny_eq_true_iff : isTiny f r neg num den e = true ↔ ilog2 num den e < f.emin ∧
    ¬(ilog2 num den e + 1 = f.emin ∧ (significandAt r neg num den e (ilog2 num den e - f.frac)).1 = 2 ^ (f.frac + 1)) := by
  unfold isTiny
  rw [Bool.and_eq_true, decide_eq_true_iff, Bool.not_eq_true', Bool.and_eq_false_iff, Classical.not_and_iff_not_or_not, decide_eq_false_iff_not,
    beq_eq_false_iff_ne]

/-- The model's rounding, in these words. -/
theorem roundMag_eq : roundMag f r sat neg num den e =
    if f.maxFin < roundedPat f r neg num den e then (overflowBits f r sat neg, Flags.of ||| Flags.nx)
    else (f.signed neg (roundedPat f r neg num den e), flagIf (!(significand f r neg num den e).2) Flags.nx |||
      flagIf (isTiny f r neg num den e && !(significand f r neg num den e).2) Flags.uf) := rfl

theorem emin_add_binade (f : Fmt) (num den : Nat) (e : Int) : f.emin - f.frac + binade f num den e = unitExp f num den e := by
  unfold binade unitExp; omega

/-- Above the subnormals the magnitude reaches the least significand of its binade. -/
theorem two_pow_frac_mul_le (hn : 0 < num) (hd : 0 < den) :
    binade f num den e = 0 ∨ ((2 ^ f.frac : Nat) : Rat) * 2 ^ unitExp f num den e ≤ mag num den e := by
  by_cases hk : ilog2 num den e ≤ f.emin
  · left; unfold binade unitExp; omega
  · right
    have hq : f.frac + unitExp f num den e = ilog2 num den e := by unfold unitExp; omega
    rw [two_pow_mul_zpow, hq]
    exact (ilog2_spec hn hd).1

theorem mag_lt_two_pow_succ_mul (hn : 0 < num) (hd : 0 < den) :
    mag num den e < ((2 ^ (f.frac + 1) : Nat) : Rat) * 2 ^ unitExp f num den e := by
  rw [two_pow_mul_zpow]
  have hle : (2 : Rat) ^ (ilog2 num den e + 1) ≤ 2 ^ (((f.frac + 1 : Nat) : Int) + unitExp f num den e) :=
    two_zpow_mono (by unfold unitExp; omega)
  have hlt := (ilog2_spec (e := e) hn hd).2
  grind

/-- So the rounded significand is one of its binade, or the carry into the next. -/
theorem significand_bounds (hn : 0 < num) (hd : 0 < den) :
    (binade f num den e = 0 ∨ 2 ^ f.frac ≤ (significand f r neg num den e).1) ∧ (significand f r neg num den e).1 ≤ 2 ^ (f.frac + 1) :=
  ⟨(two_pow_frac_mul_le hn hd).imp_right (le_significandAt hd), significandAt_le hd (Rat.le_of_lt (mag_lt_two_pow_succ_mul hn hd))⟩

/-- R57 over all patterns, as one cut: the rounded pattern lies above `c` exactly when the mode takes the upper one of `c` and `c + 1`. In the
magnitude's own binade that is the cut of the significands; the patterns below and above it are settled by their order. -/
theorem lt_roundedPat_iff (hn : 0 < num) (hd : 0 < den) (c : Nat) :
    c < roundedPat f r neg num den e ↔ takesUpper r neg (c % 2 == 1) (magVal f c) (magVal f (c + 1)) (mag num den e) := by
  obtain ⟨hlow, hhigh⟩ := significand_bounds (f := f) (r := r) (neg := neg) (e := e) hn hd
  have hpow : 2 ^ f.frac ≤ 2 ^ (f.frac + 1) := Nat.pow_le_pow_right Nat.two_pos (Nat.le_succ _)
  have hval := @magVal_binade f (binade f num den e)
  rw [emin_add_binade] at hval
  unfold roundedPat
  rcases Nat.lt_or_ge c (binade f num den e * 2 ^ f.frac + 2 ^ (f.frac + 1)) with hc | hc
  · by_cases hbelow : binade f num den e ≠ 0 ∧ c < binade f num den e * 2 ^ f.frac + 2 ^ f.frac
    · obtain ⟨hne, hbelow⟩ := hbelow
      refine iff_of_true (by omega) (takesUpper_of_hi_le (Rat.le_trans (magVal_mono f hbelow) ?_))
      rw [hval (.inr (Nat.le_refl _)) hpow]
      exact (two_pow_frac_mul_le hn hd).resolve_left hne
    · have hbase : binade f num den e * 2 ^ f.frac ≤ c := by
        rcases Nat.eq_zero_or_pos (binade f num den e) with h0 | h0
        · rw [h0, Nat.zero_mul]
          exact Nat.zero_le c
        · omega
      obtain ⟨y, rfl⟩ := Nat.exists_eq_add_of_le hbase
      rw [Nat.add_lt_add_iff_left, significand, lt_significandAt_iff hd, binade_parity, Nat.add_assoc, hval (by omega) (by omega),
        hval (by omega) (by omega), Rat.natCast_add]
      rfl
  · refine iff_of_false (by omega) (not_takesUpper_of_le_lo (Rat.le_trans ?_ (magVal_mono f hc)) (magVal_lt_succ f c))
    rw [hval (.inr hpow) (Nat.le_refl _)]
    exact Rat.le_of_lt (mag_lt_two_pow_succ_mul hn hd)

theorem significand_snd_iff (hn : 0 < num) (hd : 0 < den) :
    (significand f r neg num den e).2 = true ↔ magVal f (roundedPat f r neg num den e) = mag num den e := by
  obtain ⟨hlow, hhigh⟩ := significand_bounds (f := f) (r := r) (neg := neg) (e := e) hn hd
  rw [roundedPat, magVal_binade hlow hhigh, emin_add_binade]
  exact significandAt_snd_iff hd _

/-- R58's test is a comparison of patterns. -/
theorem overflows_iff (hn : 0 < num) (hd : 0 < den) :
    overflows f r neg (mag num den e) ↔ f.maxFin < roundedPat f r neg num den e :=
  (lt_roundedPat_iff hn hd f.maxFin).symm

/-- The greatest significand of a binade, an odd one. -/
theorem cast_topSignificand (m : Nat) : ((2 ^ (m + 1) - 1 : Nat) : Rat) + 1 = (2 ^ (m + 1) : Nat) := by
  exact_mod_cast Nat.sub_add_cancel Nat.one_le_two_pow

theorem topSignificand_odd (m : Nat) : ((2 ^ (m + 1) - 1) % 2 == 1) = true := by
  have hone := Nat.one_le_two_pow (n := m)
  rw [beq_iff_eq, Nat.pow_succ]
  omega

/-- The two neighbours of R59's test, counted in units of the last place that the binade below the normal values has. -/
theorem tinyAfter_iff {x : Rat} : tinyAfter f r neg x ↔
    ¬takesUpper r neg true (((2 ^ (f.frac + 1) - 1 : Nat) : Rat) * 2 ^ (f.emin - 1 - f.frac))
      ((((2 ^ (f.frac + 1) - 1 : Nat) : Rat) + 1) * 2 ^ (f.emin - 1 - f.frac)) x := by
  have htop : ((2 ^ (f.frac + 1) : Nat) : Rat) * 2 ^ (f.emin - 1 - f.frac) = 2 ^ (1 - (f.bias : Int)) := by
    rw [two_pow_mul_zpow]
    congr 1
    unfold Fmt.emin
    omega
  have hulp : f.emin - 1 - f.frac = -(f.bias : Int) - f.frac := by unfold Fmt.emin; omega
  have hbelow : ((2 ^ (f.frac + 1) - 1 : Nat) : Rat) * 2 ^ (f.emin - 1 - f.frac) = 2 ^ (1 - (f.bias : Int)) - 2 ^ (f.emin - 1 - f.frac) := by
    have hcast := cast_topSignificand f.frac
    grind
  rw [hbelow, cast_topSignificand, htop, hulp]
  exact Iff.rfl

/-- The model's test for a tiny result is R59's: normal values and values below the last binade are decided by their exponent, and in the binade
just below the normal values by the rounding there. -/
theorem isTiny_iff (hn : 0 < num) (hd : 0 < den) :
    isTiny f r neg num den e = true ↔ tinyAfter f r neg (mag num den e) := by
  obtain ⟨hlo, hhi⟩ := ilog2_spec (e := e) hn hd
  have htop : ((2 ^ (f.frac + 1) : Nat) : Rat) * 2 ^ (f.emin - 1 - f.frac) = 2 ^ f.emin := by
    rw [two_pow_mul_zpow]
    congr 1
    omega
  have hone := Nat.one_le_two_pow (n := f.frac)
  have hu := two_zpow_pos (f.emin - 1 - f.frac)
  rw [isTiny_eq_true_iff, tinyAfter_iff]
  rcases Int.lt_trichotomy (ilog2 num den e + 1) f.emin with hk | hk | hk
  · have hbinade : (2 : Rat) ^ (ilog2 num den e + 1) ≤ 2 ^ (f.frac + (f.emin - 1 - f.frac)) := two_zpow_mono (by omega)
    have htwo : ((2 ^ f.frac : Nat) : Rat) ≤ ((2 ^ (f.frac + 1) - 1 : Nat) : Rat) := Rat.natCast_le_natCast.2 (by rw [Nat.pow_succ]; omega)
    have hbelow := Rat.mul_le_mul_of_nonneg_right htwo (Rat.le_of_lt hu)
    rw [two_pow_mul_zpow] at hbelow
    exact iff_of_true (by omega) (not_takesUpper_of_le_lo (by grind) (mul_lt_succ_mul _ hu))
  · have hulp : ilog2 num den e - f.frac = f.emin - 1 - f.frac := by omega
    have hle := significandAt_le (r := r) (neg := neg) (c := 2 ^ (f.frac + 1)) hd (by rw [htop, ← hk]; exact Rat.le_of_lt hhi)
    rw [hulp, ← topSignificand_odd f.frac, ← lt_significandAt_iff hd]
    omega
  · have hnormal : (2 : Rat) ^ f.emin ≤ 2 ^ ilog2 num den e := two_zpow_mono (by omega)
    refine iff_of_false (by omega) (fun h => h (takesUpper_of_hi_le ?_))
    rw [cast_topSignificand, htop]
    exact Rat.le_trans hnormal hlo

end RoundMag

/-! ## Patterns -/

section Pattern
variable {f : Fmt}

theorem two_pow_width (f : Fmt) : 2 ^ f.width = 2 ^ (f.width - 1) + 2 ^ (f.width - 1) := by cases f <;> rfl

theorem maxFin_lt (f : Fmt) : f.maxFin < 2 ^ (f.width - 1) := by cases f <;> decide

theorem signed_eq (f : Fmt) (n : Bool) (k : Nat) : f.signed n k = k + if n then 2 ^ (f.width - 1) else 0 := by
  cases n <;> rfl

theorem signed_lt {k : Nat} (n : Bool) (hk : k < 2 ^ (f.width - 1)) : f.signed n k < 2 ^ f.width := by
  rw [signed_eq, two_pow_width]
  split <;> omega

theorem patMag_signed {k : Nat} (n : Bool) (hk : k < 2 ^ (f.width - 1)) : patMag f (f.signed n k) = k := by
  cases n
  · exact Nat.mod_eq_of_lt hk
  · exact (Nat.add_mod_right k _).trans (Nat.mod_eq_of_lt hk)

theorem testBit_signed {k : Nat} (n : Bool) (hk : k < 2 ^ (f.width - 1)) : (f.signed n k).testBit (f.width - 1) = n := by
  have hbit := Nat.testBit_lt_two_pow hk
  cases n
  · exact hbit
  · have htop := Nat.testBit_two_pow_add_eq k (f.width - 1)
    rw [hbit, Nat.add_comm] at htop
    exact htop

end Pattern

section Decode
variable {f : Fmt} {b : Nat}

/-- The cases of the model's decoding (R52, R53). -/
theorem dec_eq (hb : b < 2 ^ f.width) : f.dec b =
    if f.maxFin < patMag f b then
      if f.hasInf && patMag f b % 2 ^ f.frac == 0 then .inf (b.testBit (f.width - 1))
      else .nan (f.hasInf && !(patMag f b % 2 ^ f.frac).testBit (f.frac - 1))
    else if patMag f b / 2 ^ f.frac = 0 then .fin (b.testBit (f.width - 1)) (patMag f b % 2 ^ f.frac) 1 (1 - (f.bias : Int) - (f.frac : Int))
    else .fin (b.testBit (f.width - 1)) (2 ^ f.frac + patMag f b % 2 ^ f.frac) 1
      (((patMag f b / 2 ^ f.frac : Nat) : Int) - (f.bias : Int) - (f.frac : Int)) := by
  unfold Fmt.dec patMag
  rw [Nat.mod_eq_of_lt hb]

theorem exVal_fin_one {n : Bool} {k : Nat} {e : Int} : exVal (.fin n k 1 e) = (if n then -1 else 1) * ((k : Rat) * 2 ^ e) := by
  have hcast : ((1 : Nat) : Rat) = 1 := rfl
  have hone : (k : Rat) / (1 : Nat) = k := by grind
  rw [exVal_fin, mag, hone]

theorem dec_of_le_maxFin (hb : b < 2 ^ f.width) (hm : patMag f b ≤ f.maxFin) :
    IsNumber (f.dec b) ∧ exVal (f.dec b) = patVal f b ∧ (f.dec b).isNeg = b.testBit (f.width - 1) := by
  rw [dec_eq hb, if_neg (Nat.not_lt.2 hm), patVal, magVal]
  by_cases hsub : patMag f b / 2 ^ f.frac = 0
  · rw [if_pos hsub, exVal_fin_one, if_pos hsub]
    exact ⟨Nat.one_pos, rfl, rfl⟩
  · rw [if_neg hsub, exVal_fin_one, if_neg hsub]
    exact ⟨Nat.one_pos, rfl, rfl⟩

theorem dec_of_maxFin_lt (hb : b < 2 ^ f.width) (hm : f.maxFin < patMag f b) :
    f.dec b = if f.hasInf && patMag f b % 2 ^ f.frac == 0 then .inf (b.testBit (f.width - 1))
      else .nan (f.hasInf && !b.testBit (f.frac - 1)) := by
  have hbit : (patMag f b % 2 ^ f.frac).testBit (f.frac - 1) = b.testBit (f.frac - 1) := by
    have hfrac : f.frac - 1 < f.frac := Nat.sub_one_lt (Nat.ne_of_gt (frac_pos f))
    have hwidth : f.frac - 1 < f.width - 1 := by cases f <;> decide
    rw [patMag, Nat.testBit_mod_two_pow, Nat.testBit_mod_two_pow, decide_eq_true hfrac, decide_eq_true hwidth, Bool.true_and, Bool.true_and]
  rw [dec_eq hb, if_pos hm, hbit]

/-- R53: beyond the largest finite pattern, fraction zero is the infinity. -/
theorem fraction_eq_zero_iff (hinf : f.hasInf = true) (hm : f.maxFin < patMag f b) :
    patMag f b % 2 ^ f.frac = 0 ↔ patMag f b = f.maxFin + 1 := by
  have hlt : patMag f b < 2 ^ (f.width - 1) := Nat.mod_lt _ (Nat.two_pow_pos _)
  generalize patMag f b = m at hm hlt
  cases f with
  | e4m3 => exact absurd hinf Bool.false_ne_true
  | e2m1 => exact absurd hinf Bool.false_ne_true
  | _ =>
    simp only [Fmt.maxFin, Fmt.width, Fmt.frac] at hm hlt ⊢
    omega

theorem dec_special (hb : b < 2 ^ f.width) (hm : f.maxFin < patMag f b) :
    (f.hasInf = true → patMag f b = f.maxFin + 1 → f.dec b = .inf (b.testBit (f.width - 1))) ∧
      (f.hasInf = true → patMag f b ≠ f.maxFin + 1 → f.dec b = .nan (!b.testBit (f.frac - 1))) ∧
      (f.hasInf = false → f.dec b = .nan false) := by
  rw [dec_of_maxFin_lt hb hm]
  refine ⟨fun hinf hmag => ?_, fun hinf hmag => ?_, fun hinf => ?_⟩
  · have hzero := (fraction_eq_zero_iff hinf hm).2 hmag
    rw [hinf, Bool.true_and, beq_iff_eq.2 hzero, if_pos rfl]
  · have hzero := mt (fraction_eq_zero_iff hinf hm).1 hmag
    rw [hinf, Bool.true_and, beq_eq_false_iff_ne.2 hzero, if_neg Bool.false_ne_true, Bool.true_and]
  · rw [hinf, Bool.false_and, if_neg Bool.false_ne_true, Bool.false_and]

end Decode

/-! ## Results and flags -/

section Flags
variable {f : Fmt} {r : Rm} {n sat : Bool} {num den : Nat} {e : Int}

/-- The flags of a result that does not overflow (R59). -/
theorem flagBits (exact tiny : Bool) :
    let y := flagIf (!exact) Flags.nx ||| flagIf (tiny && !exact) Flags.uf
    y.getLsbD 2 = false ∧ y.getLsbD 1 = false ∧ y.getLsbD 0 = false ∧ (y.getLsbD 4 = true ↔ ¬exact = true) ∧
      (y.getLsbD 3 = true ↔ ¬exact = true ∧ tiny = true) := by
  cases exact <;> cases tiny <;> decide

theorem roundEx_fin (hn : 0 < num) : roundEx f r sat (.fin n num den e) = roundMag f r sat n num den e := by
  exact if_neg (Nat.ne_of_gt hn)

/-- R58's table gives the largest finite value. -/
def saturates (f : Fmt) (r : Rm) (sat n : Bool) : Bool := sat || !(r == .rne || awayFrom r n) || f == .e2m1

theorem saturates_iff : saturates f r sat n = true ↔ sat = true ∨ ¬(r = .rne ∨ awayFrom r n = true) ∨ f = .e2m1 := by
  unfold saturates
  rw [Bool.or_eq_true, Bool.or_eq_true, Bool.not_eq_true', ← Bool.not_eq_true, Bool.or_eq_true, beq_iff_eq, beq_iff_eq, or_assoc]

/-- The table of R58. -/
theorem overflowBits_eq : overflowBits f r sat n = if saturates f r sat n = true then f.signed n f.maxFin
    else if f.hasInf = true then f.signed n (f.maxFin + 1) else f.canonNan := by
  cases r <;> cases n <;> rfl

theorem overflowBits_saturated (h : sat = true ∨ ¬(r = .rne ∨ awayFrom r n = true) ∨ f = .e2m1) :
    overflowBits f r sat n = f.signed n f.maxFin := by
  rw [overflowBits_eq, if_pos (saturates_iff.2 h)]

theorem overflowBits_away (hs : sat = false) (ha : r = .rne ∨ awayFrom r n = true) (hf : f ≠ .e2m1) :
    overflowBits f r sat n = if f = .e4m3 then 0x7F else f.signed n (f.maxFin + 1) := by
  have hnot : ¬saturates f r sat n = true := by
    rw [saturates_iff]
    rintro (h | h | h)
    · exact Bool.false_ne_true (hs ▸ h)
    · exact h ha
    · exact hf h
  rw [overflowBits_eq, if_neg hnot]
  cases f with
  | e2m1 => exact absurd rfl hf
  | _ => rfl

theorem roundEx_nan {v : Bool} : roundEx f r sat (.nan v) = (f.canonNan, if v = true ∨ f = .e2m1 then 1#5 else 0#5) := by
  cases v <;> cases f <;> rfl

theorem roundEx_inf : roundEx f r sat (.inf n) =
    (if f = .e4m3 ∧ sat = false then 0x7F else if f.hasInf = true then f.signed n (f.maxFin + 1) else f.signed n f.maxFin,
      if f.hasInf = true then 0#5 else 1#5) := by
  cases f <;> cases sat <;> rfl

theorem roundEx_of_not_overflows (hn : 0 < num) (hd : 0 < den) (h : ¬overflows f r n (mag num den e)) :
    roundedPat f r n num den e ≤ f.maxFin ∧ roundEx f r sat (.fin n num den e) =
      (f.signed n (roundedPat f r n num den e), flagIf (!(significand f r n num den e).2) Flags.nx |||
        flagIf (isTiny f r n num den e && !(significand f r n num den e).2) Flags.uf) := by
  rw [overflows_iff hn hd] at h
  exact ⟨Nat.not_lt.1 h, by rw [roundEx_fin hn, roundMag_eq, if_neg h]⟩

theorem roundEx_of_overflows (hn : 0 < num) (hd : 0 < den) (h : overflows f r n (mag num den e)) :
    roundEx f r sat (.fin n num den e) = (overflowBits f r sat n, 0b10100#5) := by
  rw [roundEx_fin hn, roundMag_eq, if_pos ((overflows_iff hn hd).1 h)]
  rfl

/-- The cut just above the result and the one just below it are R57's two conditions. -/
theorem rounds_signed_roundedPat (hn : 0 < num) (hd : 0 < den) (h : roundedPat f r n num den e ≤ f.maxFin) :
    Rounds f r n (mag num den e) (f.signed n (roundedPat f r n num den e)) := by
  have hlt := Nat.lt_of_le_of_lt h (maxFin_lt f)
  refine ⟨signed_lt n hlt, testBit_signed n hlt, ?_⟩
  rw [patMag_signed n hlt]
  refine ⟨mt (lt_roundedPat_iff hn hd _).2 (Nat.lt_irrefl _), fun hpos => ?_⟩
  obtain ⟨c, hc⟩ := Nat.exists_eq_add_of_lt hpos
  have hup := (lt_roundedPat_iff (f := f) (r := r) (neg := n) (e := e) hn hd c).1 (by omega)
  have hpar : (c % 2 == 1) = ((c + 1) % 2 == 0) := by
    rw [Bool.eq_iff_iff, beq_iff_eq, beq_iff_eq]; omega
  rw [hc, Nat.zero_add, Nat.add_sub_cancel, ← hpar]
  exact hup

end Flags

/-! ## Conversion to an integer -/

section ToInt
variable {r : Rm} {n : Bool} {a d : Nat}

/-- A mode away from zero gives the least integer not below the quotient. -/
theorem roundDiv_away (hd : 0 < d) (h : awayFrom r n = true) :
    (a : Rat) / d ≤ (roundDiv r n a d).1 ∧ ((roundDiv r n a d).1 : Rat) < a / d + 1 := by
  have hlt := lt_floor_succ (n := a) hd
  have hle := floor_le (n := a) hd
  rcases roundDiv_floor_or_succ (r := r) (neg := n) (n := a) hd with ⟨hy, hup⟩ | ⟨hy, hup⟩
  · have hexact : ¬((a / d : Nat) : Rat) < a / d := fun hgt => hup (.inr ⟨hgt, .inl h⟩)
    rw [hy]
    exact ⟨Rat.not_lt.1 hexact, by grind⟩
  · have hgt : ((a / d : Nat) : Rat) < a / d := Rat.not_le.1 fun hge => not_takesUpper_of_le_lo hge (by grind) hup
    rw [hy, Rat.natCast_add]
    exact ⟨Rat.le_of_lt hlt, by grind⟩

/-- A mode toward zero gives the greatest integer not above the quotient. -/
theorem roundDiv_toward (hd : 0 < d) (h : awayFrom r n = false) (hr : r ≠ .rne) :
    ((roundDiv r n a d).1 : Rat) ≤ a / d ∧ (a : Rat) / d < (roundDiv r n a d).1 + 1 := by
  have hlt := lt_floor_succ (n := a) hd
  rcases roundDiv_floor_or_succ (r := r) (neg := n) (n := a) hd with ⟨hy, -⟩ | ⟨-, hup⟩
  · rw [hy]
    exact ⟨floor_le hd, hlt⟩
  · rcases hup with hge | ⟨-, haway | ⟨hrne, -⟩⟩
    · exact absurd hge (Rat.not_le.2 hlt)
    · exact absurd (h ▸ haway) Bool.false_ne_true
    · exact absurd hrne hr

/-- The nearest mode errs by a half at most, and gives an even integer on a tie. -/
theorem roundDiv_nearest (hd : 0 < d) :
    ((roundDiv .rne n a d).1 : Rat) - a / d ≤ 1 / 2 ∧ (a : Rat) / d - (roundDiv .rne n a d).1 ≤ 1 / 2 ∧
      (((roundDiv .rne n a d).1 : Rat) - a / d = 1 / 2 ∨ (a : Rat) / d - (roundDiv .rne n a d).1 = 1 / 2 →
        (roundDiv .rne n a d).1 % 2 = 0) := by
  have hlt := lt_floor_succ (n := a) hd
  have hle := floor_le (n := a) hd
  have hmid : (((a / d : Nat) : Rat) + ((a / d : Nat) + 1)) / 2 = (a / d : Nat) + 1 / 2 := by grind
  rcases roundDiv_floor_or_succ (r := .rne) (neg := n) (n := a) hd with ⟨hy, hup⟩ | ⟨hy, hup⟩
  · rw [takesUpper_rne_iff hlt, hmid, beq_iff_eq] at hup
    rw [hy]
    have hhalf : (a : Rat) / d ≤ (a / d : Nat) + 1 / 2 := Rat.not_lt.1 fun h => hup ⟨by grind, .inl h⟩
    refine ⟨by grind, by grind, ?_⟩
    rintro (htie | htie)
    · grind
    · have heven : ¬a / d % 2 = 1 := fun h => hup ⟨by grind, .inr ⟨by grind, h⟩⟩
      omega
  · rw [takesUpper_rne_iff hlt, hmid, beq_iff_eq] at hup
    rw [hy, Rat.natCast_add]
    obtain ⟨-, hgt | ⟨heq, hodd⟩⟩ := hup
    · exact ⟨by grind, by grind, by rintro (htie | htie) <;> grind⟩
    · exact ⟨by grind, by grind, fun _ => by omega⟩

theorem cast_sgn (k : Nat) : ((Ex.sgn n k : Int) : Rat) = (if n then -1 else 1) * k := by
  cases n
  · exact (Rat.intCast_natCast k).trans (Rat.one_mul _).symm
  · exact (Rat.intCast_neg k).trans (by rw [Rat.intCast_natCast, if_pos rfl]; grind)

theorem sgn_even {k : Nat} (hk : k % 2 = 0) : Ex.sgn n k % 2 = 0 := by
  cases n
  · show (k : Int) % 2 = 0
    omega
  · show -(k : Int) % 2 = 0
    omega

theorem roundsInt_sgn (hd : 0 < d) :
    RoundsInt r ((if n then -1 else 1) * ((a : Rat) / d)) (Ex.sgn n (roundDiv r n a d).1) := by
  have hpos : (0 : Rat) ≤ a / d := Rat.le_trans Rat.natCast_nonneg (floor_le hd)
  unfold RoundsInt
  rw [cast_sgn]
  cases r with
  | rne =>
    obtain ⟨hle, hge, htie⟩ := roundDiv_nearest (n := n) (a := a) hd
    cases n <;> simp only [if_true, if_false, Bool.false_eq_true]
    · exact ⟨by grind, by grind, fun h => sgn_even (htie (h.imp (by intro; grind) (by intro; grind)))⟩
    · exact ⟨by grind, by grind, fun h => sgn_even (htie (h.symm.imp (by intro; grind) (by intro; grind)))⟩
  | rz =>
    obtain ⟨hle, hlt⟩ := roundDiv_toward (r := .rz) (n := n) (a := a) hd (by cases n <;> rfl) (by decide)
    have hy : (0 : Rat) ≤ (roundDiv .rz n a d).1 := Rat.natCast_nonneg
    cases n <;> simp only [if_true, if_false, Bool.false_eq_true]
    · rw [if_pos (by grind)]
      exact ⟨by grind, by grind⟩
    · split <;> exact ⟨by grind, by grind⟩
  | ru =>
    cases n <;> simp only [if_true, if_false, Bool.false_eq_true]
    · obtain ⟨hle, hlt⟩ := roundDiv_away (r := .ru) (n := false) (a := a) hd rfl
      exact ⟨by grind, by grind⟩
    · obtain ⟨hle, hlt⟩ := roundDiv_toward (r := .ru) (n := true) (a := a) hd rfl (by decide)
      exact ⟨by grind, by grind⟩
  | rd =>
    cases n <;> simp only [if_true, if_false, Bool.false_eq_true]
    · obtain ⟨hle, hlt⟩ := roundDiv_toward (r := .rd) (n := false) (a := a) hd rfl (by decide)
      exact ⟨by grind, by grind⟩
    · obtain ⟨hle, hlt⟩ := roundDiv_away (r := .rd) (n := true) (a := a) hd rfl
      exact ⟨by grind, by grind⟩

end ToInt

section ToIntDest
variable {r : Rm} {sg : Bool} {w : Nat} {x : Ex}

/-- The least and the greatest integer of a destination. -/
def intMin (sg : Bool) (w : Nat) : Int := if sg then -(2 ^ (w - 1) : Nat) else 0
def intMax (sg : Bool) (w : Nat) : Int := if sg then (2 ^ (w - 1) : Nat) - 1 else (2 ^ w : Nat) - 1

/-- The conversion of a finite value, by its significand in units of one. -/
theorem toIntDest_fin {n : Bool} {num den : Nat} {e : Int} : toIntDest r sg w (.fin n num den e) =
    if Ex.sgn n (significandAt r n num den e 0).1 < intMin sg w then (BitVec.ofInt w (intMin sg w), 1#5)
    else if intMax sg w < Ex.sgn n (significandAt r n num den e 0).1 then (BitVec.ofInt w (intMax sg w), 1#5)
    else (BitVec.ofInt w (Ex.sgn n (significandAt r n num den e 0).1), flagIf (!(significandAt r n num den e 0).2) Flags.nx) := rfl

theorem intMin_le_intMax (sg : Bool) (w : Nat) : intMin sg w ≤ intMax sg w := by
  have h1 := Nat.one_le_two_pow (n := w - 1)
  have h2 := Nat.one_le_two_pow (n := w)
  cases sg
  · show (0 : Int) ≤ (2 ^ w : Nat) - 1
    omega
  · show -((2 ^ (w - 1) : Nat) : Int) ≤ (2 ^ (w - 1) : Nat) - 1
    omega

/-- R60: a number is rounded to an integer in the mode; one out of range saturates with NV alone, another that differs raises NX. -/
theorem toIntDest_number (hx : IsNumber x) : ∃ i : Int, RoundsInt r (exVal x) i ∧
    (i < intMin sg w → toIntDest r sg w x = (BitVec.ofInt w (intMin sg w), 1#5)) ∧
    (intMax sg w < i → toIntDest r sg w x = (BitVec.ofInt w (intMax sg w), 1#5)) ∧
    (intMin sg w ≤ i → i ≤ intMax sg w → toIntDest r sg w x = (BitVec.ofInt w i, if (i : Rat) = exVal x then 0#5 else 0b10000#5)) := by
  cases x with
  | nan => exact hx.elim
  | inf => exact hx.elim
  | fin n num den e =>
    have hexact : ((Ex.sgn n (significandAt r n num den e 0).1 : Int) : Rat) = exVal (.fin n num den e) ↔
        (significandAt r n num den e 0).2 = true := by
      rw [significandAt_snd_iff hx, exVal_fin, cast_sgn, two_zpow_zero, Rat.mul_one]
      cases n
      · grind
      · grind
    refine ⟨Ex.sgn n (significandAt r n num den e 0).1, ?_, fun hlow => ?_, fun hhigh => ?_, fun hlow hhigh => ?_⟩
    · rw [exVal_fin, ← inUnits_mul hx 0, two_zpow_zero, Rat.mul_one]
      exact roundsInt_sgn (inUnits_den_pos hx 0)
    · rw [toIntDest_fin, if_pos hlow]
    · rw [toIntDest_fin, if_neg (Int.not_lt.2 (Int.le_trans (intMin_le_intMax sg w) (Int.le_of_lt hhigh))), if_pos hhigh]
    · rw [toIntDest_fin, if_neg (Int.not_lt.2 hlow), if_neg (Int.not_lt.2 hhigh)]
      simp only [hexact]
      cases (significandAt r n num den e 0).2 <;> rfl

end ToIntDest

/-- Settles O59: the model rounds a quotient among the integers as R57 says, and that carries over to the patterns, which go on from binade to
binade; overflow, NX and UF are then comparisons of patterns. -/
theorem roundingLaws : Obligations.RoundingLaws := by
  unfold Obligations.RoundingLaws
  intro f r sat n v sg num den w b e x hden hnum
  have ha : exVal (.fin false num den e) = mag num den e := (exVal_fin false).trans (Rat.one_mul _)
  simp only [ha, ← signed_eq]
  refine ⟨rfl, fun hb => ⟨dec_of_le_maxFin hb, dec_special hb⟩, fun h => ?_, fun h => ?_, roundEx_nan, roundEx_inf, rfl,
    fun _ hx => toIntDest_number hx, rfl, rfl⟩
  · obtain ⟨hle, heq⟩ := roundEx_of_not_overflows (sat := sat) hnum hden h
    obtain ⟨hof, hdz, hnv, hnx, huf⟩ := flagBits (significand f r n num den e).2 (isTiny f r n num den e)
    rw [heq, patMag_signed n (Nat.lt_of_le_of_lt hle (maxFin_lt f)), Ne, ← significand_snd_iff hnum hden, ← isTiny_iff hnum hden]
    exact ⟨rounds_signed_roundedPat hnum hden hle, hle, hof, hdz, hnv, hnx, huf⟩
  · rw [roundEx_of_overflows hnum hden h]
    exact ⟨rfl, overflowBits_saturated, overflowBits_away⟩

end Sys2Proof.Rounding

/-! SUPPORT. The scalar core (06_core_scalar): multiplication, division and the bit functions (R106 to R108), and control transfer (R114 to R117).
Three layers: what a unit does when its sources are ready, what the decoder reads from a word of each format, and what the model's functions
compute. It uses core Lean only. -/
namespace Sys2Proof.ScalarCore
open Sys2Proof Sys2Proof.Machine Sys2Proof.Claims

/-! ## Units whose sources are ready -/

section Units
variable {s : State} {i : Instr} {d a b : BitVec 5} {stl : BitVec 3} {lat : Nat}

theorem ready_gs_cons {r : BitVec 5} {rs : List (BitVec 5)} : Ready s (gs (r :: rs)) ↔ Ready s (gs [r]) ∧ Ready s (gs rs) :=
  State.ready_append (gs [r]) (gs rs)

theorem rg_of_ready_gs {r : BitVec 5} (j : Nat) (h : Ready s (gs [r])) : s.rg j r = s.g r := State.rg_of_ready j h

theorem fn1_of_ready (f : Word → Word) (h : Ready s (gs [a])) :
    s.fn1 stl d a lat f = .next (unitDone s 1 stl (s.putG d (f (s.g a)) lat)) := by
  rw [← rg_of_ready_gs 0 h]
  exact State.unit_of_ready 1 stl _ h

theorem fn2_of_ready (p : Pre) (f : Word → Word → Word) (h : Ready s (gs [a, b])) :
    s.fn2 p stl d a b lat f = .next (unitDone s (1 + p.words) stl (s.putG d (f (s.g a) (s.g b)) (lat + modLat p))) := by
  obtain ⟨ha, hb⟩ := ready_gs_cons.1 h
  rw [← rg_of_ready_gs 0 ha, ← rg_of_ready_gs 1 hb]
  exact State.unit_of_ready (1 + p.words) stl _ h

/-- An instruction that is a one-source function writes the function's value. -/
theorem gives_fn1 {f : Word → Word} {z : Word} (hi : exec i s = s.fn1 stl d a lat f) (h : Ready s (gs [a])) (hz : f (s.g a) = z) :
    Gives i s (unitDone s 1 stl (s.putG d z lat)) := by
  rw [Gives, hi, fn1_of_ready f h, hz]

/-- An instruction that is a two-source function writes the function's value. -/
theorem gives_fn2 {f : Word → Word → Word} {z : Word} (hi : exec i s = s.fn2 Pre.none stl d a b lat f) (h : Ready s (gs [a, b]))
    (hz : f (s.g a) (s.g b) = z) : Gives i s (unitDone s 1 stl (s.putG d z lat)) := by
  rw [Gives, hi, fn2_of_ready Pre.none f h, hz]
  rfl

theorem gives_mul {fn : MulFn} {z : Word} (hi : exec i s = s.mul fn Pre.none stl d a b) (h : Ready s (gs [a, b]))
    (hz : mulRes fn none (s.g a) (s.g b) = z) : Gives i s (unitDone s 1 stl (s.putG d z 3)) := gives_fn2 hi h hz

/-- The four forms of DIV: quotient or remainder, at 64 bits or on the low words. -/
theorem gives_quot64 {signed : Bool} {z : Word} (hi : exec i s = s.div64 signed true stl d a b) (h : Ready s (gs [a, b]))
    (hz : (divRes signed (s.g a) (s.g b)).1 = z) : Gives i s (unitDone s 1 stl (s.putG d z)) := gives_fn2 hi h hz
theorem gives_rem64 {signed : Bool} {z : Word} (hi : exec i s = s.div64 signed false stl d a b) (h : Ready s (gs [a, b]))
    (hz : (divRes signed (s.g a) (s.g b)).2 = z) : Gives i s (unitDone s 1 stl (s.putG d z)) := gives_fn2 hi h hz
theorem gives_quot32 {signed : Bool} {z : BitVec 32} (hi : exec i s = s.div32 signed true stl d a b) (h : Ready s (gs [a, b]))
    (hz : (divRes signed (low32 (s.g a)) (low32 (s.g b))).1 = z) : Gives i s (unitDone s 1 stl (s.putG d (z.signExtend 64))) :=
  gives_fn2 hi h (congrArg sext64 hz)
theorem gives_rem32 {signed : Bool} {z : BitVec 32} (hi : exec i s = s.div32 signed false stl d a b) (h : Ready s (gs [a, b]))
    (hz : (divRes signed (low32 (s.g a)) (low32 (s.g b))).2 = z) : Gives i s (unitDone s 1 stl (s.putG d (z.signExtend 64))) :=
  gives_fn2 hi h (congrArg sext64 hz)

theorem gives_bitDep (h : Ready s (gs [a, b])) (hd : Ready s (gs [d])) :
    Gives (.bitDep stl d a b) s (unitDone s 1 stl (s.putG d (depRes (s.g d) (s.g a) (s.g b)) 1)) := by
  obtain ⟨ha, hb⟩ := ready_gs_cons.1 h
  have habd : Ready s (gs [a, b, d]) := ready_gs_cons.2 ⟨ha, ready_gs_cons.2 ⟨hb, hd⟩⟩
  rw [← rg_of_ready_gs 0 ha, ← rg_of_ready_gs 1 hb, ← rg_of_ready_gs 2 hd]
  change execBitDep stl d a b s = _
  exact State.unit_of_ready 1 stl _ habd

end Units

/-! ## Control transfer -/

section Control
variable {s : State} {i : Instr} {d a b : BitVec 5} {stl : BitVec 3} {o : BitVec 12}

/-- R114: a conditional branch jumps to its target or falls through. -/
theorem gives_branch {taken : Word → Word → Bool} {c : Prop} [Decidable c] (hi : exec i s = s.branch taken stl a b o)
    (h : Ready s (gs [a, b])) (hc : taken (s.g a) (s.g b) = true ↔ c) :
    Gives i s (unitJump s stl s (if c then s.ctx.pc + o.signExtend 56 * 4#56 else s.ctx.pc + 4#56)) := by
  obtain ⟨ha, hb⟩ := ready_gs_cons.1 h
  rw [← rg_of_ready_gs 0 ha, ← rg_of_ready_gs 1 hb] at hc
  rw [Gives, hi]
  refine (State.unit_of_ready 1 stl _ h).trans ?_
  by_cases ht : c
  · rw [if_pos ht, if_pos (hc.2 ht)]
    rfl
  · rw [if_neg ht, if_neg (mt hc.1 ht)]
    rfl

/-- R115: LOOP decrements, and jumps unless the decremented value is b's. -/
theorem gives_loop (h : Ready s (gs [a, b])) : Gives (.loop stl a b o) s (unitJump s stl (s.putG a (s.g a - 1#64))
    (if s.g a - 1#64 ≠ s.g b then s.ctx.pc + o.signExtend 56 * 4#56 else s.ctx.pc + 4#56)) := by
  obtain ⟨ha, hb⟩ := ready_gs_cons.1 h
  rw [← rg_of_ready_gs 0 ha, ← rg_of_ready_gs 1 hb]
  change execLoop stl a b o s = _
  refine (State.unit_of_ready 1 stl _ h).trans ?_
  by_cases heq : s.rg 0 a - 1#64 = s.rg 1 b
  · rw [if_pos heq, if_neg (not_not_intro heq)]
    rfl
  · rw [if_neg heq, if_pos heq]
    rfl

/-- R116: JAL reads no source. -/
theorem gives_jal {w : BitVec 17} : Gives (.jal stl d w) s
    (unitJump s stl (s.putG d ((s.ctx.pc + 4#56).setWidth 64) 1) (s.ctx.pc + w.signExtend 56 * 4#56)) := by
  change execJal stl d w s = _
  exact State.unit_of_ready 1 stl _ (⟨rfl, rfl⟩ : Ready s [])

/-- R117: the target is judged before anything is written. -/
theorem gives_jalr (h : Ready s (gs [a])) : Gives (.jalr stl d a o) s
    (if (s.g a + o.signExtend 64).toNat % 4 = 0 ∧ (s.g a + o.signExtend 64).toNat < 2 ^ 56 then
      unitJump s stl (s.putG d ((s.ctx.pc + 4#56).setWidth 64) 1) ((s.g a + o.signExtend 64).setWidth 56)
    else trapped s 0x06#8 (s.g a + o.signExtend 64)) := by
  rw [← rg_of_ready_gs 0 h]
  change execJalr stl d a o s = _
  refine (State.unit_of_ready 1 stl _ h).trans ?_
  generalize ht : s.rg 0 a + o.signExtend 64 = t
  have hbad : (t.toNat % 4 ≠ 0 ∨ t.toNat / 2 ^ 56 ≠ 0) ↔ ¬(t.toNat % 4 = 0 ∧ t.toNat < 2 ^ 56) := by omega
  by_cases hgood : t.toNat % 4 = 0 ∧ t.toNat < 2 ^ 56
  · rw [if_pos hgood]
    subst ht
    exact congrArg (s.finish 1 stl) (if_neg (mt hbad.1 (not_not_intro hgood)))
  · rw [if_neg hgood]
    subst ht
    exact congrArg (s.finish 1 stl) (if_pos (hbad.2 hgood))

end Control

/-! ## Words of the formats (R25) -/

section Words
variable (op : BitVec 7) (stl : BitVec 3) (d a b : BitVec 5) (f : BitVec 7) (o : BitVec 12) (w : BitVec 17)

/-- A word of G format: two sources and a function code. -/
def gWord : IWord := op ++ stl ++ d ++ a ++ b ++ f
/-- A word of I or B format: two registers and twelve bits. -/
def iWord : IWord := op ++ stl ++ d ++ a ++ o
/-- A word of J format: a register and an offset. -/
def jWord : IWord := op ++ stl ++ d ++ w

/-- A field above the low part of a word lies in the high part. -/
theorem extractLsb'_high {n m lo k : Nat} (x : BitVec n) (y : BitVec m) : (x ++ y).extractLsb' (lo + m) k = x.extractLsb' lo k := by
  rw [BitVec.extractLsb'_append_eq_of_le (Nat.le_add_left m lo), Nat.add_sub_cancel]

/-- The three leading fields stand at the same place in every format. -/
theorem iWord_eq_jWord : iWord op stl d a o = jWord op stl d (a ++ o) := BitVec.append_assoc
theorem gWord_eq_iWord : gWord op stl d a b f = iWord op stl d a (b ++ f) := BitVec.append_assoc

@[simp] theorem fld_off_jWord : fld 17 0 (jWord op stl d w) = w := BitVec.extractLsb'_append_eq_right
@[simp] theorem fld_d_jWord : fld 5 17 (jWord op stl d w) = d := (extractLsb'_high _ _).trans BitVec.extractLsb'_append_eq_right
@[simp] theorem fld_stl_jWord : fld 3 22 (jWord op stl d w) = stl :=
  (extractLsb'_high _ _).trans <| (extractLsb'_high _ _).trans BitVec.extractLsb'_append_eq_right
@[simp] theorem fld_op_jWord : fld 7 25 (jWord op stl d w) = op :=
  (extractLsb'_high _ _).trans <| (extractLsb'_high _ _).trans BitVec.extractLsb'_append_eq_left

@[simp] theorem fld_off_iWord : fld 12 0 (iWord op stl d a o) = o := BitVec.extractLsb'_append_eq_right
@[simp] theorem fld_a_iWord : fld 5 12 (iWord op stl d a o) = a := (extractLsb'_high _ _).trans BitVec.extractLsb'_append_eq_right
@[simp] theorem fld_d_iWord : fld 5 17 (iWord op stl d a o) = d := by rw [iWord_eq_jWord, fld_d_jWord]
@[simp] theorem fld_stl_iWord : fld 3 22 (iWord op stl d a o) = stl := by rw [iWord_eq_jWord, fld_stl_jWord]
@[simp] theorem fld_op_iWord : fld 7 25 (iWord op stl d a o) = op := by rw [iWord_eq_jWord, fld_op_jWord]

@[simp] theorem fld_fn_gWord : fld 7 0 (gWord op stl d a b f) = f := BitVec.extractLsb'_append_eq_right
@[simp] theorem fld_b_gWord : fld 5 7 (gWord op stl d a b f) = b := (extractLsb'_high _ _).trans BitVec.extractLsb'_append_eq_right
@[simp] theorem fld_a_gWord : fld 5 12 (gWord op stl d a b f) = a := by rw [gWord_eq_iWord, fld_a_iWord]
@[simp] theorem fld_d_gWord : fld 5 17 (gWord op stl d a b f) = d := by rw [gWord_eq_iWord, fld_d_iWord]
@[simp] theorem fld_stl_gWord : fld 3 22 (gWord op stl d a b f) = stl := by rw [gWord_eq_iWord, fld_stl_iWord]
@[simp] theorem fld_op_gWord : fld 7 25 (gWord op stl d a b f) = op := by rw [gWord_eq_iWord, fld_op_iWord]

/-- The function code is read through a mask of the low seven bits. -/
theorem toNat_and_fnMask (x : IWord) : (x &&& 0x7F#32).toNat = (fld 7 0 x).toNat := by
  rw [BitVec.toNat_and, fld, BitVec.extractLsb'_toNat, Nat.shiftRight_zero]
  exact Nat.and_two_pow_sub_one_eq_mod x.toNat 7

/-- The bits that must be zero where a function has no second source. -/
theorem and_bMask (x : IWord) : x &&& 0xF80#32 = (fld 5 7 x).setWidth 32 <<< 7 := by
  have hmask : ∀ j < 32, (0xF80#32).getLsbD j = (decide (7 ≤ j) && decide (j - 7 < 5)) := by decide
  refine BitVec.eq_of_getLsbD_eq fun j hj => ?_
  rw [BitVec.getLsbD_and, hmask j hj]
  by_cases h7 : 7 ≤ j
  · simp [fld, h7, hj, Nat.not_lt.2 h7, Bool.and_comm]
  · simp [fld, h7, Nat.not_le.1 h7]

end Words

/-! ## Units of one word (R21, R44) -/

section Decoding
variable {long : Bool} {w : IWord} {i : Instr} {e : Bad}

/-- The opcode is neither KMASK's nor MOD's nor one with a literal: its base word alone is a unit. -/
abbrev OneWord (op : BitVec 7) : Prop := op ≠ 0x2D#7 ∧ op ≠ 0x7E#7 ∧ op ≠ 0x0F#7 ∧ op ≠ 0x10#7

theorem shapeUnit_single (hw : OneWord (fld 7 25 w)) : shapeUnit long [w] = shapeAt long Pre.none 0 w [] := by
  obtain ⟨hmask, hmod, -, -⟩ := hw
  have hk : isMaskWord w = false := by rw [isMaskWord, beq_eq_false_iff_ne.2 hmask, Bool.false_and]
  have hm : isModWord w = false := beq_eq_false_iff_ne.2 hmod
  rw [shapeUnit, hk, hm]
  rfl

theorem shapeAt_ok (hw : OneWord (fld 7 25 w)) (h : decodeShape long Pre.none w 0#32 = .ok (some i)) :
    shapeAt long Pre.none 0 w [] = .ok (some i) w := by
  obtain ⟨-, -, hlil, hlih⟩ := hw
  unfold shapeAt
  rw [List.headD_nil, h, beq_eq_false_iff_ne.2 hlil, beq_eq_false_iff_ne.2 hlih]
  rfl

theorem shapeAt_bad {p : Pre} {pos : Nat} (h : decodeShape long p w 0#32 = .error e) : shapeAt long p pos w [] = .bad e pos w := by
  unfold shapeAt
  rw [List.headD_nil, h]

theorem decodeUnit_ok (hw : OneWord (fld 7 25 w)) (h : decodeShape long Pre.none w 0#32 = .ok (some i)) : decodeUnit long [w] = .ok i := by
  rw [decodeUnit, shapeUnit_single hw, shapeAt_ok hw h]

theorem decodeUnit_bad (hw : OneWord (fld 7 25 w)) (h : decodeShape long Pre.none w 0#32 = .error e) : decodeUnit long [w] = .bad e 0 w := by
  rw [decodeUnit, shapeUnit_single hw, shapeAt_bad h]

/-- R37: a MOD word before a word that takes none; the offending word is at position 1. -/
theorem decodeUnit_mod {m : IWord} (hm : isModWord m = true) (hz : m.setWidth 11 = 0#11)
    (h : ∀ p : Pre, p ≠ Pre.none → decodeShape long p w 0#32 = .error e) : decodeUnit long [m, w] = .bad e 1 w := by
  have hop : fld 7 25 m = 0x7E#7 := eq_of_beq hm
  have hk : isMaskWord m = false := by rw [isMaskWord, hop]; rfl
  have hlow : fld 11 0 m = 0#11 := (BitVec.setWidth_eq_extractLsb' (by decide)).symm.trans hz
  have hshape : shapeUnit long [m, w] = shapeAt long { mask := none, mod := some (modOf m 0#32) } 1 w [] := by
    rw [shapeUnit, hk, hm, if_neg Bool.false_ne_true, if_pos rfl, shapeMod, hlow]
    rfl
  rw [decodeUnit, hshape, shapeAt_bad (h _ (by intro hp; cases hp))]

/-- An instruction that no check of R44 refuses decodes when its zero bits are zero. -/
theorem checkWord_zero {z : IWord} (hz : z = 0#32) (hfn : i.fnFault = false) (hlo : i.longOnly = false) (hres : i.resFault = false)
    (hmode : i.modeFault long = false) : checkWord long z i = .ok i := by
  rw [checkWord, hfn, hlo, hz, hres, hmode]
  rfl

/-- Bits that must be zero and are not raise RESERVED_FIELD. -/
theorem checkWord_ne_zero {z : IWord} (hz : z ≠ 0#32) (hfn : i.fnFault = false) (hlo : i.longOnly = false) :
    checkWord long z i = .error .reservedField := by
  rw [checkWord, hfn, hlo, bne_iff_ne.2 hz]
  rfl

end Decoding

/-! ## The encodings of DIV, BIT and the transfers of control -/

section Encodings
variable (long : Bool) (stl : BitVec 3) (d a b : BitVec 5) (f : BitVec 7)

/-- The functions of DIV by their codes (R107). -/
def divFns : List (BitVec 3 → BitVec 5 → BitVec 5 → BitVec 5 → Instr) :=
  [.divQ, .divQn, .divRem, .divRemn, .divQw, .divQnw, .divRemw, .divRemnw]

theorem decodeShape_div {p : Pre} {w lit : IWord} (hw : fld 7 25 w = 4#7) : decodeShape long p w lit = (decDiv long p w).map some := by
  unfold decodeShape
  rw [hw]
  rfl

theorem decDiv_of_pre {p : Pre} (w : IWord) (hp : p ≠ Pre.none) : decDiv long p w = .error .illegalFunction := by
  rw [decDiv, if_pos (bne_iff_ne.2 hp)]

/-- A function code of DIV names its entry of the table; every other one is illegal. -/
theorem decDiv_eq (w : IWord) : decDiv long Pre.none w =
    ((divFns[(fld 7 0 w).toNat]?).map fun i => Except.ok (i (fld 3 22 w) (fld 5 17 w) (fld 5 12 w) (fld 5 7 w))).getD (.error .illegalFunction) := by
  unfold decDiv
  rw [if_neg (by decide), toNat_and_fnMask, BitVec.and_zero]
  generalize (fld 7 0 w).toNat = n
  rcases n with _ | _ | _ | _ | _ | _ | _ | _ | n <;> rfl

/-- R107: a code of DIV below 8 decodes to its function, any other raises ILLEGAL_FUNCTION. -/
theorem decodeUnit_div : decodeUnit long [gWord 4#7 stl d a b f] =
    ((divFns[f.toNat]?).map fun i => Decoded.ok (i stl d a b)).getD (.bad .illegalFunction 0 (gWord 4#7 stl d a b f)) := by
  have hop : OneWord (fld 7 25 (gWord 4#7 stl d a b f)) := by rw [fld_op_gWord]; decide
  have hdec := (decodeShape_div long (p := Pre.none) (lit := 0#32) (fld_op_gWord 4#7 stl d a b f)).trans (congrArg _ (decDiv_eq long _))
  simp only [fld_fn_gWord, fld_stl_gWord, fld_d_gWord, fld_a_gWord, fld_b_gWord] at hdec
  cases hf : divFns[f.toNat]? with
  | none => exact decodeUnit_bad hop (by rw [hdec, hf]; rfl)
  | some i => exact decodeUnit_ok hop (by rw [hdec, hf]; rfl)

/-- The functions of BIT with one source, and those with two, by their codes (R108). -/
def bitFns1 : List (BitVec 3 → BitVec 5 → BitVec 5 → Instr) :=
  [.bitClz, .bitCtz, .bitPopc, .bitBrev, .bitBswap, .bitSext8, .bitSext16, .bitSext32, .bitZext8, .bitZext16, .bitZext32]
def bitFns2 : List (BitVec 3 → BitVec 5 → BitVec 5 → BitVec 5 → Instr) := [.bitExtr, .bitExtrn, .bitDep]

theorem decodeShape_bit {p : Pre} {w lit : IWord} (hw : fld 7 25 w = 5#7) : decodeShape long p w lit = (decBit long p w).map some := by
  unfold decodeShape
  rw [hw]
  rfl

theorem decBit_of_pre {p : Pre} (w : IWord) (hp : p ≠ Pre.none) : decBit long p w = .error .illegalFunction := by
  rw [decBit, if_pos (bne_iff_ne.2 hp)]

/-- A function of BIT with one source checks that the field of the second is zero. -/
theorem decBit_one {w : IWord} {i : BitVec 3 → BitVec 5 → BitVec 5 → Instr} (h : bitFns1[(fld 7 0 w).toNat]? = some i) :
    decBit long Pre.none w = checkWord long (w &&& 0xF80#32) (i (fld 3 22 w) (fld 5 17 w) (fld 5 12 w)) := by
  unfold decBit
  rw [if_neg (by decide), toNat_and_fnMask]
  generalize (fld 7 0 w).toNat = n at h
  rcases n with _ | _ | _ | _ | _ | _ | _ | _ | _ | _ | _ | n <;> cases h <;> rfl

theorem decBit_two {w : IWord} {i : BitVec 3 → BitVec 5 → BitVec 5 → BitVec 5 → Instr} {n : Nat} (hn : (fld 7 0 w).toNat = 11 + n)
    (h : bitFns2[n]? = some i) : decBit long Pre.none w = .ok (i (fld 3 22 w) (fld 5 17 w) (fld 5 12 w) (fld 5 7 w)) := by
  unfold decBit
  rw [if_neg (by decide), toNat_and_fnMask, hn, BitVec.and_zero]
  rcases n with _ | _ | _ | n <;> cases h <;> rfl

theorem decBit_illegal {w : IWord} (h : 14 ≤ (fld 7 0 w).toNat) : decBit long Pre.none w = .error .illegalFunction := by
  obtain ⟨n, hn⟩ := Nat.exists_eq_add_of_le' h
  unfold decBit
  rw [if_neg (by decide), toNat_and_fnMask, hn]
  rfl

/-- The transfers of control that have I or B format, with their opcodes (R114, R115, R117). -/
def transferFns : List (BitVec 7 × (BitVec 3 → BitVec 5 → BitVec 5 → BitVec 12 → Instr)) :=
  [(0x11#7, .beq), (0x12#7, .bne), (0x13#7, .blt), (0x14#7, .bge), (0x15#7, .bltn), (0x16#7, .bgen), (0x1C#7, .loop), (0x18#7, .jalr)]

theorem decodeShape_transfer {n : Nat} {op : BitVec 7} {i : BitVec 3 → BitVec 5 → BitVec 5 → BitVec 12 → Instr} {w : IWord}
    (h : transferFns[n]? = some (op, i)) (hw : fld 7 25 w = op) :
    decodeShape long Pre.none w 0#32 = .ok (some (i (fld 3 22 w) (fld 5 17 w) (fld 5 12 w) (fld 12 0 w))) := by
  have hcheck : decodeShape long Pre.none w 0#32 =
      (checkWord long (w &&& 0#32) (i (fld 3 22 w) (fld 5 17 w) (fld 5 12 w) (fld 12 0 w))).map some := by
    unfold decodeShape
    rw [hw]
    rcases n with _ | _ | _ | _ | _ | _ | _ | _ | n <;> cases h <;> rfl
  rw [hcheck, BitVec.and_zero]
  rcases n with _ | _ | _ | _ | _ | _ | _ | _ | n <;> cases h <;> rfl

theorem decodeUnit_transfer {n : Nat} {op : BitVec 7} {i : BitVec 3 → BitVec 5 → BitVec 5 → BitVec 12 → Instr} (o : BitVec 12)
    (h : transferFns[n]? = some (op, i)) : decodeUnit long [iWord op stl d a o] = .ok (i stl d a o) := by
  have hop : OneWord op := by
    rcases n with _ | _ | _ | _ | _ | _ | _ | _ | n <;> cases h <;> decide
  have hdec := decodeShape_transfer long h (fld_op_iWord op stl d a o)
  rw [fld_stl_iWord, fld_d_iWord, fld_a_iWord, fld_off_iWord] at hdec
  exact decodeUnit_ok (by rw [fld_op_iWord]; exact hop) hdec

theorem decodeUnit_jal (o : BitVec 17) : decodeUnit long [jWord 0x17#7 stl d o] = .ok (.jal stl d o) := by
  have hop := fld_op_jWord 0x17#7 stl d o
  have hcheck : decodeShape long Pre.none (jWord 0x17#7 stl d o) 0#32 = (checkWord long (jWord 0x17#7 stl d o &&& 0#32)
      (.jal (fld 3 22 (jWord 0x17#7 stl d o)) (fld 5 17 (jWord 0x17#7 stl d o)) (fld 17 0 (jWord 0x17#7 stl d o)))).map some := by
    unfold decodeShape
    rw [hop]
    rfl
  rw [BitVec.and_zero, fld_stl_jWord, fld_d_jWord, fld_off_jWord] at hcheck
  exact decodeUnit_ok (by rw [hop]; decide) hcheck

/-- No other check of R44 refuses a function of BIT with one source. -/
theorem bitFns1_faultless {i : BitVec 3 → BitVec 5 → BitVec 5 → Instr} {n : Nat} (h : bitFns1[n]? = some i) :
    (i stl d a).fnFault = false ∧ (i stl d a).longOnly = false ∧ (i stl d a).resFault = false ∧ (i stl d a).modeFault long = false := by
  rcases n with _ | _ | _ | _ | _ | _ | _ | _ | _ | _ | _ | n <;> cases h <;> exact ⟨rfl, rfl, rfl, rfl⟩

/-- R108: a function of BIT with one source decodes when the field of the second is zero, and raises RESERVED_FIELD otherwise. -/
theorem decodeUnit_bit_one {i : BitVec 3 → BitVec 5 → BitVec 5 → Instr} (h : bitFns1[f.toNat]? = some i) :
    decodeUnit long [gWord 5#7 stl d a 0#5 f] = .ok (i stl d a) ∧
      (b ≠ 0#5 → decodeUnit long [gWord 5#7 stl d a b f] = .bad .reservedField 0 (gWord 5#7 stl d a b f)) := by
  have hop : ∀ c, OneWord (fld 7 25 (gWord 5#7 stl d a c f)) := fun c => by rw [fld_op_gWord]; decide
  have hdec : ∀ c, decodeShape long Pre.none (gWord 5#7 stl d a c f) 0#32 =
      (checkWord long (c.setWidth 32 <<< 7) (i stl d a)).map some := fun c => by
    rw [decodeShape_bit long (fld_op_gWord 5#7 stl d a c f), decBit_one long (i := i) (by rw [fld_fn_gWord]; exact h), and_bMask,
      fld_b_gWord, fld_stl_gWord, fld_d_gWord, fld_a_gWord]
  obtain ⟨hfn, hlong, hres, hmode⟩ := bitFns1_faultless long stl d a h
  have hnz : ∀ c : BitVec 5, c ≠ 0#5 → c.setWidth 32 <<< 7 ≠ 0#32 := by decide
  refine ⟨decodeUnit_ok (hop _) ?_, fun hb => decodeUnit_bad (hop _) ?_⟩
  · rw [hdec, checkWord_zero (by decide) hfn hlong hres hmode]
    rfl
  · rw [hdec, checkWord_ne_zero (hnz b hb) hfn hlong]
    rfl

theorem decodeUnit_bit_two {i : BitVec 3 → BitVec 5 → BitVec 5 → BitVec 5 → Instr} {n : Nat} (hn : f.toNat = 11 + n)
    (h : bitFns2[n]? = some i) : decodeUnit long [gWord 5#7 stl d a b f] = .ok (i stl d a b) := by
  refine decodeUnit_ok (by rw [fld_op_gWord]; decide) ?_
  rw [decodeShape_bit long (fld_op_gWord 5#7 stl d a b f), decBit_two long (by rw [fld_fn_gWord, hn]) h,
    fld_stl_gWord, fld_d_gWord, fld_a_gWord, fld_b_gWord]
  rfl

theorem decodeUnit_bit_illegal (h : 14 ≤ f.toNat) :
    decodeUnit long [gWord 5#7 stl d a b f] = .bad .illegalFunction 0 (gWord 5#7 stl d a b f) := by
  refine decodeUnit_bad (by rw [fld_op_gWord]; decide) ?_
  rw [decodeShape_bit long (fld_op_gWord 5#7 stl d a b f), decBit_illegal long (by rw [fld_fn_gWord]; exact h)]
  rfl

variable {m : IWord} (hm : isModWord m = true) (hz : m.setWidth 11 = 0#11)
include hm hz

/-- R37: no function of DIV or BIT honours a MOD word. -/
theorem decodeUnit_div_mod : decodeUnit long [m, gWord 4#7 stl d a b f] = .bad .illegalFunction 1 (gWord 4#7 stl d a b f) :=
  decodeUnit_mod hm hz fun p hp => by
    rw [decodeShape_div long (fld_op_gWord 4#7 stl d a b f), decDiv_of_pre long _ hp]
    rfl

theorem decodeUnit_bit_mod : decodeUnit long [m, gWord 5#7 stl d a b f] = .bad .illegalFunction 1 (gWord 5#7 stl d a b f) :=
  decodeUnit_mod hm hz fun p hp => by
    rw [decodeShape_bit long (fld_op_gWord 5#7 stl d a b f), decBit_of_pre long _ hp]
    rfl

end Encodings

/-! ## Products and quotients -/

section Products
variable {n : Nat}

theorem mul_eq_ofInt (x y : BitVec n) : x * y = BitVec.ofInt n (x.toInt * y.toInt) := by
  rw [BitVec.ofInt_mul, BitVec.ofInt_toInt, BitVec.ofInt_toInt]

/-- R107: the quotient is truncated toward zero; the least integer divided by −1 wraps. -/
theorem sdiv_eq_ofInt (x y : BitVec n) : x.sdiv y = BitVec.ofInt n (x.toInt.tdiv y.toInt) := by
  apply BitVec.eq_of_toInt_eq
  rw [BitVec.toInt_sdiv, BitVec.toInt_ofInt]

theorem srem_eq_ofInt (x y : BitVec n) : x.srem y = BitVec.ofInt n (x.toInt.tmod y.toInt) := by
  rw [← BitVec.toInt_srem, BitVec.ofInt_toInt]

theorem umod_eq_ofNat (x y : BitVec n) : x % y = BitVec.ofNat n (x.toNat % y.toNat) := by
  rw [← BitVec.toNat_umod, BitVec.ofNat_toNat, BitVec.setWidth_eq]

theorem divRes_signed_quot (x y : BitVec n) :
    (divRes true x y).1 = if y = 0#n then BitVec.allOnes n else BitVec.ofInt n (x.toInt.tdiv y.toInt) := by
  rw [← sdiv_eq_ofInt, divRes]
  split <;> rfl

theorem divRes_signed_rem (x y : BitVec n) : (divRes true x y).2 = if y = 0#n then x else BitVec.ofInt n (x.toInt.tmod y.toInt) := by
  rw [← srem_eq_ofInt, divRes]
  split <;> rfl

theorem divRes_unsigned_quot (x y : BitVec n) :
    (divRes false x y).1 = if y = 0#n then BitVec.allOnes n else BitVec.ofNat n (x.toNat / y.toNat) := by
  rw [← BitVec.udiv_def, divRes]
  split <;> rfl

theorem divRes_unsigned_rem (x y : BitVec n) : (divRes false x y).2 = if y = 0#n then x else BitVec.ofNat n (x.toNat % y.toNat) := by
  rw [← umod_eq_ofNat, divRes]
  split <;> rfl

end Products

/-! ## Bits -/

section Bits
variable {n : Nat} (x : BitVec n)

/-- The leading zeros that `clzFrom` counts end at a one, or at bit 0. -/
theorem clzFrom_spec : ∀ i, clzFrom x i ≤ i ∧ (∀ q < clzFrom x i, x.getLsbD (i - 1 - q) = false) ∧
    (clzFrom x i < i → x.getLsbD (i - 1 - clzFrom x i) = true)
  | 0 => ⟨Nat.le_refl 0, nofun, nofun⟩
  | i + 1 => by
    obtain ⟨hle, hzeros, hone⟩ := clzFrom_spec i
    cases hbit : x.getLsbD i with
    | true =>
      have h : clzFrom x (i + 1) = 0 := if_pos hbit
      rw [h]
      exact ⟨Nat.zero_le _, nofun, fun _ => hbit⟩
    | false =>
      have h : clzFrom x (i + 1) = clzFrom x i + 1 := by rw [clzFrom, hbit, if_neg Bool.false_ne_true, Nat.add_comm]
      rw [h]
      refine ⟨Nat.succ_le_succ hle, fun q hq => ?_, fun hlt => ?_⟩
      · cases q with
        | zero => exact hbit
        | succ q =>
          have hidx : i + 1 - 1 - (q + 1) = i - 1 - q := by omega
          rw [hidx]
          exact hzeros q (by omega)
      · have hidx : i + 1 - 1 - (clzFrom x i + 1) = i - 1 - clzFrom x i := by omega
        rw [hidx]
        exact hone (by omega)

/-- The trailing zeros that `ctzFrom` counts from a bit up end at a one, or after `m` bits. -/
theorem ctzFrom_spec : ∀ i m, ctzFrom x i m ≤ m ∧ (∀ q < ctzFrom x i m, x.getLsbD (i + q) = false) ∧
    (ctzFrom x i m < m → x.getLsbD (i + ctzFrom x i m) = true)
  | _, 0 => ⟨Nat.le_refl 0, nofun, nofun⟩
  | i, m + 1 => by
    obtain ⟨hle, hzeros, hone⟩ := ctzFrom_spec (i + 1) m
    cases hbit : x.getLsbD i with
    | true =>
      have h : ctzFrom x i (m + 1) = 0 := if_pos hbit
      rw [h]
      exact ⟨Nat.zero_le _, nofun, fun _ => hbit⟩
    | false =>
      have h : ctzFrom x i (m + 1) = ctzFrom x (i + 1) m + 1 := by rw [ctzFrom, hbit, if_neg Bool.false_ne_true, Nat.add_comm]
      rw [h]
      refine ⟨Nat.succ_le_succ hle, fun q hq => ?_, fun hlt => ?_⟩
      · cases q with
        | zero => exact hbit
        | succ q =>
          have hidx : i + (q + 1) = i + 1 + q := by omega
          rw [hidx]
          exact hzeros q (by omega)
      · have hidx : i + (ctzFrom x (i + 1) m + 1) = i + 1 + ctzFrom x (i + 1) m := by omega
        rw [hidx]
        exact hone (by omega)

theorem popcTo_eq_countP : ∀ m, popcTo x m = (List.range m).countP fun q => x.getLsbD q
  | 0 => rfl
  | m + 1 => by rw [popcTo, popcTo_eq_countP m, List.range_succ, List.countP_append, List.countP_singleton, Nat.add_comm]

/-- Zero extension of a low part is a mask. -/
theorem zeroExtend_eq_and {k : Nat} (hk : k ≤ n) : (x.setWidth k).setWidth n = x &&& BitVec.ofNat n (2 ^ k - 1) := by
  apply BitVec.eq_of_toNat_eq
  have hpow : 2 ^ k ≤ 2 ^ n := Nat.pow_le_pow_right (by decide) hk
  have hlt : x.toNat % 2 ^ k < 2 ^ n := Nat.lt_of_lt_of_le (Nat.mod_lt _ (Nat.two_pow_pos k)) hpow
  have hmask : 2 ^ k - 1 < 2 ^ n := Nat.lt_of_lt_of_le (Nat.sub_one_lt (Nat.ne_of_gt (Nat.two_pow_pos k))) hpow
  rw [BitVec.toNat_setWidth, BitVec.toNat_setWidth, Nat.mod_eq_of_lt hlt, BitVec.toNat_and, BitVec.toNat_ofNat, Nat.mod_eq_of_lt hmask,
    Nat.and_two_pow_sub_one_eq_mod]

theorem fieldPos_eq (y : Word) : fieldPos y = y.toNat % 64 := congrArg (· % 64) (Nat.div_one y.toNat)

theorem fieldLen_eq (y : Word) : fieldLen y = y.toNat / 256 % 64 + 1 := rfl

end Bits

section Fields
variable {x y d : Word} {p n : Nat} (hp : fieldPos y = p) (hn : fieldLen y = n)
include hp hn

theorem extrRes_signed : extrRes true x y = ((x.sshiftRight p).setWidth n).signExtend 64 := by
  rw [← hp, ← hn]
  rfl

theorem extrRes_unsigned : extrRes false x y = ((x >>> p).setWidth n).setWidth 64 := by
  rw [← hp, ← hn]
  rfl

theorem depRes_eq : depRes d x y =
    ((d &&& ~~~BitVec.ofNat 64 ((2 ^ n - 1) * 2 ^ p)) ||| ((x <<< p) &&& BitVec.ofNat 64 ((2 ^ n - 1) * 2 ^ p))) := by
  rw [← hp, ← hn]
  rfl

end Fields

/-! ## Comparisons -/

theorem not_slt_iff {n : Nat} {x y : BitVec n} : (!x.slt y) = true ↔ y.toInt ≤ x.toInt := by
  rw [Bool.not_eq_true', ← Bool.not_eq_true, BitVec.slt_iff_toInt_lt, Int.not_lt]

theorem not_ult_iff {n : Nat} {x y : BitVec n} : (!x.ult y) = true ↔ y.toNat ≤ x.toNat := by
  rw [Bool.not_eq_true', ← Bool.not_eq_true, BitVec.ult_iff_lt, BitVec.lt_def, Nat.not_lt]

/-! ## The statements -/

/-- Settles O3: `ofInt` of the exact product is the model's own, and the quotient and the remainder are `divRes`'s, with a divisor 0 or not; the
codes of DIV are looked up in its table. -/
theorem mulDivResults : Obligations.MulDivResults := by
  unfold Obligations.MulDivResults
  intro s stl d a b hr x y u v mul div
  refine ⟨gives_mul rfl hr (mul_eq_ofInt x y), gives_mul rfl hr rfl, gives_mul rfl hr rfl, gives_mul rfl hr rfl,
    gives_mul rfl hr (congrArg sext64 (mul_eq_ofInt u v)), gives_mul rfl hr rfl,
    gives_quot64 rfl hr (divRes_signed_quot x y), gives_quot64 rfl hr (divRes_unsigned_quot x y),
    gives_rem64 rfl hr (divRes_signed_rem x y), gives_rem64 rfl hr (divRes_unsigned_rem x y),
    gives_quot32 rfl hr (divRes_signed_quot u v), gives_quot32 rfl hr (divRes_unsigned_quot u v),
    gives_rem32 rfl hr (divRes_signed_rem u v), gives_rem32 rfl hr (divRes_unsigned_rem u v), ?_⟩
  intro long f m w dec
  have hdec := decodeUnit_div long stl d a b
  refine ⟨hdec 0, hdec 1, hdec 2, hdec 3, hdec 4, hdec 5, hdec 6, hdec 7, fun hf => ?_, decodeUnit_div_mod long stl d a b f⟩
  have hnone : divFns[f.toNat]? = none := List.getElem?_eq_none hf
  exact (hdec f).trans (by rw [hnone]; rfl)

/-- Settles O5: CLZ, CTZ and POPC by induction on the bits they have seen, the extensions as masks, the fields by their position and length; the
codes of BIT are looked up in its two tables. -/
theorem bitResults : Obligations.BitResults := by
  unfold Obligations.BitResults
  intro s stl d a b hr x p n is m
  obtain ⟨ha, -⟩ := ready_gs_cons.1 hr
  obtain ⟨hclz, hclz0, hclz1⟩ := clzFrom_spec x 64
  obtain ⟨hctz, hctz0, hctz1⟩ := ctzFrom_spec x 0 64
  rw [Nat.zero_add] at hctz1
  simp only [Nat.zero_add] at hctz0
  have hpos : fieldPos (s.g b) = p := fieldPos_eq (s.g b)
  have hlen : fieldLen (s.g b) = n := fieldLen_eq (s.g b)
  refine ⟨⟨clz x, hclz, hclz0, hclz1, gives_fn1 (f := fun x => BitVec.ofNat 64 (clz x)) rfl ha rfl⟩,
    ⟨ctz x, hctz, hctz0, hctz1, gives_fn1 (f := fun x => BitVec.ofNat 64 (ctz x)) rfl ha rfl⟩,
    gives_fn1 (f := fun x => BitVec.ofNat 64 (popc x)) rfl ha (congrArg (BitVec.ofNat 64) (popcTo_eq_countP x 64)),
    gives_fn1 (f := BitVec.reverse) rfl ha rfl, gives_fn1 (f := bswap) rfl ha rfl,
    gives_fn1 (f := fun x => (x.setWidth 8).signExtend 64) rfl ha rfl, gives_fn1 (f := fun x => (x.setWidth 16).signExtend 64) rfl ha rfl,
    gives_fn1 (f := fun x => (x.setWidth 32).signExtend 64) rfl ha rfl,
    gives_fn1 (f := fun x => (x.setWidth 8).setWidth 64) rfl ha (zeroExtend_eq_and x (by decide)),
    gives_fn1 (f := fun x => (x.setWidth 16).setWidth 64) rfl ha (zeroExtend_eq_and x (by decide)),
    gives_fn1 (f := fun x => (x.setWidth 32).setWidth 64) rfl ha (zeroExtend_eq_and x (by decide)),
    gives_fn2 (f := extrRes true) rfl hr (extrRes_signed hpos hlen), gives_fn2 (f := extrRes false) rfl hr (extrRes_unsigned hpos hlen),
    fun hd => ?_, ?_⟩
  · rw [← depRes_eq hpos hlen]
    exact gives_bitDep hr hd
  · intro long f c w dec
    have hone := fun k i => decodeUnit_bit_one long stl d a b k (i := i)
    refine ⟨(hone 0 _ rfl).1, (hone 1 _ rfl).1, (hone 2 _ rfl).1, (hone 3 _ rfl).1, (hone 4 _ rfl).1, (hone 5 _ rfl).1, (hone 6 _ rfl).1,
      (hone 7 _ rfl).1, (hone 8 _ rfl).1, (hone 9 _ rfl).1, (hone 10 _ rfl).1, decodeUnit_bit_two long stl d a b 11 (n := 0) rfl rfl,
      decodeUnit_bit_two long stl d a b 12 (n := 1) rfl rfl, decodeUnit_bit_two long stl d a b 13 (n := 2) rfl rfl,
      decodeUnit_bit_illegal long stl d a b f, fun hf => ?_, decodeUnit_bit_mod long stl d a b f⟩
    exact (hone f _ (List.getElem?_eq_getElem hf)).2

/-- Settles O8: each transfer's body decides between its target and the next word; their words are the entries of one table, and JAL's. -/
theorem controlTransfer : Obligations.ControlTransfer := by
  unfold Obligations.ControlTransfer
  intro s stl d a b o w hr x y dest is link t
  obtain ⟨ha, -⟩ := ready_gs_cons.1 hr
  refine ⟨gives_branch rfl hr beq_iff_eq, gives_branch rfl hr bne_iff_ne, gives_branch rfl hr BitVec.slt_iff_toInt_lt,
    gives_branch (taken := fun x y => !x.slt y) rfl hr not_slt_iff, gives_branch rfl hr BitVec.ult_iff_lt,
    gives_branch (taken := fun x y => !x.ult y) rfl hr not_ult_iff, gives_loop hr, gives_jal, gives_jalr ha, fun long => ?_⟩
  have hdec := fun n op i c r h => decodeUnit_transfer long stl c r (n := n) (op := op) (i := i) o h
  exact ⟨hdec 0 _ _ a b rfl, hdec 1 _ _ a b rfl, hdec 2 _ _ a b rfl, hdec 3 _ _ a b rfl, hdec 4 _ _ a b rfl, hdec 5 _ _ a b rfl,
    hdec 6 _ _ a b rfl, decodeUnit_jal long stl d w, hdec 7 _ _ d a rfl⟩

end Sys2Proof.ScalarCore
